-- ==== Sys2Proof/Word.lean ====
section
/-!
DEFINITION. Word.lean: the machine word, the byte, the names of the three lanes and the plainest arithmetic.
A register is 32 bits wide (R11), a beat of the Hedge link 16 bits (R16), module time 64 bits (R34).
-/

namespace Sys2Proof

/-- One register's contents (R11). -/
abbrev Word := BitVec 32

/-- One byte of a memory of the part. -/
abbrev Byte := BitVec 8

/-- One beat of the Hedge link (R16), or one data word of a loop engine (R182). -/
abbrev Half := BitVec 16

/-- The three lanes of the module (00_scope.md, "Six dies in three lanes"). -/
inductive LaneId where
  | a | b | c
  deriving DecidableEq, Repr

/-- The lane's number: 0 lane A, 1 lane B, 2 lane C (SYS_LANE, R64). -/
def LaneId.idx : LaneId → Nat
  | .a => 0
  | .b => 1
  | .c => 2

/-- The lane of a number; numbers above 2 name lane C and are kept out by the callers. -/
def LaneId.ofIdx : Nat → LaneId
  | 0 => .a
  | 1 => .b
  | _ => .c

/-- All three lanes, in order. -/
def LaneId.all : List LaneId := [.a, .b, .c]

/-- The next lane in the ring A, B, C (LINK_0) . -/
def LaneId.next : LaneId → LaneId
  | .a => .b
  | .b => .c
  | .c => .a

/-- The previous lane in the ring A, B, C (LINK_1). -/
def LaneId.prev : LaneId → LaneId
  | .a => .c
  | .b => .a
  | .c => .b

/-- The field of `w` bits at `lo` of a number. -/
def bits (x lo w : Nat) : Nat := (x >>> lo) % 2 ^ w

/-- Bit `i` of a number. -/
def bit (x i : Nat) : Bool := x.testBit i

/-- The number of a Bool. -/
def b2n (b : Bool) : Nat := if b then 1 else 0

/-- `x` with its field of `w` bits at `lo` replaced by `v` (cut to `w` bits). -/
def putBits (x lo w v : Nat) : Nat :=
  x - (bits x lo w) * 2 ^ lo + (v % 2 ^ w) * 2 ^ lo

/-- The signed value of the low `w` bits of a number (two's complement, R6). -/
def toSigned (w x : Nat) : Int :=
  let y := x % 2 ^ w
  if y < 2 ^ (w - 1) then (y : Int) else (y : Int) - (2 : Int) ^ w

/-- The `w`-bit two's-complement pattern of an integer. -/
def ofSigned (w : Nat) (x : Int) : Nat := (x % (2 : Int) ^ w).toNat

/-- The nearest end of `[lo, hi]`, or the value itself inside (R7). -/
def clampI (lo hi x : Int) : Int := if x < lo then lo else if hi < x then hi else x

/-- The signed saturation to `w` bits (R7). -/
def satS (w : Nat) (x : Int) : Int := clampI (-(2 : Int) ^ (w - 1)) ((2 : Int) ^ (w - 1) - 1) x

/-- Saturation of a count at `m`. -/
def satU (m x : Nat) : Nat := if m < x then m else x

end Sys2Proof
end

