-- ==== Sys2Proof/Syntax.lean ====
section
/-!
DEFINITION. Syntax.lean: the commands of the block, one constructor per row of spec/opcode_table.json, with the operands that
come from outside the state (the lane addressed, an index, a value written, what a line, a link or a sensor brought).
Times are not operands: the machine's clock is in the state.
-/

namespace Sys2Proof

/-- A kind of register block of Table 1.10 and R50. CNV, DRV, LOOP and CAN have several instances. -/
inductive Blk where
  | sys | pwr | clk | trio | cmdq | ozl | saf | cnv | cnvSq | pos | drv | loop | hk | bist | alm | can | flx | eth
  | twp | preq | nvmc | msup | dbg | gd | prot | icv | hsf | sdl | ths | hlnk
  deriving DecidableEq, Repr

/-- The fabric masters of Table 3.8. -/
inductive Master where
  | trioM     -- trio, machine mode
  | trioU     -- trio, user mode
  | svc       -- service pair
  | free      -- free core of a split trio
  deriving DecidableEq, Repr

/-- The sources of a lane reset, Table 1.8 and SYS_RSTCAUSE. -/
inductive RstSrc where
  | por | vcore | vdd18 | vio | pin | soft | clkLoss | debug
  deriving DecidableEq, Repr

/-- What the Reed-Solomon decoder of a link made of a cell (R68): clean, up to four bytes corrected, or discarded. -/
inductive RsOut where
  | clean | corrected | failed
  deriving DecidableEq, Repr

/-- The references of one vote, in the fields of Table 2.4 that are voted, with the discrete ones first. -/
structure Refs where
  level : BitVec 2
  share : BitVec 2
  member : BitVec 3
  ena : BitVec 4
  asc : BitVec 4
  leave : BitVec 3
  join : BitVec 3
  tq : List Half
  fx : List Half
  deriving DecidableEq, Repr

/-- The payload of a vote cell (Table 2.4). Its reserved bytes are 0 (R72). -/
structure VoteCell where
  vseq : Word
  origin : BitVec 2
  lstate : BitVec 3
  shadow : Bool
  late : Bool
  novote : Bool
  refs : Refs
  score : Half
  resolve : BitVec 2
  cdig : Word
  sdig : Word
  e2e : Word
  deriving DecidableEq, Repr

/-- A heartbeat cell: header fields SRC and CYC, and the payload of R74's text (module time, state, flags, E2E). -/
structure Heartbeat where
  src : LaneId
  cyc : Half
  mt : BitVec 64
  state : BitVec 8
  flags : BitVec 8
  e2e : Word
  deriving DecidableEq, Repr

/-- A heartbeat on an external port with its slot 0 (R110 to R114, R459): partner's role, level, PRIMARY, serial number, module
time, the trajectories' set-points, and of the mirrored state the SEQ counters of the 64 DID entries (R462). -/
structure ExtBeat where
  active : Bool
  level : BitVec 2
  primary : Bool
  serial : Word
  mt : BitVec 64
  traj : List Int
  seqs : List Word
  deriving DecidableEq, Repr

/-- A shared position quantity of a peer (R199): value, timestamp, rolling counter, and whether the peer reports it valid. -/
structure SensorVal where
  value : Word
  t : Word
  rc : Byte
  valid : Bool
  deriving DecidableEq, Repr

/-- What a STREAM cell carries (Table 2.3). -/
inductive StreamItem where
  | mirror (words : List (Nat × Word))                      -- status-window mirror (R48)
  | sensor (code : Fin 26) (v : SensorVal)                  -- sensor sharing, by source code (R199)
  | digests (cdig sdig : Word)                              -- state digests (R115)
  | graftImage (words : List (Nat × Word))                  -- graft image (Table 2.11 phase 3)
  | packet (bytes : List Byte)                              -- a Trellis packet forwarded by a peer
  | lcConfirm (target : BitVec 3)                           -- confirmation of a life-cycle transition (R527)
  | challenge (c : Word)                                    -- SYS_LC_CHAL of the drawing lane (R526)
  | replay (words : List (Nat × Word))                      -- changes after the donor's snapshot (Table 2.11 phase 3)
  | bulk                                                    -- bulk transfer
  | moduleTime (mt : BitVec 64)                             -- module time, where it is relayed (R71)
  | relayed (src : LaneId) (item : StreamItem)              -- traffic of another lane, relayed (R71)
  deriving DecidableEq, Repr

/-- A register of a core (R126, R131): x0 to x31, f0 to f31, a CSR by its number (fcsr, the machine CSRs, the PMP registers, counters and
debug triggers among them), the pc, a byte of the branch predictor tables. -/
inductive CoreReg where
  | x (n : Fin 32) | f (n : Fin 32) | csr (n : BitVec 12) | pc | pred (k : Fin 3072)
  deriving DecidableEq, Repr

/-- A register write a core of the trio made. -/
structure CoreWrite where
  core : Fin 3
  reg : CoreReg
  val : Word
  deriving DecidableEq, Repr

/-- A compared output of a trio core (Table 3.2): a bus transaction with address, write data, byte enables, read or write, privilege and
PMP outcome; a CSR write; a trap entry or mret with mstatus, mcause, mepc and mtval; an interrupt claim or completion with context and
source; a halt or resume acknowledge. -/
inductive CoreOut where
  | bus (addr data : Word) (be : BitVec 4) (write : Bool) (priv : BitVec 2) (pmpOk : Bool)
  | csr (num : BitVec 12) (val : Word)
  | trap (mret : Bool) (mstatus mcause mepc mtval : Word)
  | claim (ctx : Fin 3) (src : Nat)
  | complete (ctx : Fin 3) (src : Nat)
  | haltAck
  | resumeAck
  deriving DecidableEq, Repr

/-- A PMP entry (R145, Table 3.7): its range, read, write and execute of machine mode (a locked entry binds it), and of user mode. -/
structure PmpEntry where
  lo : Nat
  hi : Nat
  mR : Bool
  mW : Bool
  mX : Bool
  uR : Bool
  uW : Bool
  uX : Bool
  deriving DecidableEq, Repr

/-- What an injection of R120 brought out: the comparator named a core, reported a pair mismatch, reported nothing,
or a checker fault of R121 showed (equal rails, delay registers differing, parity); or a real mismatch fell in the
injection cycle (R122). -/
inductive InjOut where
  | named (core : Fin 3)
  | pairMismatch
  | nothing
  | checker
  | real
  deriving DecidableEq, Repr

/-- The elements that are tested, covered and pruned one by one (Table 11.1, BIST_PRUNE_0 and BIST_PRUNE_1). -/
inductive Elem where
  | cnv (n : Nat) | loop (n : Nat) | drv (n : Nat) | pos (c : Nat) | icv | can (n : Nat) | flx | eth (p : Nat)
  | sram (k : Nat) | core (c : Nat) | svc
  deriving DecidableEq, Repr

/-- Where a packet enters intake from: a submission ring, or the packets a peer forwarded (R154, R164). -/
inductive IntakeSrc where
  | ring (n : Fin 4) (twin : List Byte)
  | forwarded
  deriving DecidableEq, Repr


/-- A memory operand of format D (Tables 5.2, 5.3): index register, address mode and address. -/
structure Ea where
  x : BitVec 3
  m : BitVec 2
  addr : BitVec 12
  deriving DecidableEq, Repr

/-- A memory operand of format P: index register and mode. -/
structure PEa where
  x : BitVec 3
  m : BitVec 2
  deriving DecidableEq, Repr

/-- An instruction of Miokin loop code (Table 5.4). `a` and `b` name accumulators. -/
inductive MIns where
  | ld (a : BitVec 2) (ea : Ea) | st (a : BitVec 2) (ea : Ea) | add (a : BitVec 2) (ea : Ea) | sub (a : BitVec 2) (ea : Ea)
  | ldk (ea : Ea) | mpy (a : BitVec 2) (ea : Ea) | mac (a : BitVec 2) (ea : Ea) | msu (a : BitVec 2) (ea : Ea)
  | cmp (a : BitVec 2) (ea : Ea) | lim (a : BitVec 2) (ea : Ea) | ldx (x : BitVec 3) (addr : BitVec 12)
  | stx (x : BitVec 3) (addr : BitVec 12) | lut (a : BitVec 2) (ea : Ea) | div (a : BitVec 2) (ea : Ea)
  | mpyp (a : BitVec 2) (p q : PEa) | macp (a : BitVec 2) (p q : PEa) | msbp (a : BitVec 2) (p q : PEa)
  | mov (a b : BitVec 2) | adda (a b : BitVec 2) | suba (a b : BitVec 2) | neg (a : BitVec 2) | abs (a : BitVec 2)
  | clr (a : BitVec 2) | sha (a : BitVec 2) (n : BitVec 6) | sat (a : BitVec 2) | max (a b : BitVec 2) | min (a b : BitVec 2)
  | mulk (a b : BitVec 2) | cmpa (a b : BitVec 2) | movk (a : BitVec 2)
  | ldi (a : BitVec 2) (imm : Half) | addi (a : BitVec 2) (imm : Half) | lki (imm : Half) | lxi (x : BitVec 3) (imm : BitVec 12)
  | axi (x : BitVec 3) (imm : BitVec 12) | rep (imm : BitVec 8)
  | get (a : BitVec 2) (item : BitVec 4) | out (a : BitVec 2) (port : BitVec 3) (s : Bool)
  | jmp (cond : BitVec 4) (target : BitVec 12) | call (target : BitVec 12) | ret | endI | nop
  deriving DecidableEq, Repr

/-- What the ICV measured on one channel of a reference check (R314): the counts of the first half and of the second half of a
stimulus check, or of the whole window in live mode, and whether the input was out of range (R308). -/
structure RefMeas where
  n1 : Int
  n2 : Int
  ovl : Bool
  deriving DecidableEq, Repr

/-- What a self-calibration measured (R304, Table 8.5): offset, gain correction in 2^-14, the twelve weight trims, whether
each lies in its range, and the verification codes of VCHKH, VCHKL and MID. -/
structure CalMeas where
  ofs : Int
  gain : Int
  weights : List Byte
  weightsOk : Bool
  vh : Int
  vl : Int
  mid : Int
  deriving DecidableEq, Repr

/-- A frame as a SENT receiver measured it (R329): the length of its calibration pulse and of its nibbles (status, data,
CRC) in ticks of 5 ns. -/
structure SentIn where
  cal : Nat
  nibbles : List Nat
  deriving DecidableEq, Repr

/-- A word that a scrub pass read (R397): an address in it, and the 20 symbols stored there, 16 data bytes and 4 check symbols. -/
structure ScrubFind where
  addr : Word
  stored : List Byte
  deriving DecidableEq, Repr

/-- What a step of the fallow test found (Tables 11.3, 11.5): an element that failed; the result of a bridge's off-state diagnostic (bit
0 short to VM, 1 short to ground, 2 open load, 3 not run); a switch whose switch-off path failed, 24 the chopper's; the chopper test
failed. -/
inductive FallowFind where
  | elem (e : Elem)
  | bridge (b : Fin 4) (res : BitVec 4)
  | switch (sw : Fin 25)
  | chopper
  deriving DecidableEq, Repr

/-- The memory whose decoder a test found wrong (R404). -/
inductive DecMem where
  | trioTcm | nvm | svcTcm | elem (e : Elem)
  deriving DecidableEq, Repr


/-- A CAN frame (R406): format 0 classical, 1 FD, 2 XL; an 11-bit or priority identifier in bits [28:18]; `ts` is module time
[31:0] at the sample point of its start-of-frame. -/
structure CanFrame where
  fmt : Fin 3
  ide : Bool
  id : BitVec 29
  rtr : Bool
  dlc : BitVec 4
  esi : Bool
  sdt : Byte
  vcid : Byte
  sec : Bool
  af : Word
  data : List Byte
  ts : Word
  deriving DecidableEq, Repr

/-- How a transmission attempt ended (R414 to R416): sent, arbitration lost, a bit error after the arbitration field, another
error; the errors with the LEC code. -/
inductive CanTxRes where
  | sent | lost | collide (lec : BitVec 3) | error (lec : BitVec 3)
  deriving DecidableEq, Repr

/-- What the wake filter made of a frame (R420): a correct classical data frame, another correct frame, one with FDF
recessive, one ended by an error. -/
inductive WakeIn where
  | data (f : CanFrame) | other | skipped | error
  deriving DecidableEq, Repr


/-- A FlexRay frame as received (R430, R437): channel (B or A), slot, payload, whether it is a null frame, its start's distance
from the action point in microticks, whether the channel was still active at the slot's end, whether it failed syntax or CRC,
and module time [31:0] at its start. -/
structure FlxFrame where
  chB : Bool
  slot : BitVec 11
  payload : List Byte
  nullF : Bool
  ofsUt : Int
  overrun : Bool
  syntaxErr : Bool
  ts : Word
  deriving DecidableEq, Repr


/-- The carrier a twin-path copy arrives on (Table 14.4): a FlexRay buffer, a message object of a CAN controller, a stream of
the switch, at an external port. -/
inductive TwpCar where
  | flx (buf : BitVec 7) | can (n : BitVec 2) (obj : BitVec 7) | eth (sid : BitVec 6) (port : Fin 3)
  deriving DecidableEq, Repr

/-- The best grandmaster that other nodes announce in a gPTP domain (R445), as IEEE 802.1AS compares them: priority1, clock quality
(class, accuracy, variance as one number), priority2, identity. -/
structure Announce where
  prio1 : Byte
  quality : Word
  prio2 : Byte
  id : BitVec 64
  deriving DecidableEq, Repr

/-- The commands and events of the module: the rows of the table of operations and events. -/
inductive Instr where
  -- Registers and the Hedge link (00_scope.md, 01_module_anatomy.md)
  | registerWrite (l : LaneId) (m : Master) (addr val : Word)
  | leg (l : LaneId) (hdr beat0 beat1 crc : Half)
  | legPeriodic (l : LaneId)
  | legTimeout (l : LaneId)
  | vref (l : LaneId) (flags hdr crc : Half)
  | vcell (l : LaneId) (cell : List Byte) (hdr crc : Half)
  | timeSend (l : LaneId)
  | time (l : LaneId) (hdr crc : Half)
  | timeLost (l : LaneId)
  | irq (l : LaneId) (hdr crc : Half)
  | irqRefresh (l : LaneId)
  | wr (l : LaneId) (off : Half) (data : Word) (hdr crc : Half)
  | rd (l : LaneId) (off : Half) (hdr crc : Half)
  | rsp (l : LaneId) (hdr crc : Half)
  | rspTimeout (l : LaneId)
  | xtalLoss (l : LaneId)
  | pllUnlock (l : LaneId)
  | clkmon (l : LaneId)
  | aonXtalLost (l : LaneId)
  | aonXtalClear (l : LaneId) (ran : Nat)
  | clkLevelReq (l : LaneId) (req : BitVec 2)
  | clkSwitch (l : LaneId)
  | timeSteer (l : LaneId)
  | timeDrift (l : LaneId)
  | solo (l : LaneId)
  | clkMtLoRead (l : LaneId) (m : Master)
  | hedgePowerOn (l : LaneId)
  | vbatLow (l : LaneId)
  | laneReset (l : LaneId) (src : RstSrc)
  | sysRstreq (l : LaneId) (val : Word)
  | resetRelease (l : LaneId) (src : RstSrc)
  | crystalValid (l : LaneId)
  | hedgeLinkTrained (l : LaneId) (up : Bool)
  | kernelRelease (l : LaneId) (imageOk : Bool) (app : List PmpEntry)
  | srst (l : LaneId) (b : Blk) (n : Nat)
  | evqClr (l : LaneId) (b : Blk) (n : Nat)
  | evqRead (l : LaneId) (m : Master) (b : Blk) (n : Nat) (e : Fin 4)
  | lbTokenExpire (l : LaneId) (b : Blk) (n : Nat)
  | claim (l : LaneId) (ctx : Fin 3) (also : Option (Fin 3))
  | complete (l : LaneId) (ctx : Fin 3) (src : Nat)
  | mirrorStale (l : LaneId) (peer : LaneId)
  -- Three lanes, one authority (02)
  | linkCycle (l : LaneId) (link : Fin 2)
  | vote (l : LaneId) (link : Fin 2) (ns : Fin 5) (cell : List Byte)
  | relayVote (l : LaneId) (link : Fin 2) (ns : Fin 5) (cell : List Byte)
  | heart (l : LaneId) (link : Fin 2) (ns : Fin 5) (cell : List Byte)
  | stream (l : LaneId) (link : Fin 2) (ns : Fin 5) (cell : List Byte) (item : StreamItem)
  | linkHeartLoss (l : LaneId) (link : Fin 3)
  | linkRetrain (l : LaneId) (link : Fin 3)
  | linkTrained (l : LaneId) (link : Fin 3) (delayNs : Byte)
  | cellBuild (l : LaneId)
  | cellSend (l : LaneId)
  | saddleDecision (l : LaneId)
  | xinhAssert (l : LaneId) (peer : LaneId)
  | xinhStopped (l : LaneId)
  | xinhRelease (l : LaneId)
  | xinhSingle (l : LaneId)
  | xinhReadback (l : LaneId) (peer : LaneId) (level : Bool)
  | sdlXinhStoppedClear (l : LaneId)
  | voteBoundary (l : LaneId)
  | mark10ms (l : LaneId) (writes : List CoreWrite)
  | graftHoldoff (l : LaneId)
  | graftPhaseDone (l : LaneId)
  | graftPhaseTimeout (l : LaneId)
  | formation (l : LaneId)
  | formAlone (l : LaneId)
  | fallowOverdue (l : LaneId)
  | fallowStepEnd (l : LaneId) (parts : Word) (found : List FallowFind) (pass : Bool)
  | fallowRestart (l : LaneId)
  | fallowAbort (l : LaneId)
  | extLinkCycle (l : LaneId)
  | extHeart (l : LaneId) (ns : Fin 5) (cell : List Byte) (hb : ExtBeat)
  | pairSwitchover (l : LaneId)
  -- The trio and the service pair (03)
  | coreMismatch (l : LaneId) (o0 o1 o2 : CoreOut)
  | handOverPoint (l : LaneId)
  | resyncDone (l : LaneId)
  | injection (l : LaneId) (out : InjOut)
  | svcInjection (l : LaneId) (caught : Bool)
  | svcMismatch (l : LaneId)
  | svcRestartDone (l : LaneId)
  | cstComplete (l : LaneId) (passed : BitVec 3)
  | cstTimeout (l : LaneId) (core : Fin 3)
  | trioSplitReq (l : LaneId)
  | trioSplitAll (l : LaneId)
  | trioSplitJoin (l : LaneId)
  | debugHalt (l : LaneId) (core : Fin 3)
  | debugResume (l : LaneId)
  | svcHalt (l : LaneId) (core : Fin 2)
  | svcResume (l : LaneId)
  -- Commanding the module with Trellis (04). A command row names a command of the lane's queue by its tag and NET.
  | alloc (l : LaneId) (m : Master) (ring : Fin 4)
  | post (l : LaneId) (m : Master) (ring : Fin 4) (slot : Nat)
  | allocLapse (l : LaneId) (ring : Fin 4) (slot : Nat)
  | intake (l : LaneId) (src : IntakeSrc)
  | cplHeadWrite (l : LaneId) (head : Byte)
  | replyPost (l : LaneId)
  | deferredStart (l : LaneId) (tag : Half) (net : Bool)
  | deferTimeout (l : LaneId) (tag : Half) (net : Bool)
  | commandArrival (l : LaneId) (tag : Half) (net : Bool) (value : Word) (ok : Bool)
  | commandTimeout (l : LaneId) (tag : Half) (net : Bool)
  | ident (l : LaneId) (tag : Half) (net : Bool)
  | status (l : LaneId) (tag : Half) (net : Bool)
  | lifecycle (l : LaneId) (tag : Half) (net : Bool)
  | steerAngle (l : LaneId) (tag : Half) (net : Bool)
  | steerTorque (l : LaneId) (tag : Half) (net : Bool)
  | clampForce (l : LaneId) (tag : Half) (net : Bool)
  | clampRelease (l : LaneId) (tag : Half) (net : Bool)
  | hold (l : LaneId) (tag : Half) (net : Bool)
  | bridgeEnable (l : LaneId) (tag : Half) (net : Bool)
  | bridgeDisable (l : LaneId) (tag : Half) (net : Bool)
  | ascBrake (l : LaneId) (tag : Half) (net : Bool)
  | cnvSelfcal (l : LaneId) (tag : Half) (net : Bool)
  | angleZero (l : LaneId) (tag : Half) (net : Bool)
  | caliperKisspoint (l : LaneId) (tag : Half) (net : Bool)
  | encoderAlign (l : LaneId) (tag : Half) (net : Bool)
  | weedSlice (l : LaneId) (tag : Half) (net : Bool)
  | fallowRequest (l : LaneId) (tag : Half) (net : Bool)
  | offstateDiag (l : LaneId) (tag : Half) (net : Bool) (vmMv : Nat)
  | icvRefcheck (l : LaneId) (tag : Half) (net : Bool)
  | powerVote (l : LaneId) (tag : Half) (net : Bool)
  | powerUnvote (l : LaneId) (tag : Half) (net : Bool)
  | sleepQuery (l : LaneId) (tag : Half) (net : Bool)
  | cfgWrite (l : LaneId) (tag : Half) (net : Bool)
  | cfgRead (l : LaneId) (tag : Half) (net : Bool)
  | sealConfirm (l : LaneId) (tag : Half) (net : Bool)
  | sealRead (l : LaneId) (tag : Half) (net : Bool)
  | almRead (l : LaneId) (tag : Half) (net : Bool)
  | almMark (l : LaneId) (tag : Half) (net : Bool)
  | laneStatus (l : LaneId) (tag : Half) (net : Bool)
  | graft (l : LaneId) (tag : Half) (net : Bool)
  | prune (l : LaneId) (tag : Half) (net : Bool)
  | trioSplit (l : LaneId) (tag : Half) (net : Bool)
  | trioJoin (l : LaneId) (tag : Half) (net : Bool)
  -- Loop engines and Miokin loop code (05). A Miokin row: engine n issues that instruction with those operands.
  | overrun (l : LaneId) (n : Fin 4)
  | resel (l : LaneId) (n : Fin 4) (m : Fin 8)
  | wbufWrite (l : LaneId) (n : Fin 4) (addr : BitVec 12) (val : Half)
  | wbufDrain (l : LaneId) (n : Fin 4)
  | ld (l : LaneId) (n : Fin 4) (a : BitVec 2) (ea : Ea)
  | st (l : LaneId) (n : Fin 4) (a : BitVec 2) (ea : Ea)
  | add (l : LaneId) (n : Fin 4) (a : BitVec 2) (ea : Ea)
  | sub (l : LaneId) (n : Fin 4) (a : BitVec 2) (ea : Ea)
  | ldk (l : LaneId) (n : Fin 4) (ea : Ea)
  | mpy (l : LaneId) (n : Fin 4) (a : BitVec 2) (ea : Ea)
  | mac (l : LaneId) (n : Fin 4) (a : BitVec 2) (ea : Ea)
  | msu (l : LaneId) (n : Fin 4) (a : BitVec 2) (ea : Ea)
  | cmp (l : LaneId) (n : Fin 4) (a : BitVec 2) (ea : Ea)
  | lim (l : LaneId) (n : Fin 4) (a : BitVec 2) (ea : Ea)
  | ldx (l : LaneId) (n : Fin 4) (x : BitVec 3) (addr : BitVec 12)
  | stx (l : LaneId) (n : Fin 4) (x : BitVec 3) (addr : BitVec 12)
  | lut (l : LaneId) (n : Fin 4) (a : BitVec 2) (ea : Ea)
  | divA (l : LaneId) (n : Fin 4) (a : BitVec 2) (ea : Ea)
  | mpyp (l : LaneId) (n : Fin 4) (a : BitVec 2) (p q : PEa)
  | macp (l : LaneId) (n : Fin 4) (a : BitVec 2) (p q : PEa)
  | msbp (l : LaneId) (n : Fin 4) (a : BitVec 2) (p q : PEa)
  | movA (l : LaneId) (n : Fin 4) (a b : BitVec 2)
  | adda (l : LaneId) (n : Fin 4) (a b : BitVec 2)
  | suba (l : LaneId) (n : Fin 4) (a b : BitVec 2)
  | neg (l : LaneId) (n : Fin 4) (a : BitVec 2)
  | absA (l : LaneId) (n : Fin 4) (a : BitVec 2)
  | clr (l : LaneId) (n : Fin 4) (a : BitVec 2)
  | sha (l : LaneId) (n : Fin 4) (a : BitVec 2) (k : BitVec 6)
  | sat (l : LaneId) (n : Fin 4) (a : BitVec 2)
  | maxA (l : LaneId) (n : Fin 4) (a b : BitVec 2)
  | minA (l : LaneId) (n : Fin 4) (a b : BitVec 2)
  | mulk (l : LaneId) (n : Fin 4) (a b : BitVec 2)
  | cmpa (l : LaneId) (n : Fin 4) (a b : BitVec 2)
  | movk (l : LaneId) (n : Fin 4) (a : BitVec 2)
  | ldi (l : LaneId) (n : Fin 4) (a : BitVec 2) (imm : Half)
  | addi (l : LaneId) (n : Fin 4) (a : BitVec 2) (imm : Half)
  | lki (l : LaneId) (n : Fin 4) (imm : Half)
  | lxi (l : LaneId) (n : Fin 4) (x : BitVec 3) (imm : BitVec 12)
  | axi (l : LaneId) (n : Fin 4) (x : BitVec 3) (imm : BitVec 12)
  | rep (l : LaneId) (n : Fin 4) (imm : BitVec 8)
  | get (l : LaneId) (n : Fin 4) (a : BitVec 2) (item : BitVec 4)
  | outP (l : LaneId) (n : Fin 4) (a : BitVec 2) (port : BitVec 3) (share : Bool)
  | jmp (l : LaneId) (n : Fin 4) (cond : BitVec 4) (target : BitVec 12)
  | call (l : LaneId) (n : Fin 4) (target : BitVec 12)
  | ret (l : LaneId) (n : Fin 4)
  | endAct (l : LaneId) (n : Fin 4)
  | nop (l : LaneId) (n : Fin 4)
  | driveFrame (l : LaneId) (k : Fin 4) (iu iv iw vm chk : BitVec 12)
  | decision (l : LaneId) (k : Fin 4)
  | sampleLost (l : LaneId) (k : Fin 4)
  | isum (l : LaneId) (k : Fin 4)
  | magnetised (l : LaneId) (k : Fin 4)
  | sixEnter (l : LaneId) (k : Fin 4)
  | takeover (l : LaneId) (k : Fin 4)
  | rearm (l : LaneId) (k : Fin 4)
  | rearmRefused (l : LaneId) (k : Fin 4)
  | obsLost (l : LaneId) (k : Fin 4)
  | catchWindow (l : LaneId) (k : Fin 4)
  | catchDone (l : LaneId) (k : Fin 4)
  | catchFail (l : LaneId) (k : Fin 4)
  | prechargeTimeout (l : LaneId) (k : Fin 4)
  | magnetiseTimeout (l : LaneId) (k : Fin 4)
  | rampdownTimeout (l : LaneId) (k : Fin 4)
  | noregClear (l : LaneId) (k : Fin 4)
  | clim (l : LaneId) (k : Fin 4)
  | swcntRead (l : LaneId) (m : Master) (k : Fin 4)
  -- Gate drive and power-stage protection (07)
  | uvloHs (l : LaneId) (leg : Fin 12)
  | uvloLs (l : LaneId) (b : Fin 4)
  | uvloCp (l : LaneId)
  | uvloRelease (l : LaneId) (supply : Fin 17)
  | grdy (l : LaneId) (b : Fin 4)
  | offCmd (l : LaneId) (b : Fin 4)
  | deadTime (l : LaneId)
  | dtFuse (l : LaneId) (m : Master) (val : Word) (vbatMv : Nat)
  | dtFuseDone (l : LaneId) (readback : BitVec 2)
  | ilkRelease (l : LaneId) (mask : BitVec 4)
  | scDetect (l : LaneId) (sw : Fin 24) (drainSource : Bool)
  | scTrip (l : LaneId) (b : Fin 4)
  | scHoldEnd (l : LaneId) (b : Fin 4)
  | latchRelease (l : LaneId) (mask : BitVec 4)
  | lstopClr (l : LaneId)
  | ov1 (l : LaneId)
  | vmBelowOv1 (l : LaneId)
  | brkOff (l : LaneId)
  | chopFault (l : LaneId)
  | ov2 (l : LaneId)
  | hwAsc (l : LaneId)
  | hwAscEnd (l : LaneId)
  | regenerationChange (l : LaneId) (b : Fin 4) (regen : Bool)
  | ov3 (l : LaneId)
  | ov3Clear (l : LaneId)
  | chopStuck (l : LaneId)
  | vmUv (l : LaneId)
  | vmuvClear (l : LaneId)
  | odiagStart (l : LaneId) (bridges : BitVec 4) (vmMv : Nat)
  | odiagStepEnd (l : LaneId) (found : Bool) (vmMv : Nat)
  | chopTest (l : LaneId) (vmMv : Nat)
  | chopTestEnd (l : LaneId) (pass : Bool)
  | sopTest (l : LaneId) (sw : Fin 25)
  | sopTestEnd (l : LaneId) (pass : Bool)
  | sopTestDue (l : LaneId) (sw : Fin 25)
  | stoPin (l : LaneId)
  | stoRelease (l : LaneId)
  | aliveToggle (l : LaneId)
  | aliveKick (l : LaneId) (key : Half)
  | kickLapse (l : LaneId)
  | chargePumpStop (l : LaneId)
  | sequenceTrigger (l : LaneId) (n : Fin 8) (inj : Bool)
  | rseqGo (l : LaneId) (n : Fin 8)
  | iseqGo (l : LaneId) (n : Fin 8)
  | sequenceEnable (l : LaneId) (n : Fin 8) (inj en : Bool)
  | entryStart (l : LaneId) (n : Fin 8) (half : Bool)
  | conversionEnd (l : LaneId) (n : Fin 8) (code : Int)
  | resRead (l : LaneId) (m : Master) (n : Fin 8) (inj : Bool) (i : Fin 16)
  | calGo (l : LaneId) (n : Fin 8)
  | calDone (l : LaneId) (n : Fin 8) (m : CalMeas)
  | icvWindowEnd (l : LaneId) (counts : List Int) (ovl : Byte)
  | crossCheck (l : LaneId)
  | suspectFallback (l : LaneId) (n : Fin 8)
  | suspectCheckDone (l : LaneId) (n : Fin 8)
  | refchkGo (l : LaneId)
  | refcheckStart (l : LaneId)
  | refcheckEnd (l : LaneId) (meas : List RefMeas)
  | posChannelEnable (l : LaneId) (c : Fin 10) (en : Bool)
  | quadEdge (l : LaneId) (hedge : Bool) (n : Fin 4) (a b : Bool)
  | indexEvent (l : LaneId) (n : Fin 4) (rising : Bool)
  | hallStep (l : LaneId) (hedge : Bool) (n : Fin 4) (uvw : BitVec 3)
  | rpeak (l : LaneId) (r : Fin 2)
  | resSamplePair (l : LaneId) (r : Fin 2)
  | resLos (l : LaneId) (r : Fin 2)
  | resTrackStep (l : LaneId) (r : Fin 2)
  | sentFrame (l : LaneId) (hedge : Bool) (n : Fin 4) (f : SentIn)
  | sentTimeout (l : LaneId) (n : Fin 4)
  | sentTrigger (l : LaneId) (n : Fin 4)
  | probeEdge (l : LaneId) (p : Fin 2) (rising : Bool)
  | prbValRead (l : LaneId) (m : Master) (p : Fin 2)
  | prbTRead (l : LaneId) (m : Master) (p : Fin 2)
  | qValRead (l : LaneId) (m : Master) (q : Fin 14)
  | cmpTgtWrite (l : LaneId) (q : Fin 10) (u : Fin 2) (ctl : Bool) (val : Word)
  | speedUpdate (l : LaneId)
  | speedZero (l : LaneId) (n : Fin 4)
  -- Safety functions and the Seal (10). `fn`: 0 SLA, 1 SLR, 2 SDI; on the Hedge 2 SDI of ENC_0, 3 SDI of ENC_1. Actuators count from 0.
  | violationConfirm (l : LaneId) (fn : Fin 3) (act : Fin 4)
  | safSto (l : LaneId) (act : Fin 4)
  | hsfStop (l : LaneId) (fn : Fin 4)
  | hsfStoReq (l : LaneId) (req : BitVec 4)
  | hsfStoRel (l : LaneId) (req rel : BitVec 4)
  | slrLimitChange (l : LaneId) (hedge : Bool)
  | l1Late (l : LaneId)
  | hunavail (l : LaneId) (inp : Fin 3)
  | sbhCheckEnd (l : LaneId) (act : Fin 4)
  | sealChk (l : LaneId)
  | sealLock (l : LaneId) (key : Half)
  | hsealChk (l : LaneId)
  | hsealLock (l : LaneId)
  | sealDone (l : LaneId) (hedge : Bool)
  | sealRecheck (l : LaneId) (hedge : Bool)
  -- Testing in service and handling faults (11)
  | sliceSchedule (l : LaneId)
  | sliceGo (l : LaneId) (cls idx : BitVec 4)
  | sliceStart (l : LaneId)
  | sliceEnd (l : LaneId) (pass : Bool)
  | sliceAbort (l : LaneId) (odNotRun : Bool)
  | scrubPass (l : LaneId)
  | scrubPassEnd (l : LaneId) (found : List ScrubFind)
  | remapDone (l : LaneId)
  | nvmSpared (l : LaneId)
  | decoderTest (l : LaneId) (bad : Option DecMem)
  -- CAN controllers (12). A lock lapse of controller 4 is one of FLX (R432).
  | canRxFrame (l : LaneId) (n : Fin 4) (f : CanFrame) (err : BitVec 3)
  | objLockRead (l : LaneId) (n : Fin 4) (m : Fin 128) (by_ : Master)
  | objUnlockRead (l : LaneId) (n : Fin 4) (m : Fin 128) (by_ : Master)
  | lockLapse (l : LaneId) (n : Fin 5) (m : Fin 128)
  | txrq (l : LaneId) (n : Fin 4) (k : Fin 4) (mask : Word)
  | txcan (l : LaneId) (n : Fin 4) (k : Fin 4) (mask : Word)
  | arbitration (l : LaneId) (n : Fin 4) (memErr : Bool)
  | canTxEnd (l : LaneId) (n : Fin 4) (res : CanTxRes) (ts : Word) (tdcv : Nat)
  | recover (l : LaneId) (n : Fin 4)
  | busOffRecovery (l : LaneId) (n : Fin 4)
  | canWakeEdge (l : LaneId) (n : Fin 4)
  | canWakeFrame (l : LaneId) (n : Fin 4) (w : WakeIn)
  | canEnable (l : LaneId) (n : Fin 4) (en : Bool)
  | canIntegration (l : LaneId) (n : Fin 4)
  | canVoteLapse (l : LaneId) (n : Fin 4)
  -- Time-triggered communication on FlexRay (13)
  | listenTimeout (l : LaneId)
  | integration (l : LaneId) (cycle : BitVec 6)
  | cycleStart (l : LaneId) (syncA syncB : Nat)
  | cpi (l : LaneId) (k : Fin 4)
  | flxRxFrame (l : LaneId) (f : FlxFrame)
  | flxLockRead (l : LaneId) (m : Fin 128) (by_ : Master)
  | flxUnlockRead (l : LaneId) (m : Fin 128) (by_ : Master)
  | flxTxrq (l : LaneId) (k : Fin 4) (mask : Word)
  | payloadTake (l : LaneId) (m : Fin 128) (minislot : Nat) (memErr : Bool)
  | clockCorrection (l : LaneId) (ofs rate : Int) (syncA syncB : Nat) (missing : Bool)
  | waketx (l : LaneId)
  | flxWake (l : LaneId)
  | flxEnable (l : LaneId) (en : Bool)
  -- Ethernet and twin-path frames (14)
  | twpTxreq (l : LaneId) (entry : Fin 64) (payload : List Byte)
  | copy (l : LaneId) (car : TwpCar) (frame : List Byte)
  | comparisonEnd (l : LaneId) (i : Fin 64)
  | rxqPop (l : LaneId)
  | pairSilent (l : LaneId)
  | sync (l : LaneId) (p : Fin 3) (t : BitVec 64)
  | qbvSwap (l : LaneId) (p : Fin 3)
  | gclTakeover (l : LaneId) (p : Fin 3)
  | plcaLost (l : LaneId)
  | plcaBeacon (l : LaneId)
  | t1sWake (l : LaneId)
  | didEnable (l : LaneId) (i : Fin 64) (en : Bool)
  | portLinkChange (l : LaneId) (p : Fin 3) (up : Bool)
  | ethVoteLapse (l : LaneId)
  | gptpAnnounce (l : LaneId) (domV : Bool) (best : Option Announce)
  | gateControlEvent (l : LaneId) (p : Fin 3)
  -- Power domains, votes and waking (15)
  | criticalPathMargin (l : LaneId)
  | pwrVote (l : LaneId) (m : Master) (val : Word)
  | domainDrop (l : LaneId) (d : Fin 21)
  | domainStepReady (l : LaneId) (d : Fin 21) (flips : List (Word × Byte)) (chain : Bool)
  | stepFail (l : LaneId) (d : Fin 21)
  | sleepReq (l : LaneId) (wake : Option (Fin 8))
  | wakePin (l : LaneId) (high : Bool)
  | bemfSample (l : LaneId) (mv : List Nat)
  | preqExchange (l : LaneId)
  | preqRead (l : LaneId) (echo : Word)
  | preqTimeout (l : LaneId)
  | setRail (l : LaneId) (rail : BitVec 4) (value : BitVec 12)
  | preqEnable (l : LaneId) (rail : BitVec 4) (value : BitVec 12)
  | preqDisable (l : LaneId) (rail : BitVec 4) (value : BitVec 12)
  | preqStatus (l : LaneId) (rail : BitVec 4) (value : BitVec 12)
  | preqSleep (l : LaneId) (rail : BitVec 4) (value : BitVec 12)
  | wakeCfg (l : LaneId) (rail : BitVec 4) (value : BitVec 12)
  | pmicStatusPoll (l : LaneId)
  | retentionSigned (l : LaneId) (d : Fin 21)
  | coldForm (l : LaneId)
  -- Temperature (16). Temperatures of the digital sensors in 1/16 degree.
  | tlSample (l : LaneId) (t0 t1 : Int)
  | furrowRound (l : LaneId)
  | furrowSlot (l : LaneId) (raw : Int)
  | roundEnd (l : LaneId)
  | dieSd (l : LaneId) (hot : BitVec 2)
  | thsRestart (l : LaneId) (warm : BitVec 2)
  | tdFuse (l : LaneId) (m : Master) (val : Word) (vbatMv : Nat)
  | tdFuseDone (l : LaneId) (kind : BitVec 2) (val : Word)
  -- The Almanac and the life cycle (17), and the digest recomputation of R87
  | almanacAlarm (l : LaneId)
  | snap (l : LaneId)
  | almWrite (l : LaneId)
  | almanacWriteDone (l : LaneId) (ok : Bool)
  | calset (l : LaneId) (val : Word)
  | lcConfirmTimeout (l : LaneId)
  | calendarSecond (l : LaneId)
  | digestRecheckDone (l : LaneId) (ok : Bool)
  deriving DecidableEq, Repr

end Sys2Proof
end

