-- ==== Sys2Proof/Decode.lean ====
section
/-!
DEFINITION. Decode.lean: commands spelled by a word. The block decodes no words: no row of the table gives its operands bits. Miokin
loop code, the words of the loop engines' own programs, is decoded in Machine/Miokin.lean.
-/

namespace Sys2Proof

/-- The command that a word of `nbits` bits spells by the table: none, since the table gives no row bits. -/
def decodeTableWord (_nbits _w : Nat) : Option Instr := none

end Sys2Proof
end

