-- ==== Sys2Proof/Config.lean ====
section
/-!
DEFINITION. Config.lean: what the spec leaves open. A free value is an opaque constant applied to the state's counter of drawn
values (or to the operands it depends on): nothing can be proved of which value it is.
-/

namespace Sys2Proof.Config

/-- Free choice among what the spec allows: used modulo the number of choices (log 4). -/
opaque freeNat : Nat → Nat

/-- Free 32-bit value (log 4). -/
opaque freeWord : Nat → Word

/-- Free integer (log 17): what the estimators of R238 to R240 deliver at a decision, used inside the range of its format. -/
opaque freeInt : Nat → Nat → Int

/-- Whether an inexact quotient is rounded up, where the spec states no rounding (log 17). -/
opaque roundUp : Int → Int → Bool

/-- A quotient with divisor 0, where a formula meets one (log 17). -/
opaque divZero : Int → Int

/-- Angle of a vector that lies on no axis, as a fraction of 2^32 of a turn (log 17). -/
opaque atan32 : Int → Int → Nat

/-- Sine of a fraction of a turn that is no quarter, in Q3.21 (log 17). -/
opaque sinTurn : Nat → Nat → Int

/-- The tracking loop of a resolver after an accepted pair: angle and speed from the tracked angle, the tracking speed, the
measured angle and the time since the last pair (R328, log 17). -/
opaque resTrack : Nat → Int → Nat → Nat → Nat × Int

/-- The clamp force the kernel measures: lane, instant, actuator, in newtons (log 18). -/
opaque forceAt : Nat → Nat → Nat → Word

/-- Whether the own position, the drive engine's estimate and the peer's position agree in a disagreement resolution, for which
the spec states no tolerance (log 19). -/
opaque posAgree : Int → Int → Int → Bool

/-- HK's conversion of a slot's count (R498, R500), whose formula the spec does not state: slot, kind, NF and B of the input,
RAW (log 17). -/
opaque hkConv : Nat → Nat → Nat → Nat → Int → Int

/-- The event code SYS gives ID_MISMATCH, which no table states (log 7). -/
opaque idMismatchCode : BitVec 8

/-- The system identity of a lane's switch in gPTP and the clock quality it announces (class, accuracy, variance as one number), which
the spec does not give (R445, log 147). -/
opaque clockId : Nat → BitVec 64
opaque clockQuality : Word

/-- A port's admin gate control list as its tables hold it, whose layout in ETH's memory the spec does not state (R448, log 148): base time
of its first cycle and cycle length in ticks of pair time, and the entries: interval in ticks, gates open. -/
opaque gateList : Nat → List (Nat × Byte) → Nat × Nat × List (Nat × Byte)

/-- The 256-bit module key, fused and not readable (R526), as the number its bytes spell, most significant first. -/
opaque moduleKey : BitVec 256

/-- CDIG as a function of the configuration words it covers, by address (R115): its definition is not stated (log 17). -/
opaque cdigOf : List (Nat × Word) → Word

/-- The architectural digest of a core as its reset leaves it (R131): the spec lists neither the implemented CSRs nor their reset values
(log 132). -/
opaque coreDigest : Word

/-- The torque of an actuator's full envelope, summed over its winding sets, in mN·m (R106, Table 2.12): the spec gives no number
(log 87). -/
opaque fullTorque : Nat → Nat

/-- The clamp force in newtons that a torque of an actuator makes, where the envelope of torque limits a force (log 87). -/
opaque forceOf : Nat → Nat → Nat

/-- The raw value, in the unit of a loop program's feedback, of a force or torque set-point: actuator, unit, set-point (log 88). -/
opaque setRaw : Nat → Nat → Int → Int

/-- The memory word of the replicated region that holds an item of the Trellis queue state: its layout is not stated (log 88). -/
opaque queueWord : Nat → Nat

end Sys2Proof.Config
end

