-- ==== Sys2Proof/Machine/Events.lean ====
section
/-!
DEFINITION. Machine/Events.lean: every event the blocks record, with its code and class, one line each of the chapters' event
code tables, the codes common to every block (Table 1.11) and those that R27 to R40 and R528 give in their text.
-/

namespace Sys2Proof.Machine

/-- The four classes of events (the EVQ CLASS field; R376). -/
inductive Cls where
  | info | transient | permanent | safety
  deriving DecidableEq, Repr

/-- The number CLASS [9:8] shows. -/
def Cls.num : Cls → Nat
  | .info => 0
  | .transient => 1
  | .permanent => 2
  | .safety => 3

/-- An event: the block kind that records it, its code and its class. -/
structure Event where
  blk : Blk
  code : Nat
  cls : Cls
  deriving DecidableEq, Repr

/-! Codes common to every block (Table 1.11). -/
def Ev.HDR_PARITY (b : Blk) : Event := ⟨b, 0xF0, .transient⟩
def Ev.SRST_DONE (b : Blk) : Event := ⟨b, 0xF1, .info⟩
def Ev.SRST_REFUSED (b : Blk) : Event := ⟨b, 0xF2, .info⟩
def Ev.LB_PROMOTED (b : Blk) : Event := ⟨b, 0xF3, .permanent⟩
def Ev.BUS_ERR (b : Blk) : Event := ⟨b, 0xF4, .info⟩

/-! Table 2.14. -/
def Ev.OZL_RS_CORR : Event := ⟨.ozl, 0x01, .info⟩
def Ev.OZL_RS_FAIL : Event := ⟨.ozl, 0x02, .transient⟩
def Ev.OZL_GUARD_MISS : Event := ⟨.ozl, 0x03, .transient⟩
def Ev.OZL_LINK_DOWN : Event := ⟨.ozl, 0x04, .permanent⟩
def Ev.OZL_GRAFT_FAIL : Event := ⟨.ozl, 0x05, .permanent⟩
def Ev.OZL_FALLOW_OVERDUE : Event := ⟨.ozl, 0x06, .info⟩
def Ev.OZL_LATENT_DIVERGE : Event := ⟨.ozl, 0x07, .transient⟩
def Ev.OZL_SPLIT_L1 : Event := ⟨.ozl, 0x08, .safety⟩
def Ev.OZL_PAIR_CFG : Event := ⟨.ozl, 0x09, .info⟩
/-! Table 2.15. -/
def Ev.SDL_MINORITY : Event := ⟨.sdl, 0x01, .transient⟩
def Ev.SDL_LANE_REMOVED : Event := ⟨.sdl, 0x02, .safety⟩
def Ev.SDL_XINH_ASSERT : Event := ⟨.sdl, 0x03, .safety⟩
def Ev.SDL_XINH_STOPPED : Event := ⟨.sdl, 0x04, .safety⟩
def Ev.SDL_VOTE_FAIL : Event := ⟨.sdl, 0x05, .safety⟩
def Ev.SDL_FREEZE : Event := ⟨.sdl, 0x06, .transient⟩
def Ev.SDL_CELL_LATE : Event := ⟨.sdl, 0x07, .transient⟩
def Ev.SDL_XINH_SINGLE : Event := ⟨.sdl, 0x08, .permanent⟩
def Ev.SDL_XINH_READBACK : Event := ⟨.sdl, 0x09, .permanent⟩
/-! Table 3.9. -/
def Ev.TRIO_CORE_MISMATCH : Event := ⟨.trio, 0x01, .transient⟩
def Ev.TRIO_RESYNC_DONE : Event := ⟨.trio, 0x02, .info⟩
def Ev.TRIO_CORE_PRUNED : Event := ⟨.trio, 0x03, .permanent⟩
def Ev.TRIO_NO_MAJORITY : Event := ⟨.trio, 0x04, .safety⟩
def Ev.TRIO_CHK_FAULT : Event := ⟨.trio, 0x05, .safety⟩
def Ev.TRIO_DIGEST_ODD : Event := ⟨.trio, 0x06, .transient⟩
def Ev.TRIO_SPLIT_DONE : Event := ⟨.trio, 0x07, .info⟩
def Ev.TRIO_JOIN_DONE : Event := ⟨.trio, 0x08, .info⟩
def Ev.TRIO_DBG_BROKEN : Event := ⟨.trio, 0x09, .safety⟩
def Ev.TRIO_SVC_MISMATCH : Event := ⟨.trio, 0x0A, .transient⟩
def Ev.TRIO_SVC_PRUNED : Event := ⟨.trio, 0x0B, .permanent⟩
def Ev.TRIO_INJ_DEFERRED : Event := ⟨.trio, 0x0C, .info⟩
def Ev.TRIO_SVC_CHK : Event := ⟨.trio, 0x0D, .permanent⟩
def Ev.TRIO_CST_FAIL : Event := ⟨.trio, 0x0E, .permanent⟩
/-! Table 4.12. -/
def Ev.CMDQ_INTAKE_REJECT : Event := ⟨.cmdq, 0x01, .info⟩
def Ev.CMDQ_ALLOC_LAPSE : Event := ⟨.cmdq, 0x02, .info⟩
def Ev.CMDQ_POST_ERR : Event := ⟨.cmdq, 0x03, .info⟩
def Ev.CMDQ_CPL_DROP : Event := ⟨.cmdq, 0x04, .info⟩
def Ev.CMDQ_NET_DUP : Event := ⟨.cmdq, 0x05, .info⟩
def Ev.CMDQ_LATE_PKT : Event := ⟨.cmdq, 0x06, .info⟩
def Ev.CMDQ_DEFER_TIMEOUT : Event := ⟨.cmdq, 0x07, .info⟩
/-! Table 5.11. -/
def Ev.LOOP_PRG_START : Event := ⟨.loop, 0x01, .info⟩
def Ev.LOOP_SRC_SWITCH : Event := ⟨.loop, 0x02, .info⟩
def Ev.LOOP_NO_SOURCE : Event := ⟨.loop, 0x03, .safety⟩
def Ev.LOOP_OVERRUN : Event := ⟨.loop, 0x04, .transient⟩
def Ev.LOOP_PRG_FAULT : Event := ⟨.loop, 0x05, .transient⟩
def Ev.LOOP_CFG_ERR : Event := ⟨.loop, 0x06, .info⟩
def Ev.LOOP_ROUTE_CONFLICT : Event := ⟨.loop, 0x07, .info⟩
def Ev.LOOP_SRC_RESEL : Event := ⟨.loop, 0x08, .info⟩
def Ev.LOOP_FB_STALE : Event := ⟨.loop, 0x09, .info⟩
def Ev.LOOP_FB_FROZEN : Event := ⟨.loop, 0x0A, .info⟩
def Ev.LOOP_WBUF_STALL : Event := ⟨.loop, 0x0B, .info⟩
/-! Table 6.7. -/
def Ev.DRV_TAKEOVER : Event := ⟨.drv, 0x01, .info⟩
def Ev.DRV_OBS_LOST : Event := ⟨.drv, 0x02, .info⟩
def Ev.DRV_SENS_DIFF : Event := ⟨.drv, 0x03, .transient⟩
def Ev.DRV_CATCH_START : Event := ⟨.drv, 0x04, .info⟩
def Ev.DRV_CATCH_DONE : Event := ⟨.drv, 0x05, .info⟩
def Ev.DRV_REARM_DONE : Event := ⟨.drv, 0x06, .info⟩
def Ev.DRV_REARM_REFUSED : Event := ⟨.drv, 0x07, .info⟩
def Ev.DRV_NOREGEN : Event := ⟨.drv, 0x08, .info⟩
def Ev.DRV_SIX_ENTER : Event := ⟨.drv, 0x09, .info⟩
def Ev.DRV_CFG_ERR : Event := ⟨.drv, 0x0A, .info⟩
def Ev.DRV_HEDGE_OVR : Event := ⟨.drv, 0x0B, .info⟩
def Ev.DRV_CLIM : Event := ⟨.drv, 0x0C, .info⟩
def Ev.DRV_SAMPLE_LATE : Event := ⟨.drv, 0x10, .transient⟩
def Ev.DRV_ISUM : Event := ⟨.drv, 0x11, .transient⟩
def Ev.DRV_POL_AMBIG : Event := ⟨.drv, 0x12, .transient⟩
def Ev.DRV_MAG_FAIL : Event := ⟨.drv, 0x28, .permanent⟩
def Ev.DRV_SAMPLE_LOST : Event := ⟨.drv, 0x29, .permanent⟩
def Ev.DRV_CATCH_FAIL : Event := ⟨.drv, 0x2A, .permanent⟩
/-! Table 7.12. -/
def Ev.GD_INTERLOCK : Event := ⟨.gd, 0x01, .info⟩
def Ev.GD_ILK_STO : Event := ⟨.gd, 0x02, .safety⟩
def Ev.GD_LEG_IGNORED : Event := ⟨.gd, 0x03, .info⟩
def Ev.GD_UVLO_HS : Event := ⟨.gd, 0x04, .transient⟩
def Ev.GD_UVLO_LS : Event := ⟨.gd, 0x05, .transient⟩
def Ev.GD_UVLO_CP : Event := ⟨.gd, 0x06, .info⟩
def Ev.GD_SOP_FAIL : Event := ⟨.gd, 0x07, .permanent⟩
def Ev.GD_DIAG_OVERDUE : Event := ⟨.gd, 0x08, .info⟩
def Ev.GD_ALIVE_STOP : Event := ⟨.gd, 0x09, .info⟩
def Ev.GD_STO_PIN : Event := ⟨.gd, 0x0A, .info⟩
def Ev.GD_DT_FUSED : Event := ⟨.gd, 0x0B, .info⟩
def Ev.GD_DT_FUSE_ERR : Event := ⟨.gd, 0x0C, .permanent⟩
def Ev.GD_DT_LOCKED : Event := ⟨.gd, 0x0D, .info⟩
def Ev.GD_LANE_STOP : Event := ⟨.gd, 0x0E, .safety⟩
/-! Table 7.13. -/
def Ev.PROT_SC_TRIP : Event := ⟨.prot, 0x01, .transient⟩
def Ev.PROT_SC_MULTI : Event := ⟨.prot, 0x02, .permanent⟩
def Ev.PROT_OV1 : Event := ⟨.prot, 0x03, .info⟩
def Ev.PROT_OV2 : Event := ⟨.prot, 0x04, .info⟩
def Ev.PROT_OV3 : Event := ⟨.prot, 0x05, .safety⟩
def Ev.PROT_CHOP_FAULT : Event := ⟨.prot, 0x06, .permanent⟩
def Ev.PROT_CHOP_STUCK : Event := ⟨.prot, 0x07, .permanent⟩
def Ev.PROT_HW_ASC : Event := ⟨.prot, 0x08, .safety⟩
def Ev.PROT_VM_UV : Event := ⟨.prot, 0x09, .info⟩
def Ev.PROT_ODIAG_FAIL : Event := ⟨.prot, 0x0A, .permanent⟩
def Ev.PROT_LATCH_REFUSED : Event := ⟨.prot, 0x0B, .info⟩
def Ev.PROT_CHOP_PASS : Event := ⟨.prot, 0x0C, .info⟩
/-! Table 8.7. -/
def Ev.CNV_RMISS : Event := ⟨.cnv, 0x01, .info⟩
def Ev.CNV_IMISS : Event := ⟨.cnv, 0x02, .info⟩
def Ev.CNV_SEQ_CFG_ERR : Event := ⟨.cnv, 0x03, .info⟩
def Ev.CNV_CAL_DONE : Event := ⟨.cnv, 0x04, .info⟩
def Ev.CNV_CAL_REFUSED : Event := ⟨.cnv, 0x05, .info⟩
def Ev.CNV_CAL_FAIL : Event := ⟨.cnv, 0x06, .permanent⟩
def Ev.CNV_XCHK_FAIL : Event := ⟨.cnv, 0x07, .info⟩
def Ev.CNV_SUSPECT : Event := ⟨.cnv, 0x08, .info⟩
def Ev.CNV_SAR_REF_FAIL : Event := ⟨.cnv, 0x09, .permanent⟩
def Ev.CNV_XCHK_PATH : Event := ⟨.cnv, 0x0A, .permanent⟩
def Ev.CNV_COVER_START : Event := ⟨.cnv, 0x0B, .info⟩
/-! Table 8.8. -/
def Ev.ICV_OVL : Event := ⟨.icv, 0x01, .info⟩
def Ev.ICV_ICV_REF_FAIL : Event := ⟨.icv, 0x02, .permanent⟩
def Ev.ICV_STIM_ABORT : Event := ⟨.icv, 0x03, .info⟩
/-! Table 9.5. -/
def Ev.POS_ILLEGAL : Event := ⟨.pos, 0x01, .info⟩
def Ev.POS_IDX_CORR : Event := ⟨.pos, 0x02, .info⟩
def Ev.POS_IDX_ERR : Event := ⟨.pos, 0x03, .transient⟩
def Ev.POS_ABS_MISMATCH : Event := ⟨.pos, 0x04, .info⟩
def Ev.POS_ENC_FAULT : Event := ⟨.pos, 0x05, .permanent⟩
def Ev.POS_RES_AMP : Event := ⟨.pos, 0x06, .info⟩
def Ev.POS_RES_LOS : Event := ⟨.pos, 0x07, .transient⟩
def Ev.POS_RES_FAULT : Event := ⟨.pos, 0x08, .permanent⟩
def Ev.POS_SENT_CRC : Event := ⟨.pos, 0x09, .transient⟩
def Ev.POS_SENT_FRAME : Event := ⟨.pos, 0x0A, .transient⟩
def Ev.POS_SENT_TIMEOUT : Event := ⟨.pos, 0x0B, .transient⟩
def Ev.POS_SENT_FAULT : Event := ⟨.pos, 0x0C, .permanent⟩
def Ev.POS_RC_JUMP : Event := ⟨.pos, 0x0D, .info⟩
def Ev.POS_PRB_OVR : Event := ⟨.pos, 0x0E, .info⟩
def Ev.POS_HDEC_MISMATCH : Event := ⟨.pos, 0x0F, .transient⟩
def Ev.POS_CFG_ERR : Event := ⟨.pos, 0x10, .info⟩
/-! Table 10.6. -/
def Ev.SAF_SLA_VIOL : Event := ⟨.saf, 0x01, .safety⟩
def Ev.SAF_SLR_VIOL : Event := ⟨.saf, 0x02, .safety⟩
def Ev.SAF_SDI_VIOL : Event := ⟨.saf, 0x03, .safety⟩
def Ev.SAF_SAF_STO : Event := ⟨.saf, 0x04, .safety⟩
def Ev.SAF_SBH_PASS : Event := ⟨.saf, 0x05, .info⟩
def Ev.SAF_SBH_FAIL : Event := ⟨.saf, 0x06, .safety⟩
def Ev.SAF_SBH_CREEP : Event := ⟨.saf, 0x07, .safety⟩
def Ev.SAF_SAF_UNAVAIL : Event := ⟨.saf, 0x08, .safety⟩
def Ev.SAF_L1_LATE : Event := ⟨.saf, 0x09, .safety⟩
def Ev.SAF_SEAL_LOCKED : Event := ⟨.saf, 0x0A, .info⟩
def Ev.SAF_SEAL_MISMATCH : Event := ⟨.saf, 0x0B, .info⟩
def Ev.SAF_SEAL_LOST : Event := ⟨.saf, 0x0C, .safety⟩
/-! Table 10.7. -/
def Ev.HSF_HSLA : Event := ⟨.hsf, 0x01, .safety⟩
def Ev.HSF_HSLR : Event := ⟨.hsf, 0x02, .safety⟩
def Ev.HSF_HSDI : Event := ⟨.hsf, 0x03, .safety⟩
def Ev.HSF_HSTO_REQ : Event := ⟨.hsf, 0x04, .info⟩
def Ev.HSF_REL_REFUSED : Event := ⟨.hsf, 0x05, .info⟩
def Ev.HSF_HCREEP : Event := ⟨.hsf, 0x06, .info⟩
def Ev.HSF_HUNAVAIL : Event := ⟨.hsf, 0x07, .permanent⟩
def Ev.HSF_MIR_ERR : Event := ⟨.hsf, 0x08, .info⟩
def Ev.HSF_HSEAL_LOCKED : Event := ⟨.hsf, 0x09, .info⟩
def Ev.HSF_HSEAL_LOST : Event := ⟨.hsf, 0x0A, .safety⟩
def Ev.HSF_SEAL_MISMATCH : Event := ⟨.hsf, 0x0B, .info⟩
/-! Table 11.7. -/
def Ev.BIST_SLICE_PASS : Event := ⟨.bist, 0x01, .info⟩
def Ev.BIST_SLICE_FAIL : Event := ⟨.bist, 0x02, .permanent⟩
def Ev.BIST_SLICE_ABORT : Event := ⟨.bist, 0x03, .info⟩
def Ev.BIST_SLICE_REFUSED : Event := ⟨.bist, 0x04, .info⟩
def Ev.BIST_FALLOW_PASS : Event := ⟨.bist, 0x05, .info⟩
def Ev.BIST_FALLOW_FAIL : Event := ⟨.bist, 0x06, .permanent⟩
def Ev.BIST_FALLOW_LOWCOV : Event := ⟨.bist, 0x07, .info⟩
def Ev.BIST_ELEM_PRUNED : Event := ⟨.bist, 0x08, .info⟩
def Ev.BIST_ELEM_RETURNED : Event := ⟨.bist, 0x09, .info⟩
def Ev.BIST_NO_RETURN : Event := ⟨.bist, 0x0A, .info⟩
/-! Table 11.8. -/
def Ev.MSUP_CE : Event := ⟨.msup, 0x01, .info⟩
def Ev.MSUP_UE : Event := ⟨.msup, 0x02, .transient⟩
def Ev.MSUP_ADDR_ERR : Event := ⟨.msup, 0x03, .transient⟩
def Ev.MSUP_WEAK : Event := ⟨.msup, 0x04, .info⟩
def Ev.MSUP_BANK_PRUNED : Event := ⟨.msup, 0x05, .permanent⟩
def Ev.MSUP_REMAP_DONE : Event := ⟨.msup, 0x06, .info⟩
def Ev.MSUP_NO_SPARE : Event := ⟨.msup, 0x07, .permanent⟩
def Ev.MSUP_TCM_REPAIR : Event := ⟨.msup, 0x08, .info⟩
def Ev.MSUP_TCM_REPAIR_OUT : Event := ⟨.msup, 0x09, .permanent⟩
def Ev.MSUP_NVM_SPARED : Event := ⟨.msup, 0x0A, .info⟩
def Ev.MSUP_NVM_SPARE_OUT : Event := ⟨.msup, 0x0B, .permanent⟩
def Ev.MSUP_DEC_FAULT : Event := ⟨.msup, 0x0C, .permanent⟩
def Ev.MSUP_SCRUB_LATE : Event := ⟨.msup, 0x0D, .transient⟩
/-! Table 12.3. -/
def Ev.CAN_BUS_OFF : Event := ⟨.can, 0x01, .transient⟩
def Ev.CAN_ERR_PASSIVE : Event := ⟨.can, 0x02, .info⟩
def Ev.CAN_PROT_EXC : Event := ⟨.can, 0x03, .info⟩
def Ev.CAN_CANCEL_LATE : Event := ⟨.can, 0x04, .info⟩
def Ev.CAN_ID_COLLIDE : Event := ⟨.can, 0x05, .info⟩
def Ev.CAN_ID_COLLIDE_STICKY : Event := ⟨.can, 0x06, .info⟩
def Ev.CAN_MSGLST : Event := ⟨.can, 0x07, .info⟩
def Ev.CAN_HOLD_OVF : Event := ⟨.can, 0x08, .info⟩
def Ev.CAN_LOCK_LAPSE : Event := ⟨.can, 0x09, .info⟩
def Ev.CAN_OBJ_BUSY : Event := ⟨.can, 0x0A, .info⟩
def Ev.CAN_RX_TOOLONG : Event := ⟨.can, 0x0B, .info⟩
def Ev.CAN_CFG_ERR : Event := ⟨.can, 0x0C, .info⟩
def Ev.CAN_TDC_RANGE : Event := ⟨.can, 0x0D, .info⟩
def Ev.CAN_WAKE : Event := ⟨.can, 0x0E, .info⟩
def Ev.CAN_MEMERR : Event := ⟨.can, 0x0F, .transient⟩
/-! Table 13.5. -/
def Ev.FLX_SLOT_BOUNDARY : Event := ⟨.flx, 0x01, .info⟩
def Ev.FLX_CC_LIMIT : Event := ⟨.flx, 0x02, .transient⟩
def Ev.FLX_REINT : Event := ⟨.flx, 0x03, .transient⟩
def Ev.FLX_SYNTAX : Event := ⟨.flx, 0x04, .transient⟩
def Ev.FLX_CS_ABANDON : Event := ⟨.flx, 0x05, .info⟩
def Ev.FLX_CAUT_FAIL : Event := ⟨.flx, 0x06, .info⟩
def Ev.FLX_CH_DIFF : Event := ⟨.flx, 0x07, .info⟩
def Ev.FLX_LOCK_LAPSE : Event := ⟨.flx, 0x08, .info⟩
def Ev.FLX_OBJ_BUSY : Event := ⟨.flx, 0x09, .info⟩
def Ev.FLX_CFG_ERR : Event := ⟨.flx, 0x0A, .info⟩
def Ev.FLX_MEMERR : Event := ⟨.flx, 0x0B, .transient⟩
def Ev.FLX_WAKE : Event := ⟨.flx, 0x0C, .info⟩
/-! Table 14.5. -/
def Ev.ETH_LINK_DOWN : Event := ⟨.eth, 0x01, .transient⟩
def Ev.ETH_PLCA_LOST : Event := ⟨.eth, 0x02, .info⟩
def Ev.ETH_GM_CHANGE : Event := ⟨.eth, 0x03, .info⟩
def Ev.ETH_CFG_ERR : Event := ⟨.eth, 0x04, .info⟩
def Ev.ETH_MEMERR : Event := ⟨.eth, 0x05, .transient⟩
/-! Table 14.6. -/
def Ev.TWP_ACCEPT_DEGRADED : Event := ⟨.twp, 0x01, .info⟩
def Ev.TWP_COPY_DIFF : Event := ⟨.twp, 0x02, .info⟩
def Ev.TWP_LONE_DROP : Event := ⟨.twp, 0x03, .info⟩
def Ev.TWP_COPY_CRC : Event := ⟨.twp, 0x04, .info⟩
def Ev.TWP_COPY_BAD : Event := ⟨.twp, 0x05, .info⟩
def Ev.TWP_STALE : Event := ⟨.twp, 0x06, .info⟩
def Ev.TWP_SEQ_OLD : Event := ⟨.twp, 0x07, .info⟩
def Ev.TWP_QUEUE_OVF : Event := ⟨.twp, 0x08, .info⟩
def Ev.TWP_PAIR_SILENT : Event := ⟨.twp, 0x09, .info⟩
def Ev.TWP_CFG_ERR : Event := ⟨.twp, 0x0A, .info⟩
def Ev.TWP_MEMERR : Event := ⟨.twp, 0x0B, .transient⟩
/-! Table 15.10. -/
def Ev.PWR_DOM_REFUSED : Event := ⟨.pwr, 0x01, .info⟩
def Ev.PWR_DOM_ABORTED : Event := ⟨.pwr, 0x02, .info⟩
def Ev.PWR_SLEEP_REFUSED : Event := ⟨.pwr, 0x03, .info⟩
def Ev.PWR_SLEEP_ABORTED : Event := ⟨.pwr, 0x04, .info⟩
def Ev.PWR_WAKE : Event := ⟨.pwr, 0x05, .info⟩
def Ev.PWR_RET_LOST : Event := ⟨.pwr, 0x06, .transient⟩
def Ev.PWR_STEP_FAIL : Event := ⟨.pwr, 0x07, .permanent⟩
/-! Table 15.11. -/
def Ev.PREQ_PREQ_TIMEOUT : Event := ⟨.preq, 0x01, .transient⟩
def Ev.PREQ_PREQ_CRC : Event := ⟨.preq, 0x02, .transient⟩
def Ev.PREQ_PREQ_NAK : Event := ⟨.preq, 0x03, .info⟩
def Ev.PREQ_PMIC_FAULT : Event := ⟨.preq, 0x04, .permanent⟩
def Ev.PREQ_PMIC_RAIL : Event := ⟨.preq, 0x05, .permanent⟩
def Ev.PREQ_RAIL_REFUSED : Event := ⟨.preq, 0x06, .info⟩
/-! Table 16.4. -/
def Ev.HK_SENS_SUSPECT : Event := ⟨.hk, 0x01, .transient⟩
def Ev.HK_SENS_CLEAR : Event := ⟨.hk, 0x02, .info⟩
def Ev.HK_THROTTLE : Event := ⟨.hk, 0x03, .info⟩
def Ev.HK_LD_HOT : Event := ⟨.hk, 0x04, .info⟩
def Ev.HK_SUPPLY_RANGE : Event := ⟨.hk, 0x05, .info⟩
def Ev.HK_REF_DRIFT : Event := ⟨.hk, 0x06, .transient⟩
def Ev.HK_ROUND_HELD : Event := ⟨.hk, 0x07, .info⟩
def Ev.HK_NO_HEALTHY : Event := ⟨.hk, 0x08, .safety⟩
/-! Table 16.5. -/
def Ev.THS_DIE_SD : Event := ⟨.ths, 0x01, .safety⟩
def Ev.THS_TD_SD : Event := ⟨.ths, 0x02, .safety⟩
def Ev.THS_TD_OPEN : Event := ⟨.ths, 0x03, .safety⟩
def Ev.THS_THS_REF : Event := ⟨.ths, 0x04, .safety⟩
def Ev.THS_TD_FUSED : Event := ⟨.ths, 0x05, .info⟩
def Ev.THS_TD_FUSE_ERR : Event := ⟨.ths, 0x06, .permanent⟩
def Ev.THS_TD_LOCKED : Event := ⟨.ths, 0x07, .info⟩
/-! Table 17.8. -/
def Ev.ALM_ALM_TORN : Event := ⟨.alm, 0x01, .info⟩
def Ev.ALM_ALM_NEW : Event := ⟨.alm, 0x02, .permanent⟩
def Ev.ALM_CAL_REFUSED : Event := ⟨.alm, 0x03, .info⟩
def Ev.ALM_WRITE_FAIL : Event := ⟨.alm, 0x04, .transient⟩
def Ev.CLK_XTAL_LOSS : Event := ⟨.clk, 0x01, .permanent⟩
def Ev.CLK_AON_XTAL_LOST : Event := ⟨.clk, 0x02, .transient⟩
def Ev.CLK_PLL_UNLOCK : Event := ⟨.clk, 0x03, .permanent⟩
def Ev.CLK_TIME_DRIFT : Event := ⟨.clk, 0x04, .transient⟩
def Ev.CLK_TIME_FAULT : Event := ⟨.clk, 0x05, .permanent⟩
def Ev.CLK_TIME_STEP : Event := ⟨.clk, 0x06, .info⟩
def Ev.HLNK_CRC_ERR : Event := ⟨.hlnk, 0x01, .transient⟩
def Ev.HLNK_HLNK_DOWN : Event := ⟨.hlnk, 0x02, .permanent⟩
def Ev.HLNK_LEG_TIMEOUT : Event := ⟨.hlnk, 0x03, .safety⟩
def Ev.HLNK_TIME_LOST : Event := ⟨.hlnk, 0x04, .transient⟩
def Ev.SYS_LC_ADOPT : Event := ⟨.sys, 0x10, .info⟩
def Ev.SYS_LC_MISMATCH : Event := ⟨.sys, 0x11, .permanent⟩

end Sys2Proof.Machine
end

