-- ==== Sys2Proof/Machine/Registers.lean ====
section
/-!
DEFINITION. Machine/Registers.lean: the register map of a lane, one table row per register heading of the spec's chapters
(name, block, offset, stride of an indexed register, reset value, fields with their access codes, Table 0.5).
`R.X` names a register, `F.X_Y` the field Y of register X, both in the manual's own spelling.
-/

namespace Sys2Proof

/-- Base address of instance `n` of a block (Table 1.10; chapters 5, 6, 8, 12 for the instance steps). -/
def Blk.base (n : Nat) : Blk → Nat
  | .sys => 0x40000000
  | .pwr => 0x40010000
  | .clk => 0x40020000
  | .trio => 0x40030000
  | .cmdq => 0x40040000
  | .ozl => 0x40050000
  | .saf => 0x40060000
  | .cnv => 0x40080000 + 0x1000 * n
  | .cnvSq => 0x40088000
  | .pos => 0x40090000
  | .drv => 0x400a0000 + 0x4000 * n
  | .loop => 0x400b0000 + 0x1000 * n
  | .hk => 0x400c0000
  | .bist => 0x400d0000
  | .alm => 0x400e0000
  | .can => 0x40100000 + 0x10000 * n
  | .flx => 0x40140000
  | .eth => 0x40160000
  | .twp => 0x40170000
  | .preq => 0x40180000
  | .nvmc => 0x40190000
  | .msup => 0x401a0000
  | .dbg => 0x401b0000
  | .gd => 0x50000000
  | .prot => 0x50001000
  | .icv => 0x50002000
  | .hsf => 0x50003000
  | .sdl => 0x50004000
  | .ths => 0x50005000
  | .hlnk => 0x50006000

/-- How many instances a block has. -/
def Blk.count : Blk → Nat
  | .sys => 1
  | .pwr => 1
  | .clk => 1
  | .trio => 1
  | .cmdq => 1
  | .ozl => 1
  | .saf => 1
  | .cnv => 8
  | .cnvSq => 1
  | .pos => 1
  | .drv => 4
  | .loop => 4
  | .hk => 1
  | .bist => 1
  | .alm => 1
  | .can => 4
  | .flx => 1
  | .eth => 1
  | .twp => 1
  | .preq => 1
  | .nvmc => 1
  | .msup => 1
  | .dbg => 1
  | .gd => 1
  | .prot => 1
  | .icv => 1
  | .hsf => 1
  | .sdl => 1
  | .ths => 1
  | .hlnk => 1

/-- The blocks of the Hedge die (Table 1.10, the Hedge window). -/
def Blk.isHedge : Blk → Bool
  | .gd | .prot | .icv | .hsf | .sdl | .ths | .hlnk => true
  | _ => false

/-- Every block, in the order of Table 1.10. -/
def Blk.all : List Blk :=
  [.sys, .pwr, .clk, .trio, .cmdq, .ozl, .saf, .cnv, .cnvSq, .pos, .drv, .loop, .hk, .bist, .alm, .can, .flx, .eth, .twp, .preq, .nvmc, .msup, .dbg, .gd, .prot, .icv, .hsf, .sdl, .ths, .hlnk]

end Sys2Proof

namespace Sys2Proof.Machine

/-- A register of a block: its offset, and the stride of an indexed register. -/
structure Reg where
  blk : Blk
  off : Nat
  stride : Nat
  deriving DecidableEq, Repr

/-- A field of a register: the register, its lowest bit and its width. -/
structure Fld where
  reg : Reg
  lo : Nat
  w : Nat
  deriving DecidableEq, Repr

/-- Address in the lane map of register `r`, block instance `n`, index `i`. -/
def Reg.addr (r : Reg) (n i : Nat) : Nat := r.blk.base n + r.off + r.stride * i

/-- Access codes of Table 0.5. -/
inductive Access where
  | rw | ro | wo | w1c | w1s | rwl
  deriving DecidableEq, Repr

/-- A field's row in a register table: place, access code, and whether a write of it is a command of its own
(its row of the operation table), which REGISTER_WRITE then leaves alone. -/
structure FieldRow where
  lo : Nat
  w : Nat
  acc : Access
  own : Bool
  deriving DecidableEq, Repr

/-- A register heading: the register, its count along both strides, the reset value and the writable or cleared fields. -/
structure RegRow where
  reg : Reg
  count : Nat
  stride2 : Nat
  count2 : Nat
  reset : Nat
  sealed : Nat                            -- mask of its sealed fields (R362)
  fields : List FieldRow
  deriving Repr

/-! The common block header (R50): a register of every block. -/

namespace H

def ID (b : Blk) : Reg := ⟨b, 0x0, 0⟩
def ID_MINOR (b : Blk) : Fld := ⟨ID b, 0, 8⟩
def ID_MAJOR (b : Blk) : Fld := ⟨ID b, 8, 4⟩
def ID_INST (b : Blk) : Fld := ⟨ID b, 12, 4⟩
def ID_TYPE (b : Blk) : Fld := ⟨ID b, 16, 16⟩
def CTL (b : Blk) : Reg := ⟨b, 0x4, 0⟩
def CTL_SRST (b : Blk) : Fld := ⟨CTL b, 0, 1⟩
def CTL_EVQ_CLR (b : Blk) : Fld := ⟨CTL b, 1, 1⟩
def CTL_DBG_FRZ (b : Blk) : Fld := ⟨CTL b, 2, 1⟩
def STAT (b : Blk) : Reg := ⟨b, 0x8, 0⟩
def STAT_ESTATE (b : Blk) : Fld := ⟨STAT b, 0, 2⟩
def STAT_BUSY (b : Blk) : Fld := ⟨STAT b, 2, 1⟩
def STAT_LOCKED (b : Blk) : Fld := ⟨STAT b, 3, 1⟩
def ESTAT (b : Blk) : Reg := ⟨b, 0xc, 0⟩
def ESTAT_INFO (b : Blk) : Fld := ⟨ESTAT b, 0, 1⟩
def ESTAT_TRANS (b : Blk) : Fld := ⟨ESTAT b, 1, 1⟩
def ESTAT_PERM (b : Blk) : Fld := ⟨ESTAT b, 2, 1⟩
def ESTAT_SAFETY (b : Blk) : Fld := ⟨ESTAT b, 3, 1⟩
def ESTAT_EVQ_OVF (b : Blk) : Fld := ⟨ESTAT b, 4, 1⟩
def ESTAT_PROMOTED (b : Blk) : Fld := ⟨ESTAT b, 5, 1⟩
def ESTAT_BLOCK (b : Blk) : Fld := ⟨ESTAT b, 16, 16⟩
def EIE (b : Blk) : Reg := ⟨b, 0x10, 0⟩
def EIE_EN (b : Blk) : Fld := ⟨EIE b, 0, 6⟩
def EIE_BLOCK (b : Blk) : Fld := ⟨EIE b, 16, 16⟩
def LBCFG (b : Blk) : Reg := ⟨b, 0x14, 0⟩
def LBCFG_THRESH (b : Blk) : Fld := ⟨LBCFG b, 0, 6⟩
def LBCFG_WINDOW (b : Blk) : Fld := ⟨LBCFG b, 8, 16⟩
def LBCFG_COUNT (b : Blk) : Fld := ⟨LBCFG b, 24, 6⟩
def EVQ (b : Blk) : Reg := ⟨b, 0x20, 4⟩
def EVQ_CODE (b : Blk) : Fld := ⟨EVQ b, 0, 8⟩
def EVQ_CLASS (b : Blk) : Fld := ⟨EVQ b, 8, 2⟩
def EVQ_REPEAT (b : Blk) : Fld := ⟨EVQ b, 10, 6⟩
def EVQ_VALID (b : Blk) : Fld := ⟨EVQ b, 16, 1⟩
def EVQ_T (b : Blk) : Reg := ⟨b, 0x30, 4⟩
def EVQ_T_TIME (b : Blk) : Fld := ⟨EVQ_T b, 0, 32⟩

end H

/-! Registers of block sys (01_module_anatomy.md). -/

def R.SYS_RSTCAUSE : Reg := ⟨.sys, 0x80, 0⟩
def F.SYS_RSTCAUSE_POR : Fld := ⟨R.SYS_RSTCAUSE, 0, 1⟩
def F.SYS_RSTCAUSE_VCORE_LOW : Fld := ⟨R.SYS_RSTCAUSE, 1, 1⟩
def F.SYS_RSTCAUSE_VDD18_LOW : Fld := ⟨R.SYS_RSTCAUSE, 2, 1⟩
def F.SYS_RSTCAUSE_VIO_LOW : Fld := ⟨R.SYS_RSTCAUSE, 3, 1⟩
def F.SYS_RSTCAUSE_PIN : Fld := ⟨R.SYS_RSTCAUSE, 4, 1⟩
def F.SYS_RSTCAUSE_SOFT : Fld := ⟨R.SYS_RSTCAUSE, 5, 1⟩
def F.SYS_RSTCAUSE_CLK_LOSS : Fld := ⟨R.SYS_RSTCAUSE, 6, 1⟩
def F.SYS_RSTCAUSE_DEBUG : Fld := ⟨R.SYS_RSTCAUSE, 7, 1⟩
def R.SYS_RSTREQ : Reg := ⟨.sys, 0x84, 0⟩
def F.SYS_RSTREQ_KEY : Fld := ⟨R.SYS_RSTREQ, 0, 16⟩
def F.SYS_RSTREQ_LANE : Fld := ⟨R.SYS_RSTREQ, 16, 1⟩
def R.SYS_PART_0 : Reg := ⟨.sys, 0x40, 0⟩
def F.SYS_PART_0_PART_0 : Fld := ⟨R.SYS_PART_0, 0, 32⟩
def R.SYS_PART_1 : Reg := ⟨.sys, 0x44, 0⟩
def F.SYS_PART_1_PART_1 : Fld := ⟨R.SYS_PART_1, 0, 32⟩
def R.SYS_LANE : Reg := ⟨.sys, 0x48, 0⟩
def F.SYS_LANE_LANE : Fld := ⟨R.SYS_LANE, 0, 2⟩
def R.SYS_SERIAL : Reg := ⟨.sys, 0x4c, 0⟩
def F.SYS_SERIAL_SERIAL : Fld := ⟨R.SYS_SERIAL, 0, 32⟩
def R.SYS_ASSY : Reg := ⟨.sys, 0x50, 0⟩
def F.SYS_ASSY_WEEK : Fld := ⟨R.SYS_ASSY, 0, 8⟩
def F.SYS_ASSY_YEAR : Fld := ⟨R.SYS_ASSY, 8, 8⟩
def R.SYS_LD_LOT_0 : Reg := ⟨.sys, 0x60, 0⟩
def F.SYS_LD_LOT_0_LOT_0 : Fld := ⟨R.SYS_LD_LOT_0, 0, 32⟩
def R.SYS_LD_LOT_1 : Reg := ⟨.sys, 0x64, 0⟩
def F.SYS_LD_LOT_1_WAFER : Fld := ⟨R.SYS_LD_LOT_1, 0, 8⟩
def F.SYS_LD_LOT_1_LOT_1 : Fld := ⟨R.SYS_LD_LOT_1, 16, 16⟩
def R.SYS_LD_POS : Reg := ⟨.sys, 0x68, 0⟩
def F.SYS_LD_POS_X : Fld := ⟨R.SYS_LD_POS, 0, 16⟩
def F.SYS_LD_POS_Y : Fld := ⟨R.SYS_LD_POS, 16, 16⟩
def R.SYS_LD_STEP : Reg := ⟨.sys, 0x6c, 0⟩
def F.SYS_LD_STEP_NUM : Fld := ⟨R.SYS_LD_STEP, 0, 8⟩
def F.SYS_LD_STEP_LETTER : Fld := ⟨R.SYS_LD_STEP, 8, 8⟩
def F.SYS_LD_STEP_DIE : Fld := ⟨R.SYS_LD_STEP, 16, 16⟩
def R.SYS_LC : Reg := ⟨.sys, 0x90, 0⟩
def F.SYS_LC_STATE : Fld := ⟨R.SYS_LC, 0, 3⟩
def F.SYS_LC_FLOOR : Fld := ⟨R.SYS_LC, 3, 2⟩
def F.SYS_LC_DBGOPEN : Fld := ⟨R.SYS_LC, 5, 1⟩
def F.SYS_LC_AFLOCK : Fld := ⟨R.SYS_LC, 6, 1⟩
def F.SYS_LC_AFAIL : Fld := ⟨R.SYS_LC, 7, 2⟩
def R.SYS_LC_CHAL : Reg := ⟨.sys, 0x94, 0⟩
def F.SYS_LC_CHAL_CHAL : Fld := ⟨R.SYS_LC_CHAL, 0, 32⟩
def R.SYS_HD_LOT_0 : Reg := ⟨.sys, 0x70, 0⟩
def F.SYS_HD_LOT_0_LOT_0 : Fld := ⟨R.SYS_HD_LOT_0, 0, 32⟩
def R.SYS_HD_LOT_1 : Reg := ⟨.sys, 0x74, 0⟩
def F.SYS_HD_LOT_1_WAFER : Fld := ⟨R.SYS_HD_LOT_1, 0, 8⟩
def F.SYS_HD_LOT_1_LOT_1 : Fld := ⟨R.SYS_HD_LOT_1, 16, 16⟩
def R.SYS_HD_POS : Reg := ⟨.sys, 0x78, 0⟩
def F.SYS_HD_POS_X : Fld := ⟨R.SYS_HD_POS, 0, 16⟩
def F.SYS_HD_POS_Y : Fld := ⟨R.SYS_HD_POS, 16, 16⟩
def R.SYS_HD_STEP : Reg := ⟨.sys, 0x7c, 0⟩
def F.SYS_HD_STEP_NUM : Fld := ⟨R.SYS_HD_STEP, 0, 8⟩
def F.SYS_HD_STEP_LETTER : Fld := ⟨R.SYS_HD_STEP, 8, 8⟩
def F.SYS_HD_STEP_DIE : Fld := ⟨R.SYS_HD_STEP, 16, 16⟩

/-! Registers of block pwr (15_power_domains.md). -/

def R.PWR_VOTE : Reg := ⟨.pwr, 0x40, 0⟩
def F.PWR_VOTE_DOMAIN : Fld := ⟨R.PWR_VOTE, 0, 5⟩
def F.PWR_VOTE_STATE : Fld := ⟨R.PWR_VOTE, 8, 2⟩
def F.PWR_VOTE_CLIENT : Fld := ⟨R.PWR_VOTE, 16, 8⟩
def R.PWR_SLEEP : Reg := ⟨.pwr, 0x44, 0⟩
def F.PWR_SLEEP_REQ : Fld := ⟨R.PWR_SLEEP, 0, 1⟩
def F.PWR_SLEEP_BUSY : Fld := ⟨R.PWR_SLEEP, 1, 1⟩
def F.PWR_SLEEP_RESULT : Fld := ⟨R.PWR_SLEEP, 2, 2⟩
def F.PWR_SLEEP_CODE : Fld := ⟨R.PWR_SLEEP, 8, 8⟩
def R.PWR_WAKE : Reg := ⟨.pwr, 0x48, 0⟩
def F.PWR_WAKE_CAUSE : Fld := ⟨R.PWR_WAKE, 0, 4⟩
def F.PWR_WAKE_SRC : Fld := ⟨R.PWR_WAKE, 4, 2⟩
def F.PWR_WAKE_WARM : Fld := ⟨R.PWR_WAKE, 6, 1⟩
def F.PWR_WAKE_NEW : Fld := ⟨R.PWR_WAKE, 7, 1⟩
def F.PWR_WAKE_PEND : Fld := ⟨R.PWR_WAKE, 8, 8⟩
def R.PWR_WAKEEN : Reg := ⟨.pwr, 0x4c, 0⟩
def F.PWR_WAKEEN_FLX : Fld := ⟨R.PWR_WAKEEN, 0, 1⟩
def F.PWR_WAKEEN_T1S : Fld := ⟨R.PWR_WAKEEN, 1, 1⟩
def F.PWR_WAKEEN_PIN : Fld := ⟨R.PWR_WAKEEN, 2, 1⟩
def F.PWR_WAKEEN_PINPOL : Fld := ⟨R.PWR_WAKEEN, 3, 1⟩
def F.PWR_WAKEEN_ALM : Fld := ⟨R.PWR_WAKEEN, 4, 1⟩
def F.PWR_WAKEEN_BEMF : Fld := ⟨R.PWR_WAKEEN, 5, 1⟩
def F.PWR_WAKEEN_PFILT : Fld := ⟨R.PWR_WAKEEN, 8, 8⟩
def R.PWR_BEMF : Reg := ⟨.pwr, 0x50, 0⟩
def F.PWR_BEMF_BR : Fld := ⟨R.PWR_BEMF, 0, 4⟩
def F.PWR_BEMF_BTH : Fld := ⟨R.PWR_BEMF, 8, 8⟩
def R.PWR_RETLOST : Reg := ⟨.pwr, 0x54, 0⟩
def F.PWR_RETLOST_SRAM : Fld := ⟨R.PWR_RETLOST, 0, 8⟩
def F.PWR_RETLOST_TTCM : Fld := ⟨R.PWR_RETLOST, 8, 1⟩
def F.PWR_RETLOST_STCM : Fld := ⟨R.PWR_RETLOST, 9, 1⟩
def F.PWR_RETLOST_CHAIN : Fld := ⟨R.PWR_RETLOST, 10, 20⟩
def R.PWR_D_CFG : Reg := ⟨.pwr, 0x100, 0x10⟩
def F.PWR_D_CFG_LOW : Fld := ⟨R.PWR_D_CFG, 0, 1⟩
def R.PWR_D_STAT : Reg := ⟨.pwr, 0x104, 0x10⟩
def F.PWR_D_STAT_STATE : Fld := ⟨R.PWR_D_STAT, 0, 2⟩
def F.PWR_D_STAT_REG_RDY : Fld := ⟨R.PWR_D_STAT, 2, 1⟩
def F.PWR_D_STAT_OSC_RDY : Fld := ⟨R.PWR_D_STAT, 3, 1⟩
def F.PWR_D_STAT_MEM_RDY : Fld := ⟨R.PWR_D_STAT, 4, 1⟩
def F.PWR_D_STAT_LOGIC_RDY : Fld := ⟨R.PWR_D_STAT, 5, 1⟩
def F.PWR_D_STAT_TARGET : Fld := ⟨R.PWR_D_STAT, 6, 2⟩
def R.PWR_D_VOTES : Reg := ⟨.pwr, 0x108, 0x10⟩
def F.PWR_D_VOTES_VOTE : Fld := ⟨R.PWR_D_VOTES, 0, 20⟩
def F.PWR_D_VOTES_IMPL : Fld := ⟨R.PWR_D_VOTES, 20, 1⟩
def R.PWR_D_CNT : Reg := ⟨.pwr, 0x10c, 0x10⟩
def F.PWR_D_CNT_REFUSED : Fld := ⟨R.PWR_D_CNT, 0, 8⟩
def F.PWR_D_CNT_ABORTED : Fld := ⟨R.PWR_D_CNT, 8, 8⟩
def F.PWR_D_CNT_LASTC : Fld := ⟨R.PWR_D_CNT, 16, 8⟩
def F.PWR_D_CNT_LASTK : Fld := ⟨R.PWR_D_CNT, 24, 1⟩

/-! Registers of block clk (01_module_anatomy.md). -/

def R.CLK_LEVEL : Reg := ⟨.clk, 0x40, 0⟩
def F.CLK_LEVEL_REQ : Fld := ⟨R.CLK_LEVEL, 0, 2⟩
def F.CLK_LEVEL_CUR : Fld := ⟨R.CLK_LEVEL, 4, 2⟩
def F.CLK_LEVEL_BUSY : Fld := ⟨R.CLK_LEVEL, 8, 1⟩
def F.CLK_LEVEL_VSTEP : Fld := ⟨R.CLK_LEVEL, 9, 3⟩
def R.CLK_MT_LO : Reg := ⟨.clk, 0x44, 0⟩
def F.CLK_MT_LO_MT_LO : Fld := ⟨R.CLK_MT_LO, 0, 32⟩
def R.CLK_MT_HI : Reg := ⟨.clk, 0x48, 0⟩
def F.CLK_MT_HI_MT_HI : Fld := ⟨R.CLK_MT_HI, 0, 32⟩
def R.CLK_MT_SYNC : Reg := ⟨.clk, 0x4c, 0⟩
def F.CLK_MT_SYNC_OFS : Fld := ⟨R.CLK_MT_SYNC, 0, 16⟩
def F.CLK_MT_SYNC_SYNCED : Fld := ⟨R.CLK_MT_SYNC, 16, 1⟩
def F.CLK_MT_SYNC_ADOPTED : Fld := ⟨R.CLK_MT_SYNC, 17, 1⟩
def F.CLK_MT_SYNC_SOLO : Fld := ⟨R.CLK_MT_SYNC, 18, 1⟩

/-! Registers of block trio (03_trio_execution.md). -/

def R.TRIO_MODE : Reg := ⟨.trio, 0x40, 0⟩
def F.TRIO_MODE_MODE : Fld := ⟨R.TRIO_MODE, 0, 3⟩
def F.TRIO_MODE_LIVE : Fld := ⟨R.TRIO_MODE, 4, 3⟩
def F.TRIO_MODE_PRUNED : Fld := ⟨R.TRIO_MODE, 8, 3⟩
def F.TRIO_MODE_NOVOTE : Fld := ⟨R.TRIO_MODE, 11, 1⟩
def F.TRIO_MODE_FREE : Fld := ⟨R.TRIO_MODE, 12, 2⟩
def R.TRIO_CMP : Reg := ⟨.trio, 0x44, 0⟩
def F.TRIO_CMP_ODD : Fld := ⟨R.TRIO_CMP, 0, 3⟩
def F.TRIO_CMP_KIND : Fld := ⟨R.TRIO_CMP, 3, 2⟩
def F.TRIO_CMP_COUNT : Fld := ⟨R.TRIO_CMP, 8, 8⟩
def R.TRIO_TCNT : Reg := ⟨.trio, 0x48, 0⟩
def F.TRIO_TCNT_TC_0 : Fld := ⟨R.TRIO_TCNT, 0, 6⟩
def F.TRIO_TCNT_TC_1 : Fld := ⟨R.TRIO_TCNT, 8, 6⟩
def F.TRIO_TCNT_TC_2 : Fld := ⟨R.TRIO_TCNT, 16, 6⟩
def F.TRIO_TCNT_TC_SVC : Fld := ⟨R.TRIO_TCNT, 24, 6⟩
def R.TRIO_INJ : Reg := ⟨.trio, 0x4c, 0⟩
def F.TRIO_INJ_RUNS : Fld := ⟨R.TRIO_INJ, 0, 24⟩
def F.TRIO_INJ_LAST_OK : Fld := ⟨R.TRIO_INJ, 24, 1⟩
def F.TRIO_INJ_SVC_OK : Fld := ⟨R.TRIO_INJ, 25, 1⟩
def F.TRIO_INJ_CHK : Fld := ⟨R.TRIO_INJ, 26, 1⟩
def R.TRIO_RSYNC : Reg := ⟨.trio, 0x50, 0⟩
def F.TRIO_RSYNC_COUNT : Fld := ⟨R.TRIO_RSYNC, 0, 8⟩
def F.TRIO_RSYNC_LAST_NS : Fld := ⟨R.TRIO_RSYNC, 8, 16⟩
def F.TRIO_RSYNC_CORE : Fld := ⟨R.TRIO_RSYNC, 24, 2⟩
def F.TRIO_RSYNC_MASK : Fld := ⟨R.TRIO_RSYNC, 26, 3⟩
def R.TRIO_SPLIT : Reg := ⟨.trio, 0x54, 0⟩
def F.TRIO_SPLIT_REQ : Fld := ⟨R.TRIO_SPLIT, 0, 1⟩
def F.TRIO_SPLIT_JOIN : Fld := ⟨R.TRIO_SPLIT, 1, 1⟩
def F.TRIO_SPLIT_ALL : Fld := ⟨R.TRIO_SPLIT, 2, 1⟩
def F.TRIO_SPLIT_BUSY : Fld := ⟨R.TRIO_SPLIT, 3, 1⟩
def F.TRIO_SPLIT_DEFER : Fld := ⟨R.TRIO_SPLIT, 4, 1⟩
def R.TRIO_FREE_PC : Reg := ⟨.trio, 0x58, 0⟩
def F.TRIO_FREE_PC_PC : Fld := ⟨R.TRIO_FREE_PC, 1, 31⟩
def R.TRIO_DIG_BASE : Reg := ⟨.trio, 0x5c, 0⟩
def F.TRIO_DIG_BASE_BASE : Fld := ⟨R.TRIO_DIG_BASE, 4, 14⟩
def R.TRIO_DIG_SIZE : Reg := ⟨.trio, 0x60, 0⟩
def F.TRIO_DIG_SIZE_SIZE : Fld := ⟨R.TRIO_DIG_SIZE, 4, 14⟩
def R.TRIO_SDIG : Reg := ⟨.trio, 0x64, 0⟩
def F.TRIO_SDIG_SDIG : Fld := ⟨R.TRIO_SDIG, 0, 32⟩
def R.TRIO_ADIG : Reg := ⟨.trio, 0x68, 4⟩
def F.TRIO_ADIG_ADIG : Fld := ⟨R.TRIO_ADIG, 0, 32⟩
def R.TRIO_SVC : Reg := ⟨.trio, 0x80, 0⟩
def F.TRIO_SVC_LIVE : Fld := ⟨R.TRIO_SVC, 0, 1⟩
def F.TRIO_SVC_RESTART : Fld := ⟨R.TRIO_SVC, 1, 1⟩
def F.TRIO_SVC_PRUNED : Fld := ⟨R.TRIO_SVC, 2, 1⟩
def F.TRIO_SVC_HALTED : Fld := ⟨R.TRIO_SVC, 3, 1⟩
def F.TRIO_SVC_RESTARTS : Fld := ⟨R.TRIO_SVC, 8, 8⟩

/-! Registers of block cmdq (04_trellis_commands.md). -/

def R.CMDQ_ADMIT : Reg := ⟨.cmdq, 0x40, 0⟩
def F.CMDQ_ADMIT_ADMIT : Fld := ⟨R.CMDQ_ADMIT, 0, 12⟩
def F.CMDQ_ADMIT_UADMIT : Fld := ⟨R.CMDQ_ADMIT, 12, 12⟩
def F.CMDQ_ADMIT_BUDGET : Fld := ⟨R.CMDQ_ADMIT, 24, 6⟩
def R.CMDQ_ACTKIND : Reg := ⟨.cmdq, 0x44, 0⟩
def F.CMDQ_ACTKIND_KIND_1 : Fld := ⟨R.CMDQ_ACTKIND, 0, 4⟩
def F.CMDQ_ACTKIND_KIND_2 : Fld := ⟨R.CMDQ_ACTKIND, 4, 4⟩
def F.CMDQ_ACTKIND_KIND_3 : Fld := ⟨R.CMDQ_ACTKIND, 8, 4⟩
def F.CMDQ_ACTKIND_KIND_4 : Fld := ⟨R.CMDQ_ACTKIND, 12, 4⟩
def R.CMDQ_TOL : Reg := ⟨.cmdq, 0x48, 0⟩
def F.CMDQ_TOL_ANGLE : Fld := ⟨R.CMDQ_TOL, 0, 16⟩
def F.CMDQ_TOL_FORCE : Fld := ⟨R.CMDQ_TOL, 16, 16⟩
def R.CMDQ_OUTST : Reg := ⟨.cmdq, 0x4c, 0⟩
def F.CMDQ_OUTST_ALL : Fld := ⟨R.CMDQ_OUTST, 0, 9⟩
def F.CMDQ_OUTST_NET : Fld := ⟨R.CMDQ_OUTST, 16, 9⟩
def R.CMDQ_CNT : Reg := ⟨.cmdq, 0x50, 0⟩
def F.CMDQ_CNT_REJECT : Fld := ⟨R.CMDQ_CNT, 0, 8⟩
def F.CMDQ_CNT_LATE : Fld := ⟨R.CMDQ_CNT, 8, 8⟩
def F.CMDQ_CNT_CPL_DROP : Fld := ⟨R.CMDQ_CNT, 16, 8⟩
def F.CMDQ_CNT_DUP : Fld := ⟨R.CMDQ_CNT, 24, 8⟩
def R.CMDQ_RING_ALLOC : Reg := ⟨.cmdq, 0x7000, 0x10⟩
def F.CMDQ_RING_ALLOC_SLOT : Fld := ⟨R.CMDQ_RING_ALLOC, 0, 16⟩
def R.CMDQ_RING_POST : Reg := ⟨.cmdq, 0x7004, 0x10⟩
def F.CMDQ_RING_POST_SLOT : Fld := ⟨R.CMDQ_RING_POST, 0, 6⟩
def R.CMDQ_RING_FREE : Reg := ⟨.cmdq, 0x7008, 0x10⟩
def F.CMDQ_RING_FREE_FREE : Fld := ⟨R.CMDQ_RING_FREE, 0, 7⟩
def R.CMDQ_CPL_TAIL : Reg := ⟨.cmdq, 0x7040, 0⟩
def F.CMDQ_CPL_TAIL_TAIL : Fld := ⟨R.CMDQ_CPL_TAIL, 0, 8⟩
def R.CMDQ_CPL_HEAD : Reg := ⟨.cmdq, 0x7044, 0⟩
def F.CMDQ_CPL_HEAD_HEAD : Fld := ⟨R.CMDQ_CPL_HEAD, 0, 8⟩

/-! Registers of block ozl (02_three_lanes_one_authority.md). -/

def R.OZL_VPER : Reg := ⟨.ozl, 0x40, 0⟩
def F.OZL_VPER_PERIOD : Fld := ⟨R.OZL_VPER, 0, 8⟩
def R.OZL_LINK : Reg := ⟨.ozl, 0x44, 4⟩
def F.OZL_LINK_UP : Fld := ⟨R.OZL_LINK, 0, 1⟩
def F.OZL_LINK_TRAINED : Fld := ⟨R.OZL_LINK, 1, 1⟩
def F.OZL_LINK_DELAY : Fld := ⟨R.OZL_LINK, 8, 8⟩
def F.OZL_LINK_GMISS : Fld := ⟨R.OZL_LINK, 16, 8⟩
def F.OZL_LINK_RSFAIL : Fld := ⟨R.OZL_LINK, 24, 8⟩
def R.OZL_LSTATE : Reg := ⟨.ozl, 0x50, 0⟩
def F.OZL_LSTATE_ST_A : Fld := ⟨R.OZL_LSTATE, 0, 3⟩
def F.OZL_LSTATE_ST_B : Fld := ⟨R.OZL_LSTATE, 4, 3⟩
def F.OZL_LSTATE_ST_C : Fld := ⟨R.OZL_LSTATE, 8, 3⟩
def F.OZL_LSTATE_LEVEL : Fld := ⟨R.OZL_LSTATE, 12, 2⟩
def F.OZL_LSTATE_SPLIT : Fld := ⟨R.OZL_LSTATE, 14, 1⟩
def F.OZL_LSTATE_RELAY : Fld := ⟨R.OZL_LSTATE, 15, 1⟩
def F.OZL_LSTATE_MEMBER : Fld := ⟨R.OZL_LSTATE, 16, 3⟩
def R.OZL_GRAFT : Reg := ⟨.ozl, 0x54, 0⟩
def F.OZL_GRAFT_PHASE : Fld := ⟨R.OZL_GRAFT, 0, 4⟩
def F.OZL_GRAFT_ATTEMPTS : Fld := ⟨R.OZL_GRAFT, 4, 2⟩
def F.OZL_GRAFT_CHKGRAFT : Fld := ⟨R.OZL_GRAFT, 6, 1⟩
def F.OZL_GRAFT_HOLDOFF : Fld := ⟨R.OZL_GRAFT, 8, 8⟩
def F.OZL_GRAFT_FAILPH : Fld := ⟨R.OZL_GRAFT, 16, 4⟩
def R.OZL_FALLOW : Reg := ⟨.ozl, 0x58, 0⟩
def F.OZL_FALLOW_AGE : Fld := ⟨R.OZL_FALLOW, 0, 16⟩
def F.OZL_FALLOW_OVERDUE : Fld := ⟨R.OZL_FALLOW, 16, 1⟩
def F.OZL_FALLOW_PENDING : Fld := ⟨R.OZL_FALLOW, 17, 1⟩
def F.OZL_FALLOW_NEXT : Fld := ⟨R.OZL_FALLOW, 18, 2⟩
def R.OZL_VSEQ : Reg := ⟨.ozl, 0x5c, 0⟩
def F.OZL_VSEQ_VSEQ : Fld := ⟨R.OZL_VSEQ, 0, 32⟩
def R.OZL_SCORE : Reg := ⟨.ozl, 0x60, 0⟩
def F.OZL_SCORE_SCORE : Fld := ⟨R.OZL_SCORE, 0, 16⟩
def R.OZL_PAIR : Reg := ⟨.ozl, 0x64, 0⟩
def F.OZL_PAIR_PAIRED : Fld := ⟨R.OZL_PAIR, 0, 1⟩
def F.OZL_PAIR_PRIMARY : Fld := ⟨R.OZL_PAIR, 1, 1⟩
def F.OZL_PAIR_ROLE : Fld := ⟨R.OZL_PAIR, 2, 1⟩
def F.OZL_PAIR_CONFLICT : Fld := ⟨R.OZL_PAIR, 3, 1⟩
def F.OZL_PAIR_PUP : Fld := ⟨R.OZL_PAIR, 4, 1⟩

/-! Registers of block saf (10_safety_functions.md). -/

def R.SAF_PMAP : Reg := ⟨.saf, 0x40, 0⟩
def F.SAF_PMAP_Q_1 : Fld := ⟨R.SAF_PMAP, 0, 8⟩
def F.SAF_PMAP_Q_2 : Fld := ⟨R.SAF_PMAP, 8, 8⟩
def F.SAF_PMAP_Q_3 : Fld := ⟨R.SAF_PMAP, 16, 8⟩
def F.SAF_PMAP_Q_4 : Fld := ⟨R.SAF_PMAP, 24, 8⟩
def R.SAF_SMAP : Reg := ⟨.saf, 0x44, 0⟩
def F.SAF_SMAP_Q : Fld := ⟨R.SAF_SMAP, 0, 32⟩
def R.SAF_SLA_LO : Reg := ⟨.saf, 0x48, 0⟩
def F.SAF_SLA_LO_POS : Fld := ⟨R.SAF_SLA_LO, 0, 32⟩
def R.SAF_SLA_HI : Reg := ⟨.saf, 0x4c, 0⟩
def F.SAF_SLA_HI_POS : Fld := ⟨R.SAF_SLA_HI, 0, 32⟩
def R.SAF_L1_LO : Reg := ⟨.saf, 0x50, 0⟩
def F.SAF_L1_LO_POS : Fld := ⟨R.SAF_L1_LO, 0, 32⟩
def R.SAF_L1_HI : Reg := ⟨.saf, 0x54, 0⟩
def F.SAF_L1_HI_POS : Fld := ⟨R.SAF_L1_HI, 0, 32⟩
def R.SAF_SLR : Reg := ⟨.saf, 0x58, 0⟩
def F.SAF_SLR_RMAX : Fld := ⟨R.SAF_SLR, 0, 32⟩
def R.SAF_STILL : Reg := ⟨.saf, 0x5c, 0⟩
def F.SAF_STILL_STEER : Fld := ⟨R.SAF_STILL, 0, 16⟩
def F.SAF_STILL_OTHER : Fld := ⟨R.SAF_STILL, 16, 16⟩
def R.SAF_TOL : Reg := ⟨.saf, 0x60, 0⟩
def F.SAF_TOL_TOLS : Fld := ⟨R.SAF_TOL, 0, 16⟩
def F.SAF_TOL_TOLM : Fld := ⟨R.SAF_TOL, 16, 16⟩
def R.SAF_SBH : Reg := ⟨.saf, 0x64, 0⟩
def F.SAF_SBH_TOL : Fld := ⟨R.SAF_SBH, 0, 16⟩
def F.SAF_SBH_TCHK : Fld := ⟨R.SAF_SBH, 16, 8⟩
def R.SAF_RESP : Reg := ⟨.saf, 0x68, 0⟩
def F.SAF_RESP_NV : Fld := ⟨R.SAF_RESP, 0, 4⟩
def F.SAF_RESP_TSTO : Fld := ⟨R.SAF_RESP, 8, 8⟩
def F.SAF_RESP_TL1 : Fld := ⟨R.SAF_RESP, 16, 8⟩
def R.SAF_RATIO : Reg := ⟨.saf, 0x6c, 0⟩
def F.SAF_RATIO_RATIO : Fld := ⟨R.SAF_RATIO, 0, 32⟩
def R.SAF_ZERO : Reg := ⟨.saf, 0x70, 0⟩
def F.SAF_ZERO_ZERO : Fld := ⟨R.SAF_ZERO, 0, 32⟩
def R.SAF_ARM : Reg := ⟨.saf, 0x74, 0⟩
def F.SAF_ARM_SDI : Fld := ⟨R.SAF_ARM, 0, 4⟩
def F.SAF_ARM_DIR : Fld := ⟨R.SAF_ARM, 4, 4⟩
def F.SAF_ARM_SBH : Fld := ⟨R.SAF_ARM, 8, 4⟩
def R.SAF_VIOL : Reg := ⟨.saf, 0x78, 0⟩
def F.SAF_VIOL_SLA : Fld := ⟨R.SAF_VIOL, 0, 1⟩
def F.SAF_VIOL_SLR : Fld := ⟨R.SAF_VIOL, 1, 1⟩
def F.SAF_VIOL_SDI : Fld := ⟨R.SAF_VIOL, 2, 4⟩
def F.SAF_VIOL_STO : Fld := ⟨R.SAF_VIOL, 6, 4⟩
def F.SAF_VIOL_UNAV : Fld := ⟨R.SAF_VIOL, 10, 4⟩
def F.SAF_VIOL_L1IN : Fld := ⟨R.SAF_VIOL, 14, 1⟩
def R.SAF_SEAL : Reg := ⟨.saf, 0x7c, 0⟩
def F.SAF_SEAL_SEAL : Fld := ⟨R.SAF_SEAL, 0, 32⟩
def R.SAF_SEALREC : Reg := ⟨.saf, 0x88, 0⟩
def F.SAF_SEALREC_SEAL : Fld := ⟨R.SAF_SEALREC, 0, 32⟩
def R.SAF_SEALREF : Reg := ⟨.saf, 0x80, 0⟩
def F.SAF_SEALREF_REF : Fld := ⟨R.SAF_SEALREF, 0, 32⟩
def R.SAF_SEALCTL : Reg := ⟨.saf, 0x84, 0⟩
def F.SAF_SEALCTL_CHK : Fld := ⟨R.SAF_SEALCTL, 0, 1⟩
def F.SAF_SEALCTL_LOCK : Fld := ⟨R.SAF_SEALCTL, 1, 1⟩
def F.SAF_SEALCTL_BUSY : Fld := ⟨R.SAF_SEALCTL, 4, 1⟩
def F.SAF_SEALCTL_LOCKED : Fld := ⟨R.SAF_SEALCTL, 5, 1⟩
def F.SAF_SEALCTL_MATCH : Fld := ⟨R.SAF_SEALCTL, 6, 1⟩
def F.SAF_SEALCTL_REC : Fld := ⟨R.SAF_SEALCTL, 7, 1⟩
def F.SAF_SEALCTL_KEY : Fld := ⟨R.SAF_SEALCTL, 16, 16⟩

/-! Registers of block cnv (08_conversion.md). -/

def R.CNV_RSEQ : Reg := ⟨.cnv, 0x40, 0⟩
def F.CNV_RSEQ_LEN : Fld := ⟨R.CNV_RSEQ, 0, 4⟩
def F.CNV_RSEQ_TRIG : Fld := ⟨R.CNV_RSEQ, 4, 4⟩
def F.CNV_RSEQ_TDIV : Fld := ⟨R.CNV_RSEQ, 8, 8⟩
def F.CNV_RSEQ_GO : Fld := ⟨R.CNV_RSEQ, 17, 1⟩
def F.CNV_RSEQ_EN : Fld := ⟨R.CNV_RSEQ, 18, 1⟩
def R.CNV_ISEQ : Reg := ⟨.cnv, 0x44, 0⟩
def F.CNV_ISEQ_LEN : Fld := ⟨R.CNV_ISEQ, 0, 2⟩
def F.CNV_ISEQ_TRIG : Fld := ⟨R.CNV_ISEQ, 4, 4⟩
def F.CNV_ISEQ_TDIV : Fld := ⟨R.CNV_ISEQ, 8, 8⟩
def F.CNV_ISEQ_ILV : Fld := ⟨R.CNV_ISEQ, 16, 1⟩
def F.CNV_ISEQ_GO : Fld := ⟨R.CNV_ISEQ, 17, 1⟩
def F.CNV_ISEQ_EN : Fld := ⟨R.CNV_ISEQ, 18, 1⟩
def R.CNV_RSEL : Reg := ⟨.cnv, 0x48, 4⟩
def F.CNV_RSEL_SEL_A : Fld := ⟨R.CNV_RSEL, 0, 8⟩
def F.CNV_RSEL_SEL_B : Fld := ⟨R.CNV_RSEL, 8, 8⟩
def F.CNV_RSEL_SEL_C : Fld := ⟨R.CNV_RSEL, 16, 8⟩
def F.CNV_RSEL_SEL_D : Fld := ⟨R.CNV_RSEL, 24, 8⟩
def R.CNV_ISEL : Reg := ⟨.cnv, 0x58, 0⟩
def F.CNV_ISEL_SEL_0 : Fld := ⟨R.CNV_ISEL, 0, 8⟩
def F.CNV_ISEL_SEL_1 : Fld := ⟨R.CNV_ISEL, 8, 8⟩
def F.CNV_ISEL_SEL_2 : Fld := ⟨R.CNV_ISEL, 16, 8⟩
def F.CNV_ISEL_SEL_3 : Fld := ⟨R.CNV_ISEL, 24, 8⟩
def R.CNV_TMR : Reg := ⟨.cnv, 0x5c, 0⟩
def F.CNV_TMR_PER : Fld := ⟨R.CNV_TMR, 0, 16⟩
def F.CNV_TMR_PHASE : Fld := ⟨R.CNV_TMR, 16, 16⟩
def R.CNV_CAL_GO : Reg := ⟨.cnv, 0x60, 0⟩
def F.CNV_CAL_GO_GO : Fld := ⟨R.CNV_CAL_GO, 0, 1⟩
def R.CNV_CAL_STAT : Reg := ⟨.cnv, 0x64, 0⟩
def F.CNV_CAL_STAT_RESULT : Fld := ⟨R.CNV_CAL_STAT, 0, 2⟩
def F.CNV_CAL_STAT_BUSY : Fld := ⟨R.CNV_CAL_STAT, 2, 1⟩
def F.CNV_CAL_STAT_COUNT : Fld := ⟨R.CNV_CAL_STAT, 8, 8⟩
def R.CNV_CAL_OG : Reg := ⟨.cnv, 0x68, 0⟩
def F.CNV_CAL_OG_OFS : Fld := ⟨R.CNV_CAL_OG, 0, 12⟩
def F.CNV_CAL_OG_GAIN : Fld := ⟨R.CNV_CAL_OG, 16, 12⟩
def R.CNV_CAL_W : Reg := ⟨.cnv, 0x6c, 4⟩
def F.CNV_CAL_W_W_A : Fld := ⟨R.CNV_CAL_W, 0, 8⟩
def F.CNV_CAL_W_W_B : Fld := ⟨R.CNV_CAL_W, 8, 8⟩
def F.CNV_CAL_W_W_C : Fld := ⟨R.CNV_CAL_W, 16, 8⟩
def F.CNV_CAL_W_W_D : Fld := ⟨R.CNV_CAL_W, 24, 8⟩
def R.CNV_MISS : Reg := ⟨.cnv, 0x78, 0⟩
def F.CNV_MISS_RMISS : Fld := ⟨R.CNV_MISS, 0, 8⟩
def F.CNV_MISS_IMISS : Fld := ⟨R.CNV_MISS, 8, 8⟩
def R.CNV_EVT : Reg := ⟨.cnv, 0x7c, 0⟩
def F.CNV_EVT_RDONE : Fld := ⟨R.CNV_EVT, 0, 1⟩
def F.CNV_EVT_IDONE : Fld := ⟨R.CNV_EVT, 1, 1⟩
def F.CNV_EVT_CALDONE : Fld := ⟨R.CNV_EVT, 2, 1⟩
def F.CNV_EVT_IE : Fld := ⟨R.CNV_EVT, 8, 3⟩
def R.CNV_RES : Reg := ⟨.cnv, 0x100, 4⟩
def F.CNV_RES_CODE : Fld := ⟨R.CNV_RES, 0, 16⟩
def F.CNV_RES_VALID : Fld := ⟨R.CNV_RES, 16, 1⟩
def F.CNV_RES_OVR : Fld := ⟨R.CNV_RES, 17, 1⟩
def F.CNV_RES_CLIP : Fld := ⟨R.CNV_RES, 18, 1⟩
def R.CNV_IRES : Reg := ⟨.cnv, 0x140, 4⟩
def F.CNV_IRES_CODE : Fld := ⟨R.CNV_IRES, 0, 16⟩
def F.CNV_IRES_VALID : Fld := ⟨R.CNV_IRES, 16, 1⟩
def F.CNV_IRES_OVR : Fld := ⟨R.CNV_IRES, 17, 1⟩
def F.CNV_IRES_CLIP : Fld := ⟨R.CNV_IRES, 18, 1⟩
def R.CNV_RTS : Reg := ⟨.cnv, 0x180, 4⟩
def F.CNV_RTS_TIME : Fld := ⟨R.CNV_RTS, 0, 32⟩
def R.CNV_ITS : Reg := ⟨.cnv, 0x1c0, 4⟩
def F.CNV_ITS_TIME : Fld := ⟨R.CNV_ITS, 0, 32⟩

/-! Registers of block cnvSq (08_conversion.md). -/

def R.CNV_SQ_XCFG : Reg := ⟨.cnvSq, 0x40, 0⟩
def F.CNV_SQ_XCFG_XEN : Fld := ⟨R.CNV_SQ_XCFG, 0, 8⟩
def F.CNV_SQ_XCFG_XTOL : Fld := ⟨R.CNV_SQ_XCFG, 8, 8⟩
def F.CNV_SQ_XCFG_XSEQ : Fld := ⟨R.CNV_SQ_XCFG, 16, 4⟩
def R.CNV_SQ_XSTAT : Reg := ⟨.cnvSq, 0x44, 0⟩
def F.CNV_SQ_XSTAT_PASS : Fld := ⟨R.CNV_SQ_XSTAT, 0, 8⟩
def F.CNV_SQ_XSTAT_FAIL : Fld := ⟨R.CNV_SQ_XSTAT, 8, 8⟩
def F.CNV_SQ_XSTAT_SUSPECT : Fld := ⟨R.CNV_SQ_XSTAT, 16, 8⟩
def F.CNV_SQ_XSTAT_WCNT : Fld := ⟨R.CNV_SQ_XSTAT, 24, 8⟩
def R.CNV_SQ_REFCHK : Reg := ⟨.cnvSq, 0x48, 0⟩
def F.CNV_SQ_REFCHK_WIN : Fld := ⟨R.CNV_SQ_REFCHK, 0, 15⟩
def F.CNV_SQ_REFCHK_MASK : Fld := ⟨R.CNV_SQ_REFCHK, 16, 8⟩
def F.CNV_SQ_REFCHK_GO : Fld := ⟨R.CNV_SQ_REFCHK, 24, 1⟩
def F.CNV_SQ_REFCHK_BUSY : Fld := ⟨R.CNV_SQ_REFCHK, 25, 1⟩
def R.CNV_SQ_REFRES : Reg := ⟨.cnvSq, 0x4c, 0⟩
def F.CNV_SQ_REFRES_PASS : Fld := ⟨R.CNV_SQ_REFRES, 0, 8⟩
def F.CNV_SQ_REFRES_FAIL : Fld := ⟨R.CNV_SQ_REFRES, 8, 8⟩
def F.CNV_SQ_REFRES_NRUN : Fld := ⟨R.CNV_SQ_REFRES, 16, 8⟩
def F.CNV_SQ_REFRES_LIVE : Fld := ⟨R.CNV_SQ_REFRES, 24, 8⟩
def R.CNV_SQ_REFDEV : Reg := ⟨.cnvSq, 0x50, 0⟩
def F.CNV_SQ_REFDEV_WORST : Fld := ⟨R.CNV_SQ_REFDEV, 0, 16⟩
def R.CNV_SQ_XDEV : Reg := ⟨.cnvSq, 0x60, 4⟩
def F.CNV_SQ_XDEV_LAST : Fld := ⟨R.CNV_SQ_XDEV, 0, 16⟩
def F.CNV_SQ_XDEV_WORST : Fld := ⟨R.CNV_SQ_XDEV, 16, 16⟩

/-! Registers of block pos (09_position_feedback.md). -/

def R.POS_SPD : Reg := ⟨.pos, 0x40, 0⟩
def F.POS_SPD_SPER : Fld := ⟨R.POS_SPD, 0, 10⟩
def F.POS_SPD_SZERO : Fld := ⟨R.POS_SPD, 16, 8⟩
def R.POS_HCHK : Reg := ⟨.pos, 0x44, 0⟩
def F.POS_HCHK_HTOL : Fld := ⟨R.POS_HCHK, 0, 8⟩
def F.POS_HCHK_HSEQ : Fld := ⟨R.POS_HCHK, 8, 4⟩
def F.POS_HCHK_HEN : Fld := ⟨R.POS_HCHK, 12, 1⟩
def R.POS_ENC_CFG : Reg := ⟨.pos, 0x100, 0x20⟩
def F.POS_ENC_CFG_EN : Fld := ⟨R.POS_ENC_CFG, 0, 1⟩
def F.POS_ENC_CFG_MODE : Fld := ⟨R.POS_ENC_CFG, 1, 2⟩
def F.POS_ENC_CFG_DIR : Fld := ⟨R.POS_ENC_CFG, 3, 1⟩
def F.POS_ENC_CFG_ZEN : Fld := ⟨R.POS_ENC_CFG, 4, 1⟩
def F.POS_ENC_CFG_FILT : Fld := ⟨R.POS_ENC_CFG, 8, 8⟩
def F.POS_ENC_CFG_ABSQ : Fld := ⟨R.POS_ENC_CFG, 16, 5⟩
def R.POS_ENC_CPT : Reg := ⟨.pos, 0x104, 0x20⟩
def F.POS_ENC_CPT_CPT : Fld := ⟨R.POS_ENC_CPT, 0, 20⟩
def F.POS_ENC_CPT_ITOL : Fld := ⟨R.POS_ENC_CPT, 24, 4⟩
def R.POS_ENC_ABSTOL : Reg := ⟨.pos, 0x108, 0x20⟩
def F.POS_ENC_ABSTOL_ABSTOL : Fld := ⟨R.POS_ENC_ABSTOL, 0, 16⟩
def R.POS_ENC_CNT : Reg := ⟨.pos, 0x10c, 0x20⟩
def F.POS_ENC_CNT_CNT : Fld := ⟨R.POS_ENC_CNT, 0, 32⟩
def R.POS_ENC_ZREF : Reg := ⟨.pos, 0x110, 0x20⟩
def F.POS_ENC_ZREF_ZREF : Fld := ⟨R.POS_ENC_ZREF, 0, 32⟩
def R.POS_ENC_ERR : Reg := ⟨.pos, 0x114, 0x20⟩
def F.POS_ENC_ERR_ILLEGAL : Fld := ⟨R.POS_ENC_ERR, 0, 8⟩
def F.POS_ENC_ERR_IDXERR : Fld := ⟨R.POS_ENC_ERR, 8, 8⟩
def F.POS_ENC_ERR_IDXCORR : Fld := ⟨R.POS_ENC_ERR, 16, 8⟩
def F.POS_ENC_ERR_LASTD : Fld := ⟨R.POS_ENC_ERR, 24, 8⟩
def R.POS_RES_CFG : Reg := ⟨.pos, 0x180, 0x20⟩
def F.POS_RES_CFG_EN : Fld := ⟨R.POS_RES_CFG, 0, 1⟩
def F.POS_RES_CFG_PAIR : Fld := ⟨R.POS_RES_CFG, 1, 2⟩
def F.POS_RES_CFG_ENT : Fld := ⟨R.POS_RES_CFG, 3, 2⟩
def F.POS_RES_CFG_BOTH : Fld := ⟨R.POS_RES_CFG, 5, 1⟩
def F.POS_RES_CFG_EXCEN : Fld := ⟨R.POS_RES_CFG, 6, 1⟩
def F.POS_RES_CFG_LEVEL : Fld := ⟨R.POS_RES_CFG, 12, 3⟩
def F.POS_RES_CFG_RDLY : Fld := ⟨R.POS_RES_CFG, 16, 16⟩
def R.POS_RES_AMP : Reg := ⟨.pos, 0x184, 0x20⟩
def F.POS_RES_AMP_AMIN : Fld := ⟨R.POS_RES_AMP, 0, 12⟩
def F.POS_RES_AMP_AMAX : Fld := ⟨R.POS_RES_AMP, 16, 12⟩
def R.POS_RES_RAW : Reg := ⟨.pos, 0x188, 0x20⟩
def F.POS_RES_RAW_ANG16 : Fld := ⟨R.POS_RES_RAW, 0, 16⟩
def F.POS_RES_RAW_AMPL : Fld := ⟨R.POS_RES_RAW, 16, 12⟩
def R.POS_RES_ERR : Reg := ⟨.pos, 0x18c, 0x20⟩
def F.POS_RES_ERR_AMPERR : Fld := ⟨R.POS_RES_ERR, 0, 8⟩
def F.POS_RES_ERR_SKIP : Fld := ⟨R.POS_RES_ERR, 8, 8⟩
def F.POS_RES_ERR_LOS : Fld := ⟨R.POS_RES_ERR, 16, 1⟩
def R.POS_SENT_CFG : Reg := ⟨.pos, 0x200, 0x20⟩
def F.POS_SENT_CFG_EN : Fld := ⟨R.POS_SENT_CFG, 0, 1⟩
def F.POS_SENT_CFG_FMT : Fld := ⟨R.POS_SENT_CFG, 1, 2⟩
def F.POS_SENT_CFG_CRCM : Fld := ⟨R.POS_SENT_CFG, 3, 1⟩
def F.POS_SENT_CFG_PAUSE : Fld := ⟨R.POS_SENT_CFG, 4, 1⟩
def F.POS_SENT_CFG_SPCEN : Fld := ⟨R.POS_SENT_CFG, 5, 1⟩
def F.POS_SENT_CFG_FILT : Fld := ⟨R.POS_SENT_CFG, 8, 8⟩
def F.POS_SENT_CFG_TICK : Fld := ⟨R.POS_SENT_CFG, 16, 12⟩
def R.POS_SENT_SPC : Reg := ⟨.pos, 0x204, 0x20⟩
def F.POS_SENT_SPC_TRW : Fld := ⟨R.POS_SENT_SPC, 0, 7⟩
def F.POS_SENT_SPC_TPER : Fld := ⟨R.POS_SENT_SPC, 8, 8⟩
def F.POS_SENT_SPC_TOUT : Fld := ⟨R.POS_SENT_SPC, 16, 8⟩
def R.POS_SENT_DATA : Reg := ⟨.pos, 0x208, 0x20⟩
def F.POS_SENT_DATA_FC1 : Fld := ⟨R.POS_SENT_DATA, 0, 16⟩
def F.POS_SENT_DATA_FC2 : Fld := ⟨R.POS_SENT_DATA, 16, 16⟩
def R.POS_SENT_FRM : Reg := ⟨.pos, 0x20c, 0x20⟩
def F.POS_SENT_FRM_STATUS : Fld := ⟨R.POS_SENT_FRM, 0, 4⟩
def F.POS_SENT_FRM_TICKM : Fld := ⟨R.POS_SENT_FRM, 16, 16⟩
def R.POS_SENT_SER : Reg := ⟨.pos, 0x210, 0x20⟩
def F.POS_SENT_SER_ID : Fld := ⟨R.POS_SENT_SER, 0, 8⟩
def F.POS_SENT_SER_DATA : Fld := ⟨R.POS_SENT_SER, 8, 16⟩
def F.POS_SENT_SER_KIND : Fld := ⟨R.POS_SENT_SER, 24, 2⟩
def F.POS_SENT_SER_NEW : Fld := ⟨R.POS_SENT_SER, 31, 1⟩
def R.POS_SENT_ERR : Reg := ⟨.pos, 0x214, 0x20⟩
def F.POS_SENT_ERR_CRCERR : Fld := ⟨R.POS_SENT_ERR, 0, 8⟩
def F.POS_SENT_ERR_FRMERR : Fld := ⟨R.POS_SENT_ERR, 8, 8⟩
def F.POS_SENT_ERR_TOUTS : Fld := ⟨R.POS_SENT_ERR, 16, 8⟩
def F.POS_SENT_ERR_RCJUMP : Fld := ⟨R.POS_SENT_ERR, 24, 8⟩
def R.POS_PRB_CFG : Reg := ⟨.pos, 0x280, 0x10⟩
def F.POS_PRB_CFG_EN : Fld := ⟨R.POS_PRB_CFG, 0, 1⟩
def F.POS_PRB_CFG_EDGE : Fld := ⟨R.POS_PRB_CFG, 1, 2⟩
def F.POS_PRB_CFG_IE : Fld := ⟨R.POS_PRB_CFG, 3, 1⟩
def F.POS_PRB_CFG_QSEL : Fld := ⟨R.POS_PRB_CFG, 4, 4⟩
def F.POS_PRB_CFG_FILT : Fld := ⟨R.POS_PRB_CFG, 8, 8⟩
def F.POS_PRB_CFG_VALID : Fld := ⟨R.POS_PRB_CFG, 16, 1⟩
def F.POS_PRB_CFG_OVR : Fld := ⟨R.POS_PRB_CFG, 17, 1⟩
def R.POS_PRB_VAL : Reg := ⟨.pos, 0x284, 0x10⟩
def F.POS_PRB_VAL_VAL : Fld := ⟨R.POS_PRB_VAL, 0, 32⟩
def R.POS_PRB_T : Reg := ⟨.pos, 0x288, 0x10⟩
def F.POS_PRB_T_TIME : Fld := ⟨R.POS_PRB_T, 0, 32⟩
def R.POS_Q_VAL : Reg := ⟨.pos, 0x400, 0x20⟩
def F.POS_Q_VAL_VAL : Fld := ⟨R.POS_Q_VAL, 0, 32⟩
def R.POS_Q_ANG : Reg := ⟨.pos, 0x404, 0x20⟩
def F.POS_Q_ANG_ANG : Fld := ⟨R.POS_Q_ANG, 0, 32⟩
def R.POS_Q_T : Reg := ⟨.pos, 0x408, 0x20⟩
def F.POS_Q_T_T : Fld := ⟨R.POS_Q_T, 0, 32⟩
def R.POS_Q_SPD : Reg := ⟨.pos, 0x40c, 0x20⟩
def F.POS_Q_SPD_SPD : Fld := ⟨R.POS_Q_SPD, 0, 32⟩
def R.POS_Q_STAT : Reg := ⟨.pos, 0x410, 0x20⟩
def F.POS_Q_STAT_VALID : Fld := ⟨R.POS_Q_STAT, 0, 1⟩
def F.POS_Q_STAT_AVALID : Fld := ⟨R.POS_Q_STAT, 1, 1⟩
def F.POS_Q_STAT_UNCERT : Fld := ⟨R.POS_Q_STAT, 2, 1⟩
def F.POS_Q_STAT_FAULT : Fld := ⟨R.POS_Q_STAT, 3, 1⟩
def F.POS_Q_STAT_SVALID : Fld := ⟨R.POS_Q_STAT, 4, 1⟩
def F.POS_Q_STAT_HDIF : Fld := ⟨R.POS_Q_STAT, 5, 1⟩
def F.POS_Q_STAT_RC : Fld := ⟨R.POS_Q_STAT, 8, 8⟩
def F.POS_Q_STAT_DIRN : Fld := ⟨R.POS_Q_STAT, 16, 1⟩
def R.POS_Q_SCL : Reg := ⟨.pos, 0x414, 0x20⟩
def F.POS_Q_SCL_PSCL : Fld := ⟨R.POS_Q_SCL, 0, 32⟩
def R.POS_Q_OFS : Reg := ⟨.pos, 0x418, 0x20⟩
def F.POS_Q_OFS_OFS : Fld := ⟨R.POS_Q_OFS, 0, 32⟩
def R.POS_Q_ST : Reg := ⟨.pos, 0x41c, 0x20⟩
def F.POS_Q_ST_ST : Fld := ⟨R.POS_Q_ST, 0, 32⟩
def R.POS_CMP_TGT : Reg := ⟨.pos, 0x700, 0x20⟩
def F.POS_CMP_TGT_TGT : Fld := ⟨R.POS_CMP_TGT, 0, 32⟩
def R.POS_CMP_CTL : Reg := ⟨.pos, 0x704, 0x20⟩
def F.POS_CMP_CTL_ARM : Fld := ⟨R.POS_CMP_CTL, 0, 1⟩
def F.POS_CMP_CTL_DIRSEL : Fld := ⟨R.POS_CMP_CTL, 1, 2⟩
def F.POS_CMP_CTL_AUTO : Fld := ⟨R.POS_CMP_CTL, 3, 1⟩
def F.POS_CMP_CTL_CATCHUP : Fld := ⟨R.POS_CMP_CTL, 4, 1⟩
def F.POS_CMP_CTL_IE : Fld := ⟨R.POS_CMP_CTL, 5, 1⟩
def F.POS_CMP_CTL_HIT : Fld := ⟨R.POS_CMP_CTL, 8, 1⟩
def F.POS_CMP_CTL_BEHIND : Fld := ⟨R.POS_CMP_CTL, 9, 1⟩
def F.POS_CMP_CTL_CAUGHT : Fld := ⟨R.POS_CMP_CTL, 10, 1⟩
def F.POS_CMP_CTL_COUNT : Fld := ⟨R.POS_CMP_CTL, 16, 8⟩
def R.POS_CMP_HTIME : Reg := ⟨.pos, 0x708, 0x20⟩
def F.POS_CMP_HTIME_TIME : Fld := ⟨R.POS_CMP_HTIME, 0, 32⟩

/-! Registers of block drv (06_drive_engine.md). -/

def R.DRV_MODE : Reg := ⟨.drv, 0x40, 0⟩
def F.DRV_MODE_SECT12 : Fld := ⟨R.DRV_MODE, 0, 1⟩
def F.DRV_MODE_OVMEN : Fld := ⟨R.DRV_MODE, 1, 1⟩
def F.DRV_MODE_HFIEN : Fld := ⟨R.DRV_MODE, 2, 1⟩
def F.DRV_MODE_EMFEN : Fld := ⟨R.DRV_MODE, 3, 1⟩
def F.DRV_MODE_DRAGFF : Fld := ⟨R.DRV_MODE, 5, 1⟩
def F.DRV_MODE_REARM : Fld := ⟨R.DRV_MODE, 8, 1⟩
def R.DRV_STATE : Reg := ⟨.drv, 0x44, 0⟩
def F.DRV_STATE_STATE : Fld := ⟨R.DRV_STATE, 0, 4⟩
def F.DRV_STATE_ASRC : Fld := ⟨R.DRV_STATE, 4, 1⟩
def F.DRV_STATE_SIX : Fld := ⟨R.DRV_STATE, 5, 1⟩
def F.DRV_STATE_NOREG : Fld := ⟨R.DRV_STATE, 6, 1⟩
def F.DRV_STATE_SEC : Fld := ⟨R.DRV_STATE, 8, 4⟩
def F.DRV_STATE_TCMP : Fld := ⟨R.DRV_STATE, 12, 2⟩
def F.DRV_STATE_FCMP : Fld := ⟨R.DRV_STATE, 14, 1⟩
def F.DRV_STATE_VEC : Fld := ⟨R.DRV_STATE, 16, 3⟩
def F.DRV_STATE_WIN : Fld := ⟨R.DRV_STATE, 20, 4⟩
def R.DRV_IBASE : Reg := ⟨.drv, 0x48, 0⟩
def F.DRV_IBASE_IBASE : Fld := ⟨R.DRV_IBASE, 0, 16⟩
def R.DRV_VBASE : Reg := ⟨.drv, 0x4c, 0⟩
def F.DRV_VBASE_VBASE : Fld := ⟨R.DRV_VBASE, 0, 16⟩
def R.DRV_WBASE : Reg := ⟨.drv, 0x50, 0⟩
def F.DRV_WBASE_WBASE : Fld := ⟨R.DRV_WBASE, 0, 16⟩
def F.DRV_WBASE_POLES : Fld := ⟨R.DRV_WBASE, 16, 5⟩
def R.DRV_GAIN : Reg := ⟨.drv, 0x54, 0⟩
def F.DRV_GAIN_IGAIN : Fld := ⟨R.DRV_GAIN, 0, 16⟩
def F.DRV_GAIN_VGAIN : Fld := ⟨R.DRV_GAIN, 16, 16⟩
def R.DRV_DPER : Reg := ⟨.drv, 0x58, 0⟩
def F.DRV_DPER_PERIOD : Fld := ⟨R.DRV_DPER, 0, 11⟩
def F.DRV_DPER_PHASE : Fld := ⟨R.DRV_DPER, 16, 11⟩
def R.DRV_MOT_0 : Reg := ⟨.drv, 0x5c, 0⟩
def F.DRV_MOT_0_RS : Fld := ⟨R.DRV_MOT_0, 0, 16⟩
def F.DRV_MOT_0_PSIPM : Fld := ⟨R.DRV_MOT_0, 16, 16⟩
def R.DRV_MOT_1 : Reg := ⟨.drv, 0x60, 0⟩
def F.DRV_MOT_1_LD : Fld := ⟨R.DRV_MOT_1, 0, 16⟩
def F.DRV_MOT_1_LQ : Fld := ⟨R.DRV_MOT_1, 16, 16⟩
def R.DRV_BLEND : Reg := ⟨.drv, 0x64, 0⟩
def F.DRV_BLEND_WX : Fld := ⟨R.DRV_BLEND, 0, 15⟩
def F.DRV_BLEND_ISUM : Fld := ⟨R.DRV_BLEND, 16, 15⟩
def R.DRV_HYST : Reg := ⟨.drv, 0x68, 0⟩
def F.DRV_HYST_HT : Fld := ⟨R.DRV_HYST, 0, 15⟩
def F.DRV_HYST_HF : Fld := ⟨R.DRV_HYST, 16, 15⟩
def R.DRV_SWLIM : Reg := ⟨.drv, 0x6c, 0⟩
def F.DRV_SWLIM_MINP : Fld := ⟨R.DRV_SWLIM, 0, 4⟩
def F.DRV_SWLIM_FCAP : Fld := ⟨R.DRV_SWLIM, 8, 12⟩
def F.DRV_SWLIM_BDEPTH : Fld := ⟨R.DRV_SWLIM, 24, 4⟩
def R.DRV_LIM : Reg := ⟨.drv, 0x70, 0⟩
def F.DRV_LIM_ILIM : Fld := ⟨R.DRV_LIM, 0, 15⟩
def F.DRV_LIM_TLIM : Fld := ⟨R.DRV_LIM, 16, 15⟩
def R.DRV_LIMEFF : Reg := ⟨.drv, 0x74, 0⟩
def F.DRV_LIMEFF_ILIM_EFF : Fld := ⟨R.DRV_LIMEFF, 0, 15⟩
def F.DRV_LIMEFF_THR : Fld := ⟨R.DRV_LIMEFF, 16, 3⟩
def R.DRV_OVM : Reg := ⟨.drv, 0x78, 0⟩
def F.DRV_OVM_OVMW : Fld := ⟨R.DRV_OVM, 0, 15⟩
def F.DRV_OVM_KFW : Fld := ⟨R.DRV_OVM, 16, 15⟩
def R.DRV_HFI : Reg := ⟨.drv, 0x7c, 0⟩
def F.DRV_HFI_FREQ : Fld := ⟨R.DRV_HFI, 0, 7⟩
def F.DRV_HFI_AMP : Fld := ⟨R.DRV_HFI, 8, 15⟩
def R.DRV_OBS : Reg := ⟨.drv, 0x80, 0⟩
def F.DRV_OBS_WB0 : Fld := ⟨R.DRV_OBS, 0, 15⟩
def F.DRV_OBS_WB1 : Fld := ⟨R.DRV_OBS, 16, 15⟩
def R.DRV_CONF : Reg := ⟨.drv, 0x84, 0⟩
def F.DRV_CONF_CTH : Fld := ⟨R.DRV_CONF, 0, 15⟩
def F.DRV_CONF_IZERO : Fld := ⟨R.DRV_CONF, 16, 15⟩
def R.DRV_CATCH : Reg := ⟨.drv, 0x88, 0⟩
def F.DRV_CATCH_IPROBE : Fld := ⟨R.DRV_CATCH, 0, 15⟩
def F.DRV_CATCH_TPMAX : Fld := ⟨R.DRV_CATCH, 16, 8⟩
def R.DRV_PSRC : Reg := ⟨.drv, 0x8c, 0⟩
def F.DRV_PSRC_ASEL : Fld := ⟨R.DRV_PSRC, 0, 8⟩
def F.DRV_PSRC_PSEL : Fld := ⟨R.DRV_PSRC, 8, 8⟩
def F.DRV_PSRC_DLIM : Fld := ⟨R.DRV_PSRC, 16, 16⟩
def R.DRV_AOFS : Reg := ⟨.drv, 0x90, 0⟩
def F.DRV_AOFS_AOFS : Fld := ⟨R.DRV_AOFS, 0, 32⟩
def R.DRV_PSCALE : Reg := ⟨.drv, 0x94, 0⟩
def F.DRV_PSCALE_PSCALE : Fld := ⟨R.DRV_PSCALE, 0, 32⟩
def R.DRV_TQREF : Reg := ⟨.drv, 0xa0, 0⟩
def F.DRV_TQREF_VOTED : Fld := ⟨R.DRV_TQREF, 0, 16⟩
def F.DRV_TQREF_EFF : Fld := ⟨R.DRV_TQREF, 16, 16⟩
def R.DRV_FXREF : Reg := ⟨.drv, 0xa4, 0⟩
def F.DRV_FXREF_VOTED : Fld := ⟨R.DRV_FXREF, 0, 16⟩
def F.DRV_FXREF_EFF : Fld := ⟨R.DRV_FXREF, 16, 16⟩
def R.DRV_EST : Reg := ⟨.drv, 0xa8, 0⟩
def F.DRV_EST_TORQUE : Fld := ⟨R.DRV_EST, 0, 16⟩
def F.DRV_EST_FLUX : Fld := ⟨R.DRV_EST, 16, 16⟩
def R.DRV_IAB : Reg := ⟨.drv, 0xac, 0⟩
def F.DRV_IAB_IALPHA : Fld := ⟨R.DRV_IAB, 0, 16⟩
def F.DRV_IAB_IBETA : Fld := ⟨R.DRV_IAB, 16, 16⟩
def R.DRV_ANG_S : Reg := ⟨.drv, 0xb0, 0⟩
def F.DRV_ANG_S_THETA_S : Fld := ⟨R.DRV_ANG_S, 0, 32⟩
def R.DRV_ANG_E : Reg := ⟨.drv, 0xb4, 0⟩
def F.DRV_ANG_E_THETA_E : Fld := ⟨R.DRV_ANG_E, 0, 32⟩
def R.DRV_SPD : Reg := ⟨.drv, 0xb8, 0⟩
def F.DRV_SPD_SPEED : Fld := ⟨R.DRV_SPD, 0, 16⟩
def F.DRV_SPD_CONF : Fld := ⟨R.DRV_SPD, 16, 16⟩
def R.DRV_SDIFF : Reg := ⟨.drv, 0xbc, 0⟩
def F.DRV_SDIFF_SDIFF : Fld := ⟨R.DRV_SDIFF, 0, 32⟩
def R.DRV_POS_E : Reg := ⟨.drv, 0xc0, 0⟩
def F.DRV_POS_E_POS : Fld := ⟨R.DRV_POS_E, 0, 32⟩
def R.DRV_SPD_L : Reg := ⟨.drv, 0xc4, 0⟩
def F.DRV_SPD_L_SPD : Fld := ⟨R.DRV_SPD_L, 0, 32⟩
def R.DRV_EST_T : Reg := ⟨.drv, 0xc8, 0⟩
def F.DRV_EST_T_TIME : Fld := ⟨R.DRV_EST_T, 0, 32⟩
def R.DRV_DRAG : Reg := ⟨.drv, 0xcc, 0⟩
def F.DRV_DRAG_FF : Fld := ⟨R.DRV_DRAG, 0, 16⟩
def F.DRV_DRAG_NASC : Fld := ⟨R.DRV_DRAG, 16, 3⟩
def F.DRV_DRAG_NDRV : Fld := ⟨R.DRV_DRAG, 20, 3⟩
def R.DRV_CNT_0 : Reg := ⟨.drv, 0xd0, 0⟩
def F.DRV_CNT_0_OBSLOST : Fld := ⟨R.DRV_CNT_0, 0, 16⟩
def F.DRV_CNT_0_TAKEOVER : Fld := ⟨R.DRV_CNT_0, 16, 16⟩
def R.DRV_CNT_1 : Reg := ⟨.drv, 0xd4, 0⟩
def F.DRV_CNT_1_MINPH : Fld := ⟨R.DRV_CNT_1, 0, 16⟩
def F.DRV_CNT_1_GOVH : Fld := ⟨R.DRV_CNT_1, 16, 16⟩
def R.DRV_CNT_2 : Reg := ⟨.drv, 0xd8, 0⟩
def F.DRV_CNT_2_CLIM : Fld := ⟨R.DRV_CNT_2, 0, 16⟩
def F.DRV_CNT_2_SLATE : Fld := ⟨R.DRV_CNT_2, 16, 16⟩
def R.DRV_SWCNT_LO : Reg := ⟨.drv, 0xe0, 0⟩
def F.DRV_SWCNT_LO_CNT_LO : Fld := ⟨R.DRV_SWCNT_LO, 0, 32⟩
def R.DRV_SWCNT_HI : Reg := ⟨.drv, 0xe4, 0⟩
def F.DRV_SWCNT_HI_CNT_HI : Fld := ⟨R.DRV_SWCNT_HI, 0, 32⟩
def R.DRV_EVT : Reg := ⟨.drv, 0xf0, 0⟩
def F.DRV_EVT_STCHG : Fld := ⟨R.DRV_EVT, 0, 1⟩
def F.DRV_EVT_TAKEOVER : Fld := ⟨R.DRV_EVT, 1, 1⟩
def F.DRV_EVT_LOST : Fld := ⟨R.DRV_EVT, 2, 1⟩
def F.DRV_EVT_CAUGHT : Fld := ⟨R.DRV_EVT, 3, 1⟩
def F.DRV_EVT_NOREG : Fld := ⟨R.DRV_EVT, 4, 1⟩
def F.DRV_EVT_OVR : Fld := ⟨R.DRV_EVT, 5, 1⟩
def R.DRV_EVIE : Reg := ⟨.drv, 0xf4, 0⟩
def F.DRV_EVIE_EN : Fld := ⟨R.DRV_EVIE, 0, 6⟩

/-! Registers of block loop (05_loop_engines.md). -/

def R.LOOP_ECTL : Reg := ⟨.loop, 0x40, 0⟩
def F.LOOP_ECTL_RUN : Fld := ⟨R.LOOP_ECTL, 0, 1⟩
def F.LOOP_ECTL_DONE_IE : Fld := ⟨R.LOOP_ECTL, 1, 1⟩
def R.LOOP_DONE : Reg := ⟨.loop, 0x44, 0⟩
def F.LOOP_DONE_DONE : Fld := ⟨R.LOOP_DONE, 0, 1⟩
def R.LOOP_LOAD : Reg := ⟨.loop, 0x48, 0⟩
def F.LOOP_LOAD_LAST : Fld := ⟨R.LOOP_LOAD, 0, 16⟩
def F.LOOP_LOAD_MAX : Fld := ⟨R.LOOP_LOAD, 16, 16⟩
def R.LOOP_SHARE : Reg := ⟨.loop, 0x4c, 0⟩
def F.LOOP_SHARE_SHARE : Fld := ⟨R.LOOP_SHARE, 0, 2⟩
def R.LOOP_KVAL : Reg := ⟨.loop, 0x60, 4⟩
def F.LOOP_KVAL_VALUE : Fld := ⟨R.LOOP_KVAL, 0, 16⟩
def R.LOOP_IN : Reg := ⟨.loop, 0x80, 4⟩
def F.LOOP_IN_SEL : Fld := ⟨R.LOOP_IN, 0, 8⟩
def F.LOOP_IN_SHIFT : Fld := ⟨R.LOOP_IN, 8, 5⟩
def F.LOOP_IN_DEST : Fld := ⟨R.LOOP_IN, 16, 12⟩
def R.LOOP_OUT : Reg := ⟨.loop, 0xc0, 4⟩
def F.LOOP_OUT_OWNER : Fld := ⟨R.LOOP_OUT, 0, 3⟩
def F.LOOP_OUT_DEST : Fld := ⟨R.LOOP_OUT, 4, 2⟩
def F.LOOP_OUT_BRIDGE : Fld := ⟨R.LOOP_OUT, 6, 2⟩
def F.LOOP_OUT_VALUE : Fld := ⟨R.LOOP_OUT, 16, 16⟩
def R.LOOP_PRG_CTL : Reg := ⟨.loop, 0x100, 0x40⟩
def F.LOOP_PRG_CTL_EN : Fld := ⟨R.LOOP_PRG_CTL, 0, 1⟩
def F.LOOP_PRG_CTL_MULT : Fld := ⟨R.LOOP_PRG_CTL, 1, 6⟩
def F.LOOP_PRG_CTL_PHASE : Fld := ⟨R.LOOP_PRG_CTL, 7, 6⟩
def F.LOOP_PRG_CTL_ACTION : Fld := ⟨R.LOOP_PRG_CTL, 13, 2⟩
def F.LOOP_PRG_CTL_ACT : Fld := ⟨R.LOOP_PRG_CTL, 15, 3⟩
def R.LOOP_PRG_CODE : Reg := ⟨.loop, 0x104, 0x40⟩
def F.LOOP_PRG_CODE_ENTRY : Fld := ⟨R.LOOP_PRG_CODE, 0, 12⟩
def F.LOOP_PRG_CODE_CSIZE : Fld := ⟨R.LOOP_PRG_CODE, 16, 12⟩
def R.LOOP_PRG_DWIN : Reg := ⟨.loop, 0x108, 0x40⟩
def F.LOOP_PRG_DWIN_DBASE : Fld := ⟨R.LOOP_PRG_DWIN, 0, 12⟩
def F.LOOP_PRG_DWIN_DSIZE : Fld := ⟨R.LOOP_PRG_DWIN, 16, 12⟩
def R.LOOP_PRG_SRC : Reg := ⟨.loop, 0x10c, 0x40⟩
def F.LOOP_PRG_SRC_SEL_0 : Fld := ⟨R.LOOP_PRG_SRC, 0, 8⟩
def F.LOOP_PRG_SRC_SEL_1 : Fld := ⟨R.LOOP_PRG_SRC, 8, 8⟩
def F.LOOP_PRG_SRC_SEL_2 : Fld := ⟨R.LOOP_PRG_SRC, 16, 8⟩
def F.LOOP_PRG_SRC_ACTIVE : Fld := ⟨R.LOOP_PRG_SRC, 24, 2⟩
def F.LOOP_PRG_SRC_RESEL : Fld := ⟨R.LOOP_PRG_SRC, 28, 1⟩
def R.LOOP_PRG_SCL : Reg := ⟨.loop, 0x110, 0x40⟩
def F.LOOP_PRG_SCL_SHIFT_0 : Fld := ⟨R.LOOP_PRG_SCL, 0, 5⟩
def F.LOOP_PRG_SCL_SHIFT_1 : Fld := ⟨R.LOOP_PRG_SCL, 8, 5⟩
def F.LOOP_PRG_SCL_SHIFT_2 : Fld := ⟨R.LOOP_PRG_SCL, 16, 5⟩
def R.LOOP_PRG_SUP : Reg := ⟨.loop, 0x114, 0x40⟩
def F.LOOP_PRG_SUP_STALE : Fld := ⟨R.LOOP_PRG_SUP, 0, 8⟩
def F.LOOP_PRG_SUP_FRZ : Fld := ⟨R.LOOP_PRG_SUP, 8, 8⟩
def F.LOOP_PRG_SUP_EXC : Fld := ⟨R.LOOP_PRG_SUP, 16, 15⟩
def R.LOOP_PRG_BKC : Reg := ⟨.loop, 0x118, 0x40⟩
def F.LOOP_PRG_BKC_INTG : Fld := ⟨R.LOOP_PRG_BKC, 0, 12⟩
def F.LOOP_PRG_BKC_KP : Fld := ⟨R.LOOP_PRG_BKC, 12, 12⟩
def F.LOOP_PRG_BKC_KSH : Fld := ⟨R.LOOP_PRG_BKC, 24, 4⟩
def F.LOOP_PRG_BKC_BKEN : Fld := ⟨R.LOOP_PRG_BKC, 31, 1⟩
def R.LOOP_PRG_SP : Reg := ⟨.loop, 0x11c, 0x40⟩
def F.LOOP_PRG_SP_SP : Fld := ⟨R.LOOP_PRG_SP, 0, 16⟩
def R.LOOP_PRG_RAMP : Reg := ⟨.loop, 0x120, 0x40⟩
def F.LOOP_PRG_RAMP_RATE : Fld := ⟨R.LOOP_PRG_RAMP, 0, 15⟩
def F.LOOP_PRG_RAMP_RAMPZ : Fld := ⟨R.LOOP_PRG_RAMP, 16, 15⟩
def R.LOOP_PRG_STAT : Reg := ⟨.loop, 0x124, 0x40⟩
def F.LOOP_PRG_STAT_STATE : Fld := ⟨R.LOOP_PRG_STAT, 0, 3⟩
def F.LOOP_PRG_STAT_FAULT : Fld := ⟨R.LOOP_PRG_STAT, 3, 1⟩
def F.LOOP_PRG_STAT_HEALTH : Fld := ⟨R.LOOP_PRG_STAT, 4, 3⟩
def F.LOOP_PRG_STAT_SAT : Fld := ⟨R.LOOP_PRG_STAT, 7, 1⟩
def F.LOOP_PRG_STAT_FCODE : Fld := ⟨R.LOOP_PRG_STAT, 8, 4⟩
def F.LOOP_PRG_STAT_FPC : Fld := ⟨R.LOOP_PRG_STAT, 12, 12⟩
def F.LOOP_PRG_STAT_SWITCHES : Fld := ⟨R.LOOP_PRG_STAT, 24, 8⟩
def R.LOOP_PRG_RSP : Reg := ⟨.loop, 0x128, 0x40⟩
def F.LOOP_PRG_RSP_RSP : Fld := ⟨R.LOOP_PRG_RSP, 0, 16⟩
def F.LOOP_PRG_RSP_FBV : Fld := ⟨R.LOOP_PRG_RSP, 16, 16⟩
def R.LOOP_PRG_CYC : Reg := ⟨.loop, 0x12c, 0x40⟩
def F.LOOP_PRG_CYC_LAST : Fld := ⟨R.LOOP_PRG_CYC, 0, 16⟩
def F.LOOP_PRG_CYC_MAX : Fld := ⟨R.LOOP_PRG_CYC, 16, 16⟩

/-! Registers of block hk (16_thermal.md). -/

def R.HK_ROUND : Reg := ⟨.hk, 0x40, 0⟩
def F.HK_ROUND_COUNT : Fld := ⟨R.HK_ROUND, 0, 16⟩
def F.HK_ROUND_SLOT : Fld := ⟨R.HK_ROUND, 16, 5⟩
def F.HK_ROUND_REFOK : Fld := ⟨R.HK_ROUND, 21, 1⟩
def F.HK_ROUND_HELD : Fld := ⟨R.HK_ROUND, 22, 1⟩
def R.HK_LD : Reg := ⟨.hk, 0x44, 0⟩
def F.HK_LD_LDLIM : Fld := ⟨R.HK_LD, 0, 8⟩
def F.HK_LD_LDHOT : Fld := ⟨R.HK_LD, 8, 1⟩
def R.HK_TEMP : Reg := ⟨.hk, 0x80, 4⟩
def F.HK_TEMP_USE : Fld := ⟨R.HK_TEMP, 0, 16⟩
def F.HK_TEMP_SUSPECT : Fld := ⟨R.HK_TEMP, 16, 1⟩
def F.HK_TEMP_PRUNED : Fld := ⟨R.HK_TEMP, 17, 1⟩
def F.HK_TEMP_OPEN : Fld := ⟨R.HK_TEMP, 18, 1⟩
def R.HK_NBR : Reg := ⟨.hk, 0xa0, 4⟩
def F.HK_NBR_SET : Fld := ⟨R.HK_NBR, 0, 8⟩
def F.HK_NBR_BAND : Fld := ⟨R.HK_NBR, 8, 8⟩
def R.HK_TD_CFG : Reg := ⟨.hk, 0xc0, 4⟩
def F.HK_TD_CFG_KIND : Fld := ⟨R.HK_TD_CFG, 0, 2⟩
def F.HK_TD_CFG_NF : Fld := ⟨R.HK_TD_CFG, 4, 12⟩
def F.HK_TD_CFG_B : Fld := ⟨R.HK_TD_CFG, 16, 16⟩
def R.HK_THR : Reg := ⟨.hk, 0xd0, 4⟩
def F.HK_THR_TSTART : Fld := ⟨R.HK_THR, 0, 8⟩
def F.HK_THR_TSTEP : Fld := ⟨R.HK_THR, 8, 4⟩
def F.HK_THR_STEP : Fld := ⟨R.HK_THR, 16, 3⟩
def R.HK_SLOT : Reg := ⟨.hk, 0x100, 4⟩
def F.HK_SLOT_RAW : Fld := ⟨R.HK_SLOT, 0, 16⟩
def F.HK_SLOT_VAL : Fld := ⟨R.HK_SLOT, 16, 16⟩

/-! Registers of block bist (11_inservice_test_and_faults.md). -/

def R.BIST_SCHED : Reg := ⟨.bist, 0x40, 0⟩
def F.BIST_SCHED_EN : Fld := ⟨R.BIST_SCHED, 0, 1⟩
def F.BIST_SCHED_INT : Fld := ⟨R.BIST_SCHED, 8, 8⟩
def R.BIST_SLICE : Reg := ⟨.bist, 0x44, 0⟩
def F.BIST_SLICE_CLASS : Fld := ⟨R.BIST_SLICE, 0, 4⟩
def F.BIST_SLICE_INDEX : Fld := ⟨R.BIST_SLICE, 8, 4⟩
def F.BIST_SLICE_GO : Fld := ⟨R.BIST_SLICE, 12, 1⟩
def F.BIST_SLICE_BUSY : Fld := ⟨R.BIST_SLICE, 13, 1⟩
def F.BIST_SLICE_SCHED : Fld := ⟨R.BIST_SLICE, 14, 1⟩
def F.BIST_SLICE_DONE : Fld := ⟨R.BIST_SLICE, 15, 1⟩
def F.BIST_SLICE_RESULT : Fld := ⟨R.BIST_SLICE, 16, 3⟩
def R.BIST_SDUR : Reg := ⟨.bist, 0x48, 0⟩
def F.BIST_SDUR_DUR : Fld := ⟨R.BIST_SDUR, 0, 32⟩
def R.BIST_FCOV : Reg := ⟨.bist, 0x4c, 0⟩
def F.BIST_FCOV_SA : Fld := ⟨R.BIST_FCOV, 0, 16⟩
def F.BIST_FCOV_TR : Fld := ⟨R.BIST_FCOV, 16, 16⟩
def R.BIST_FRES : Reg := ⟨.bist, 0x50, 0⟩
def F.BIST_FRES_RESULT : Fld := ⟨R.BIST_FRES, 0, 2⟩
def F.BIST_FRES_FSTEP : Fld := ⟨R.BIST_FRES, 2, 3⟩
def F.BIST_FRES_DONE : Fld := ⟨R.BIST_FRES, 5, 1⟩
def F.BIST_FRES_DUR : Fld := ⟨R.BIST_FRES, 16, 16⟩
def R.BIST_FPART : Reg := ⟨.bist, 0x54, 0⟩
def F.BIST_FPART_PART : Fld := ⟨R.BIST_FPART, 0, 32⟩
def R.BIST_FSKIP : Reg := ⟨.bist, 0x58, 0⟩
def F.BIST_FSKIP_PART : Fld := ⟨R.BIST_FSKIP, 0, 32⟩
def R.BIST_PRUNE_0 : Reg := ⟨.bist, 0x60, 0⟩
def F.BIST_PRUNE_0_CNV : Fld := ⟨R.BIST_PRUNE_0, 0, 8⟩
def F.BIST_PRUNE_0_LOOP : Fld := ⟨R.BIST_PRUNE_0, 8, 4⟩
def F.BIST_PRUNE_0_DRV : Fld := ⟨R.BIST_PRUNE_0, 12, 4⟩
def F.BIST_PRUNE_0_POSCH : Fld := ⟨R.BIST_PRUNE_0, 16, 10⟩
def F.BIST_PRUNE_0_ICV : Fld := ⟨R.BIST_PRUNE_0, 26, 1⟩
def R.BIST_HELD_0 : Reg := ⟨.bist, 0x68, 0⟩
def F.BIST_HELD_0_CNV : Fld := ⟨R.BIST_HELD_0, 0, 8⟩
def F.BIST_HELD_0_LOOP : Fld := ⟨R.BIST_HELD_0, 8, 4⟩
def F.BIST_HELD_0_DRV : Fld := ⟨R.BIST_HELD_0, 12, 4⟩
def F.BIST_HELD_0_POSCH : Fld := ⟨R.BIST_HELD_0, 16, 10⟩
def F.BIST_HELD_0_ICV : Fld := ⟨R.BIST_HELD_0, 26, 1⟩
def R.BIST_PRUNE_1 : Reg := ⟨.bist, 0x64, 0⟩
def F.BIST_PRUNE_1_CAN : Fld := ⟨R.BIST_PRUNE_1, 0, 4⟩
def F.BIST_PRUNE_1_FLX : Fld := ⟨R.BIST_PRUNE_1, 4, 1⟩
def F.BIST_PRUNE_1_ETH : Fld := ⟨R.BIST_PRUNE_1, 5, 3⟩
def F.BIST_PRUNE_1_SRAM : Fld := ⟨R.BIST_PRUNE_1, 8, 8⟩
def F.BIST_PRUNE_1_CORE : Fld := ⟨R.BIST_PRUNE_1, 16, 3⟩
def F.BIST_PRUNE_1_SVC : Fld := ⟨R.BIST_PRUNE_1, 19, 1⟩
def R.BIST_HELD_1 : Reg := ⟨.bist, 0x6c, 0⟩
def F.BIST_HELD_1_CAN : Fld := ⟨R.BIST_HELD_1, 0, 4⟩
def F.BIST_HELD_1_FLX : Fld := ⟨R.BIST_HELD_1, 4, 1⟩
def F.BIST_HELD_1_ETH : Fld := ⟨R.BIST_HELD_1, 5, 3⟩
def F.BIST_HELD_1_SRAM : Fld := ⟨R.BIST_HELD_1, 8, 8⟩
def F.BIST_HELD_1_CORE : Fld := ⟨R.BIST_HELD_1, 16, 3⟩
def F.BIST_HELD_1_SVC : Fld := ⟨R.BIST_HELD_1, 19, 1⟩

/-! Registers of block alm (17_almanac_life_cycle.md). -/

def R.ALM_CTL : Reg := ⟨.alm, 0x40, 0⟩
def F.ALM_CTL_SNAP : Fld := ⟨R.ALM_CTL, 0, 1⟩
def F.ALM_CTL_WRITE : Fld := ⟨R.ALM_CTL, 1, 1⟩
def R.ALM_STAT : Reg := ⟨.alm, 0x44, 0⟩
def F.ALM_STAT_BUSY : Fld := ⟨R.ALM_STAT, 0, 1⟩
def F.ALM_STAT_SLOT : Fld := ⟨R.ALM_STAT, 1, 5⟩
def F.ALM_STAT_CALSTALE : Fld := ⟨R.ALM_STAT, 6, 1⟩
def F.ALM_STAT_LOST : Fld := ⟨R.ALM_STAT, 8, 8⟩
def R.ALM_CAL : Reg := ⟨.alm, 0x48, 0⟩
def F.ALM_CAL_SEC : Fld := ⟨R.ALM_CAL, 0, 32⟩
def R.ALM_CALSET : Reg := ⟨.alm, 0x4c, 0⟩
def F.ALM_CALSET_SEC : Fld := ⟨R.ALM_CALSET, 0, 32⟩
def R.ALM_WAKEAT : Reg := ⟨.alm, 0x50, 0⟩
def F.ALM_WAKEAT_SEC : Fld := ⟨R.ALM_WAKEAT, 0, 32⟩

/-! Registers of block can (12_can.md). -/

def R.CAN_MODE : Reg := ⟨.can, 0x40, 0⟩
def F.CAN_MODE_EN : Fld := ⟨R.CAN_MODE, 0, 1⟩
def F.CAN_MODE_FDOE : Fld := ⟨R.CAN_MODE, 1, 1⟩
def F.CAN_MODE_XLOE : Fld := ⟨R.CAN_MODE, 2, 1⟩
def F.CAN_MODE_XLTMS : Fld := ⟨R.CAN_MODE, 3, 1⟩
def F.CAN_MODE_BOAUTO : Fld := ⟨R.CAN_MODE, 4, 1⟩
def F.CAN_MODE_LISTEN : Fld := ⟨R.CAN_MODE, 5, 1⟩
def F.CAN_MODE_TXPRIO : Fld := ⟨R.CAN_MODE, 6, 1⟩
def F.CAN_MODE_ONE_SHOT_ON_COLLIDE : Fld := ⟨R.CAN_MODE, 7, 1⟩
def F.CAN_MODE_LBACK : Fld := ⟨R.CAN_MODE, 8, 1⟩
def R.CAN_NBT : Reg := ⟨.can, 0x44, 0⟩
def F.CAN_NBT_BRP : Fld := ⟨R.CAN_NBT, 0, 8⟩
def F.CAN_NBT_TSEG1 : Fld := ⟨R.CAN_NBT, 8, 9⟩
def F.CAN_NBT_TSEG2 : Fld := ⟨R.CAN_NBT, 17, 7⟩
def F.CAN_NBT_SJW : Fld := ⟨R.CAN_NBT, 24, 7⟩
def R.CAN_DBT : Reg := ⟨.can, 0x48, 0⟩
def F.CAN_DBT_BRP : Fld := ⟨R.CAN_DBT, 0, 8⟩
def F.CAN_DBT_TSEG1 : Fld := ⟨R.CAN_DBT, 8, 8⟩
def F.CAN_DBT_TSEG2 : Fld := ⟨R.CAN_DBT, 16, 5⟩
def F.CAN_DBT_SJW : Fld := ⟨R.CAN_DBT, 24, 5⟩
def R.CAN_XBT : Reg := ⟨.can, 0x4c, 0⟩
def F.CAN_XBT_BRP : Fld := ⟨R.CAN_XBT, 0, 8⟩
def F.CAN_XBT_TSEG1 : Fld := ⟨R.CAN_XBT, 8, 8⟩
def F.CAN_XBT_TSEG2 : Fld := ⟨R.CAN_XBT, 16, 5⟩
def F.CAN_XBT_SJW : Fld := ⟨R.CAN_XBT, 24, 5⟩
def R.CAN_TDC : Reg := ⟨.can, 0x50, 0⟩
def F.CAN_TDC_TDCO : Fld := ⟨R.CAN_TDC, 0, 8⟩
def F.CAN_TDC_TDCEN : Fld := ⟨R.CAN_TDC, 8, 1⟩
def F.CAN_TDC_TDCV : Fld := ⟨R.CAN_TDC, 16, 8⟩
def F.CAN_TDC_XTDCO : Fld := ⟨R.CAN_TDC, 24, 8⟩
def R.CAN_XLPWM : Reg := ⟨.can, 0x54, 0⟩
def F.CAN_XLPWM_PWMS : Fld := ⟨R.CAN_XLPWM, 0, 6⟩
def F.CAN_XLPWM_PWML : Fld := ⟨R.CAN_XLPWM, 8, 6⟩
def F.CAN_XLPWM_PWMO : Fld := ⟨R.CAN_XLPWM, 16, 6⟩
def R.CAN_ERR : Reg := ⟨.can, 0x58, 0⟩
def F.CAN_ERR_TEC : Fld := ⟨R.CAN_ERR, 0, 8⟩
def F.CAN_ERR_REC : Fld := ⟨R.CAN_ERR, 8, 8⟩
def F.CAN_ERR_EP : Fld := ⟨R.CAN_ERR, 16, 1⟩
def F.CAN_ERR_BO : Fld := ⟨R.CAN_ERR, 17, 1⟩
def F.CAN_ERR_LEC : Fld := ⟨R.CAN_ERR, 18, 3⟩
def F.CAN_ERR_RECOVER : Fld := ⟨R.CAN_ERR, 24, 1⟩
def R.CAN_CNT : Reg := ⟨.can, 0x5c, 0⟩
def F.CAN_CNT_RXDROP : Fld := ⟨R.CAN_CNT, 0, 8⟩
def F.CAN_CNT_LATE : Fld := ⟨R.CAN_CNT, 8, 8⟩
def F.CAN_CNT_COLL : Fld := ⟨R.CAN_CNT, 16, 8⟩
def F.CAN_CNT_HOLDOVF : Fld := ⟨R.CAN_CNT, 24, 8⟩
def R.CAN_TXRQ : Reg := ⟨.can, 0x80, 4⟩
def F.CAN_TXRQ_OBJ : Fld := ⟨R.CAN_TXRQ, 0, 32⟩
def R.CAN_TXCAN : Reg := ⟨.can, 0x90, 4⟩
def F.CAN_TXCAN_OBJ : Fld := ⟨R.CAN_TXCAN, 0, 32⟩
def R.CAN_TXEV : Reg := ⟨.can, 0xa0, 4⟩
def F.CAN_TXEV_OBJ : Fld := ⟨R.CAN_TXEV, 0, 32⟩
def R.CAN_RXEV : Reg := ⟨.can, 0xb0, 4⟩
def F.CAN_RXEV_OBJ : Fld := ⟨R.CAN_RXEV, 0, 32⟩
def R.CAN_EVIE : Reg := ⟨.can, 0xc0, 0⟩
def F.CAN_EVIE_TX : Fld := ⟨R.CAN_EVIE, 0, 1⟩
def F.CAN_EVIE_RX : Fld := ⟨R.CAN_EVIE, 1, 1⟩
def R.CAN_WAKE : Reg := ⟨.can, 0x100, 0⟩
def F.CAN_WAKE_WMODE : Fld := ⟨R.CAN_WAKE, 0, 2⟩
def F.CAN_WAKE_WFILT : Fld := ⟨R.CAN_WAKE, 2, 6⟩
def F.CAN_WAKE_WRATE : Fld := ⟨R.CAN_WAKE, 8, 2⟩
def F.CAN_WAKE_WDLCEN : Fld := ⟨R.CAN_WAKE, 10, 1⟩
def F.CAN_WAKE_WDLC : Fld := ⟨R.CAN_WAKE, 11, 4⟩
def R.CAN_WKID : Reg := ⟨.can, 0x104, 0⟩
def F.CAN_WKID_ID : Fld := ⟨R.CAN_WKID, 0, 29⟩
def F.CAN_WKID_IDE : Fld := ⟨R.CAN_WKID, 29, 1⟩
def R.CAN_WKMASK : Reg := ⟨.can, 0x108, 0⟩
def F.CAN_WKMASK_ID : Fld := ⟨R.CAN_WKMASK, 0, 29⟩
def F.CAN_WKMASK_IDE : Fld := ⟨R.CAN_WKMASK, 29, 1⟩
def R.CAN_WKDATA : Reg := ⟨.can, 0x10c, 4⟩
def F.CAN_WKDATA_DATA : Fld := ⟨R.CAN_WKDATA, 0, 32⟩
def R.CAN_WKDMASK : Reg := ⟨.can, 0x114, 4⟩
def F.CAN_WKDMASK_DATA : Fld := ⟨R.CAN_WKDMASK, 0, 32⟩
def R.CAN_WKSTAT : Reg := ⟨.can, 0x11c, 0⟩
def F.CAN_WKSTAT_CAUSE : Fld := ⟨R.CAN_WKSTAT, 0, 2⟩
def F.CAN_WKSTAT_FEC : Fld := ⟨R.CAN_WKSTAT, 2, 6⟩
def F.CAN_WKSTAT_WOKE : Fld := ⟨R.CAN_WKSTAT, 8, 1⟩

/-! Registers of block flx (13_flexray.md). -/

def R.FLX_CTL : Reg := ⟨.flx, 0x40, 0⟩
def F.FLX_CTL_EN : Fld := ⟨R.FLX_CTL, 0, 1⟩
def F.FLX_CTL_RATE : Fld := ⟨R.FLX_CTL, 1, 2⟩
def F.FLX_CTL_ROLE : Fld := ⟨R.FLX_CTL, 3, 2⟩
def F.FLX_CTL_CAUT : Fld := ⟨R.FLX_CTL, 5, 1⟩
def F.FLX_CTL_CHEN : Fld := ⟨R.FLX_CTL, 6, 2⟩
def F.FLX_CTL_AUTOREINT : Fld := ⟨R.FLX_CTL, 8, 1⟩
def F.FLX_CTL_WAKETX : Fld := ⟨R.FLX_CTL, 9, 1⟩
def F.FLX_CTL_WAKECH : Fld := ⟨R.FLX_CTL, 10, 1⟩
def R.FLX_CYC : Reg := ⟨.flx, 0x44, 0⟩
def F.FLX_CYC_MPC : Fld := ⟨R.FLX_CYC, 0, 14⟩
def F.FLX_CYC_NSS : Fld := ⟨R.FLX_CYC, 14, 10⟩
def R.FLX_SLOT : Reg := ⟨.flx, 0x48, 0⟩
def F.FLX_SLOT_SSL : Fld := ⟨R.FLX_SLOT, 0, 10⟩
def F.FLX_SLOT_APO : Fld := ⟨R.FLX_SLOT, 10, 6⟩
def F.FLX_SLOT_MSL : Fld := ⟨R.FLX_SLOT, 16, 8⟩
def F.FLX_SLOT_MSAPO : Fld := ⟨R.FLX_SLOT, 24, 8⟩
def R.FLX_DYN : Reg := ⟨.flx, 0x4c, 0⟩
def F.FLX_DYN_NMS : Fld := ⟨R.FLX_DYN, 0, 13⟩
def F.FLX_DYN_LATEST : Fld := ⟨R.FLX_DYN, 13, 13⟩
def R.FLX_KEY : Reg := ⟨.flx, 0x50, 0⟩
def F.FLX_KEY_KEYSLOT : Fld := ⟨R.FLX_KEY, 0, 10⟩
def F.FLX_KEY_SW : Fld := ⟨R.FLX_KEY, 10, 8⟩
def F.FLX_KEY_UPM : Fld := ⟨R.FLX_KEY, 18, 4⟩
def R.FLX_INTEG : Reg := ⟨.flx, 0x54, 0⟩
def F.FLX_INTEG_CSATT : Fld := ⟨R.FLX_INTEG, 0, 5⟩
def F.FLX_INTEG_STAGGER : Fld := ⟨R.FLX_INTEG, 8, 8⟩
def F.FLX_INTEG_APWIN : Fld := ⟨R.FLX_INTEG, 16, 8⟩
def F.FLX_INTEG_SYNCMIN : Fld := ⟨R.FLX_INTEG, 24, 4⟩
def R.FLX_CCLIM : Reg := ⟨.flx, 0x58, 0⟩
def F.FLX_CCLIM_OLIM : Fld := ⟨R.FLX_CCLIM, 0, 8⟩
def F.FLX_CCLIM_RLIM : Fld := ⟨R.FLX_CCLIM, 8, 8⟩
def F.FLX_CCLIM_PCP : Fld := ⟨R.FLX_CCLIM, 16, 4⟩
def F.FLX_CCLIM_MAXPASS : Fld := ⟨R.FLX_CCLIM, 20, 8⟩
def R.FLX_POC : Reg := ⟨.flx, 0x5c, 0⟩
def F.FLX_POC_STATE : Fld := ⟨R.FLX_POC, 0, 3⟩
def F.FLX_POC_CAUTHOLD : Fld := ⟨R.FLX_POC, 3, 1⟩
def F.FLX_POC_TXINH : Fld := ⟨R.FLX_POC, 4, 1⟩
def F.FLX_POC_COLDINH : Fld := ⟨R.FLX_POC, 5, 1⟩
def F.FLX_POC_PCAUSE : Fld := ⟨R.FLX_POC, 6, 2⟩
def F.FLX_POC_CYCLE : Fld := ⟨R.FLX_POC, 8, 6⟩
def F.FLX_POC_SYNCA : Fld := ⟨R.FLX_POC, 14, 4⟩
def F.FLX_POC_SYNCB : Fld := ⟨R.FLX_POC, 18, 4⟩
def F.FLX_POC_WCAUSE : Fld := ⟨R.FLX_POC, 22, 3⟩
def R.FLX_CORR : Reg := ⟨.flx, 0x60, 0⟩
def F.FLX_CORR_OFS : Fld := ⟨R.FLX_CORR, 0, 16⟩
def F.FLX_CORR_RATE : Fld := ⟨R.FLX_CORR, 16, 16⟩
def R.FLX_MTCS : Reg := ⟨.flx, 0x64, 0⟩
def F.FLX_MTCS_TIME : Fld := ⟨R.FLX_MTCS, 0, 32⟩
def R.FLX_MTPER : Reg := ⟨.flx, 0x68, 0⟩
def F.FLX_MTPER_TIME : Fld := ⟨R.FLX_MTPER, 0, 32⟩
def R.FLX_CPI : Reg := ⟨.flx, 0x70, 4⟩
def F.FLX_CPI_MT : Fld := ⟨R.FLX_CPI, 0, 14⟩
def F.FLX_CPI_CYCBASE : Fld := ⟨R.FLX_CPI, 14, 6⟩
def F.FLX_CPI_CYCREP : Fld := ⟨R.FLX_CPI, 20, 3⟩
def F.FLX_CPI_EN : Fld := ⟨R.FLX_CPI, 23, 1⟩
def R.FLX_EVT : Reg := ⟨.flx, 0x80, 0⟩
def F.FLX_EVT_CPI : Fld := ⟨R.FLX_EVT, 0, 4⟩
def F.FLX_EVT_CYCST : Fld := ⟨R.FLX_EVT, 4, 1⟩
def F.FLX_EVT_POCCHG : Fld := ⟨R.FLX_EVT, 5, 1⟩
def F.FLX_EVT_IE : Fld := ⟨R.FLX_EVT, 8, 6⟩
def R.FLX_CNT : Reg := ⟨.flx, 0x84, 0⟩
def F.FLX_CNT_SBV : Fld := ⟨R.FLX_CNT, 0, 8⟩
def F.FLX_CNT_SYNTAX : Fld := ⟨R.FLX_CNT, 8, 8⟩
def F.FLX_CNT_DYNLATE : Fld := ⟨R.FLX_CNT, 16, 8⟩
def F.FLX_CNT_REINT : Fld := ⟨R.FLX_CNT, 24, 8⟩
def R.FLX_TXRQ : Reg := ⟨.flx, 0x90, 4⟩
def F.FLX_TXRQ_BUF : Fld := ⟨R.FLX_TXRQ, 0, 32⟩
def R.FLX_TXEV : Reg := ⟨.flx, 0xa0, 4⟩
def F.FLX_TXEV_BUF : Fld := ⟨R.FLX_TXEV, 0, 32⟩
def R.FLX_RXEV : Reg := ⟨.flx, 0xb0, 4⟩
def F.FLX_RXEV_BUF : Fld := ⟨R.FLX_RXEV, 0, 32⟩
def R.FLX_EVIE : Reg := ⟨.flx, 0xc0, 0⟩
def F.FLX_EVIE_TX : Fld := ⟨R.FLX_EVIE, 0, 1⟩
def F.FLX_EVIE_RX : Fld := ⟨R.FLX_EVIE, 1, 1⟩

/-! Registers of block eth (14_ethernet_twin_path.md). -/

def R.ETH_PORT_CFG : Reg := ⟨.eth, 0x40, 0x10⟩
def F.ETH_PORT_CFG_EN : Fld := ⟨R.ETH_PORT_CFG, 0, 1⟩
def F.ETH_PORT_CFG_SPD : Fld := ⟨R.ETH_PORT_CFG, 1, 1⟩
def F.ETH_PORT_CFG_ANEG : Fld := ⟨R.ETH_PORT_CFG, 2, 1⟩
def F.ETH_PORT_CFG_PLCA : Fld := ⟨R.ETH_PORT_CFG, 3, 1⟩
def F.ETH_PORT_CFG_PVID : Fld := ⟨R.ETH_PORT_CFG, 4, 12⟩
def R.ETH_PORT_STAT : Reg := ⟨.eth, 0x44, 0x10⟩
def F.ETH_PORT_STAT_LINK : Fld := ⟨R.ETH_PORT_STAT, 0, 1⟩
def F.ETH_PORT_STAT_LCHG : Fld := ⟨R.ETH_PORT_STAT, 1, 1⟩
def F.ETH_PORT_STAT_RXERR : Fld := ⟨R.ETH_PORT_STAT, 8, 8⟩
def F.ETH_PORT_STAT_TXDROP : Fld := ⟨R.ETH_PORT_STAT, 16, 8⟩
def R.ETH_PORT_DLY : Reg := ⟨.eth, 0x48, 0x10⟩
def F.ETH_PORT_DLY_RXD : Fld := ⟨R.ETH_PORT_DLY, 0, 16⟩
def F.ETH_PORT_DLY_TXD : Fld := ⟨R.ETH_PORT_DLY, 16, 16⟩
def R.ETH_T1S : Reg := ⟨.eth, 0x70, 0⟩
def F.ETH_T1S_NODEID : Fld := ⟨R.ETH_T1S, 0, 8⟩
def F.ETH_T1S_NCNT : Fld := ⟨R.ETH_T1S, 8, 8⟩
def F.ETH_T1S_TOTMR : Fld := ⟨R.ETH_T1S, 16, 8⟩
def F.ETH_T1S_T1SWAKE : Fld := ⟨R.ETH_T1S, 24, 6⟩
def F.ETH_T1S_FALLBK : Fld := ⟨R.ETH_T1S, 30, 1⟩
def R.ETH_PTP : Reg := ⟨.eth, 0x74, 0⟩
def F.ETH_PTP_DOMV : Fld := ⟨R.ETH_PTP, 0, 8⟩
def F.ETH_PTP_DOMMT : Fld := ⟨R.ETH_PTP, 8, 8⟩
def F.ETH_PTP_PRIO1 : Fld := ⟨R.ETH_PTP, 16, 8⟩
def F.ETH_PTP_GMMT : Fld := ⟨R.ETH_PTP, 24, 1⟩
def F.ETH_PTP_SLVV : Fld := ⟨R.ETH_PTP, 25, 1⟩
def R.ETH_PTP_OFSV : Reg := ⟨.eth, 0x78, 0⟩
def F.ETH_PTP_OFSV_OFS : Fld := ⟨R.ETH_PTP_OFSV, 0, 32⟩
def R.ETH_QBV : Reg := ⟨.eth, 0x80, 4⟩
def F.ETH_QBV_EN : Fld := ⟨R.ETH_QBV, 0, 1⟩
def F.ETH_QBV_SWAP : Fld := ⟨R.ETH_QBV, 1, 1⟩
def F.ETH_QBV_PEND : Fld := ⟨R.ETH_QBV, 2, 1⟩
def F.ETH_QBV_LEN : Fld := ⟨R.ETH_QBV, 3, 7⟩

/-! Registers of block twp (14_ethernet_twin_path.md). -/

def R.TWP_CFG : Reg := ⟨.twp, 0x40, 0⟩
def F.TWP_CFG_ETYPE : Fld := ⟨R.TWP_CFG, 0, 16⟩
def F.TWP_CFG_MOD : Fld := ⟨R.TWP_CFG, 16, 1⟩
def R.TWP_TXREQ : Reg := ⟨.twp, 0x44, 0⟩
def F.TWP_TXREQ_ENTRY : Fld := ⟨R.TWP_TXREQ, 0, 6⟩
def R.TWP_TXSEQ : Reg := ⟨.twp, 0x48, 0⟩
def F.TWP_TXSEQ_SEQ : Fld := ⟨R.TWP_TXSEQ, 0, 32⟩
def R.TWP_PAIROFS : Reg := ⟨.twp, 0x4c, 0⟩
def F.TWP_PAIROFS_OFS : Fld := ⟨R.TWP_PAIROFS, 0, 28⟩
def F.TWP_PAIROFS_FROZEN : Fld := ⟨R.TWP_PAIROFS, 28, 1⟩
def F.TWP_PAIROFS_SILENT : Fld := ⟨R.TWP_PAIROFS, 29, 1⟩
def F.TWP_PAIROFS_VALID : Fld := ⟨R.TWP_PAIROFS, 30, 1⟩
def R.TWP_RXQ : Reg := ⟨.twp, 0x50, 0⟩
def F.TWP_RXQ_COUNT : Fld := ⟨R.TWP_RXQ, 0, 6⟩
def F.TWP_RXQ_DEGR : Fld := ⟨R.TWP_RXQ, 6, 1⟩
def F.TWP_RXQ_ENTRY : Fld := ⟨R.TWP_RXQ, 8, 6⟩
def F.TWP_RXQ_POP : Fld := ⟨R.TWP_RXQ, 14, 1⟩

/-! Registers of block preq (15_power_domains.md). -/

def R.PREQ_CFG : Reg := ⟨.preq, 0x40, 0⟩
def F.PREQ_CFG_RAMPTO : Fld := ⟨R.PREQ_CFG, 0, 8⟩
def R.PREQ_CMD : Reg := ⟨.preq, 0x44, 0⟩
def F.PREQ_CMD_CMD : Fld := ⟨R.PREQ_CMD, 0, 4⟩
def F.PREQ_CMD_RAIL : Fld := ⟨R.PREQ_CMD, 4, 4⟩
def F.PREQ_CMD_VALUE : Fld := ⟨R.PREQ_CMD, 8, 12⟩
def R.PREQ_STAT : Reg := ⟨.preq, 0x48, 0⟩
def F.PREQ_STAT_BUSY : Fld := ⟨R.PREQ_STAT, 0, 1⟩
def F.PREQ_STAT_FAULT : Fld := ⟨R.PREQ_STAT, 1, 1⟩
def F.PREQ_STAT_LASTST : Fld := ⟨R.PREQ_STAT, 4, 4⟩
def F.PREQ_STAT_SEQ : Fld := ⟨R.PREQ_STAT, 8, 4⟩
def F.PREQ_STAT_RETRY : Fld := ⟨R.PREQ_STAT, 12, 2⟩
def R.PREQ_RAIL : Reg := ⟨.preq, 0x50, 4⟩
def F.PREQ_RAIL_TARGET : Fld := ⟨R.PREQ_RAIL, 0, 12⟩
def F.PREQ_RAIL_MEAS : Fld := ⟨R.PREQ_RAIL, 16, 12⟩
def R.PREQ_CNT : Reg := ⟨.preq, 0x60, 0⟩
def F.PREQ_CNT_TMO : Fld := ⟨R.PREQ_CNT, 0, 8⟩
def F.PREQ_CNT_CRCERR : Fld := ⟨R.PREQ_CNT, 8, 8⟩
def F.PREQ_CNT_NAK : Fld := ⟨R.PREQ_CNT, 16, 8⟩

/-! Registers of block msup (11_inservice_test_and_faults.md). -/

def R.MSUP_CFG : Reg := ⟨.msup, 0x40, 0⟩
def F.MSUP_CFG_WEAKTH : Fld := ⟨R.MSUP_CFG, 0, 8⟩
def F.MSUP_CFG_CETH : Fld := ⟨R.MSUP_CFG, 8, 8⟩
def R.MSUP_PASS : Reg := ⟨.msup, 0x44, 0⟩
def F.MSUP_PASS_COUNT : Fld := ⟨R.MSUP_PASS, 0, 16⟩
def F.MSUP_PASS_LASTMS : Fld := ⟨R.MSUP_PASS, 16, 8⟩
def F.MSUP_PASS_LATE : Fld := ⟨R.MSUP_PASS, 24, 1⟩
def R.MSUP_CE : Reg := ⟨.msup, 0x48, 0⟩
def F.MSUP_CE_LAST : Fld := ⟨R.MSUP_CE, 0, 16⟩
def F.MSUP_CE_TOTAL : Fld := ⟨R.MSUP_CE, 16, 16⟩
def R.MSUP_UE : Reg := ⟨.msup, 0x4c, 0⟩
def F.MSUP_UE_COUNT : Fld := ⟨R.MSUP_UE, 0, 16⟩
def F.MSUP_UE_POISON : Fld := ⟨R.MSUP_UE, 16, 16⟩
def R.MSUP_ADDR : Reg := ⟨.msup, 0x50, 0⟩
def F.MSUP_ADDR_ADDR : Fld := ⟨R.MSUP_ADDR, 0, 32⟩
def R.MSUP_LAST : Reg := ⟨.msup, 0x54, 0⟩
def F.MSUP_LAST_KIND : Fld := ⟨R.MSUP_LAST, 0, 2⟩
def F.MSUP_LAST_SCRUB : Fld := ⟨R.MSUP_LAST, 2, 1⟩
def F.MSUP_LAST_ADDRERR : Fld := ⟨R.MSUP_LAST, 3, 1⟩
def R.MSUP_SRAM : Reg := ⟨.msup, 0x58, 0⟩
def F.MSUP_SRAM_PRUNED : Fld := ⟨R.MSUP_SRAM, 0, 8⟩
def F.MSUP_SRAM_REMAP : Fld := ⟨R.MSUP_SRAM, 8, 8⟩
def F.MSUP_SRAM_RESERVE : Fld := ⟨R.MSUP_SRAM, 16, 1⟩
def F.MSUP_SRAM_WEAK : Fld := ⟨R.MSUP_SRAM, 24, 8⟩
def R.MSUP_REPAIR : Reg := ⟨.msup, 0x5c, 0⟩
def F.MSUP_REPAIR_TRIO : Fld := ⟨R.MSUP_REPAIR, 0, 5⟩
def F.MSUP_REPAIR_SVC : Fld := ⟨R.MSUP_REPAIR, 8, 5⟩
def F.MSUP_REPAIR_NVM : Fld := ⟨R.MSUP_REPAIR, 16, 8⟩
def R.MSUP_DECCHK : Reg := ⟨.msup, 0x60, 0⟩
def F.MSUP_DECCHK_RUNS : Fld := ⟨R.MSUP_DECCHK, 0, 24⟩
def F.MSUP_DECCHK_LAST_OK : Fld := ⟨R.MSUP_DECCHK, 24, 1⟩

/-! Registers of block gd (07_hedge_gate_drive.md). -/

def R.GD_DT : Reg := ⟨.gd, 0x40, 0⟩
def F.GD_DT_DT_0 : Fld := ⟨R.GD_DT, 0, 2⟩
def F.GD_DT_DT_1 : Fld := ⟨R.GD_DT, 2, 2⟩
def F.GD_DT_DT_2 : Fld := ⟨R.GD_DT, 4, 2⟩
def F.GD_DT_DT_3 : Fld := ⟨R.GD_DT, 6, 2⟩
def F.GD_DT_FUSED : Fld := ⟨R.GD_DT, 8, 4⟩
def R.GD_DTFUSE : Reg := ⟨.gd, 0x44, 0⟩
def F.GD_DTFUSE_KEY : Fld := ⟨R.GD_DTFUSE, 0, 16⟩
def F.GD_DTFUSE_BRIDGE : Fld := ⟨R.GD_DTFUSE, 16, 2⟩
def F.GD_DTFUSE_CODE : Fld := ⟨R.GD_DTFUSE, 18, 2⟩
def R.GD_VCMD : Reg := ⟨.gd, 0x48, 0⟩
def F.GD_VCMD_ENA_P : Fld := ⟨R.GD_VCMD, 0, 4⟩
def F.GD_VCMD_ASC_P : Fld := ⟨R.GD_VCMD, 4, 4⟩
def F.GD_VCMD_ENA : Fld := ⟨R.GD_VCMD, 8, 4⟩
def F.GD_VCMD_ASC : Fld := ⟨R.GD_VCMD, 12, 4⟩
def F.GD_VCMD_ALONE : Fld := ⟨R.GD_VCMD, 16, 1⟩
def R.GD_GMODE : Reg := ⟨.gd, 0x4c, 0⟩
def F.GD_GMODE_MODE_0 : Fld := ⟨R.GD_GMODE, 0, 4⟩
def F.GD_GMODE_MODE_1 : Fld := ⟨R.GD_GMODE, 4, 4⟩
def F.GD_GMODE_MODE_2 : Fld := ⟨R.GD_GMODE, 8, 4⟩
def F.GD_GMODE_MODE_3 : Fld := ⟨R.GD_GMODE, 12, 4⟩
def F.GD_GMODE_GRDY : Fld := ⟨R.GD_GMODE, 16, 4⟩
def F.GD_GMODE_HASC : Fld := ⟨R.GD_GMODE, 20, 4⟩
def F.GD_GMODE_HOFF : Fld := ⟨R.GD_GMODE, 24, 4⟩
def R.GD_LSTOP : Reg := ⟨.gd, 0x50, 0⟩
def F.GD_LSTOP_LEGTO : Fld := ⟨R.GD_LSTOP, 0, 1⟩
def F.GD_LSTOP_CLKMON : Fld := ⟨R.GD_LSTOP, 1, 1⟩
def F.GD_LSTOP_REMOVED : Fld := ⟨R.GD_LSTOP, 2, 1⟩
def F.GD_LSTOP_XINH : Fld := ⟨R.GD_LSTOP, 3, 1⟩
def F.GD_LSTOP_OV3 : Fld := ⟨R.GD_LSTOP, 4, 1⟩
def F.GD_LSTOP_STOPIN : Fld := ⟨R.GD_LSTOP, 5, 1⟩
def F.GD_LSTOP_VMUV : Fld := ⟨R.GD_LSTOP, 6, 1⟩
def F.GD_LSTOP_HSTOP : Fld := ⟨R.GD_LSTOP, 8, 1⟩
def F.GD_LSTOP_CLR : Fld := ⟨R.GD_LSTOP, 16, 1⟩
def R.GD_UVLO : Reg := ⟨.gd, 0x54, 0⟩
def F.GD_UVLO_HS : Fld := ⟨R.GD_UVLO, 0, 12⟩
def F.GD_UVLO_LS : Fld := ⟨R.GD_UVLO, 12, 4⟩
def F.GD_UVLO_CP : Fld := ⟨R.GD_UVLO, 16, 1⟩
def R.GD_ILK : Reg := ⟨.gd, 0x58, 0⟩
def F.GD_ILK_CNT_0 : Fld := ⟨R.GD_ILK, 0, 5⟩
def F.GD_ILK_CNT_1 : Fld := ⟨R.GD_ILK, 8, 5⟩
def F.GD_ILK_CNT_2 : Fld := ⟨R.GD_ILK, 16, 5⟩
def F.GD_ILK_CNT_3 : Fld := ⟨R.GD_ILK, 24, 5⟩
def R.GD_STO : Reg := ⟨.gd, 0x5c, 0⟩
def F.GD_STO_PIN : Fld := ⟨R.GD_STO, 0, 1⟩
def F.GD_STO_ACT : Fld := ⟨R.GD_STO, 4, 4⟩
def F.GD_STO_HSF : Fld := ⟨R.GD_STO, 8, 4⟩
def F.GD_STO_ILK : Fld := ⟨R.GD_STO, 12, 4⟩
def R.GD_SOPT : Reg := ⟨.gd, 0x60, 0⟩
def F.GD_SOPT_EN : Fld := ⟨R.GD_SOPT, 0, 1⟩
def F.GD_SOPT_INT : Fld := ⟨R.GD_SOPT, 8, 8⟩
def R.GD_SOPFAIL : Reg := ⟨.gd, 0x64, 0⟩
def F.GD_SOPFAIL_FAIL : Fld := ⟨R.GD_SOPFAIL, 0, 25⟩
def R.GD_SOPOVD : Reg := ⟨.gd, 0x68, 0⟩
def F.GD_SOPOVD_OVD : Fld := ⟨R.GD_SOPOVD, 0, 25⟩
def R.GD_ALIVE : Reg := ⟨.gd, 0x6c, 0⟩
def F.GD_ALIVE_KEY : Fld := ⟨R.GD_ALIVE, 0, 16⟩
def F.GD_ALIVE_RUN : Fld := ⟨R.GD_ALIVE, 16, 1⟩
def F.GD_ALIVE_KICK : Fld := ⟨R.GD_ALIVE, 17, 1⟩
def F.GD_ALIVE_MISS : Fld := ⟨R.GD_ALIVE, 24, 8⟩

/-! Registers of block prot (07_hedge_gate_drive.md). -/

def R.PROT_OV : Reg := ⟨.prot, 0x40, 0⟩
def F.PROT_OV_OV1 : Fld := ⟨R.PROT_OV, 0, 10⟩
def F.PROT_OV_OV2 : Fld := ⟨R.PROT_OV, 16, 10⟩
def R.PROT_VM : Reg := ⟨.prot, 0x44, 0⟩
def F.PROT_VM_OVR1 : Fld := ⟨R.PROT_VM, 0, 1⟩
def F.PROT_VM_OVR2 : Fld := ⟨R.PROT_VM, 1, 1⟩
def F.PROT_VM_OVR3 : Fld := ⟨R.PROT_VM, 2, 1⟩
def F.PROT_VM_VMUV : Fld := ⟨R.PROT_VM, 3, 1⟩
def F.PROT_VM_CHOP_FAULT : Fld := ⟨R.PROT_VM, 4, 1⟩
def F.PROT_VM_BRK_ON : Fld := ⟨R.PROT_VM, 5, 1⟩
def F.PROT_VM_CHOP_STUCK : Fld := ⟨R.PROT_VM, 6, 1⟩
def R.PROT_SCTH : Reg := ⟨.prot, 0x48, 0⟩
def F.PROT_SCTH_SC_TH : Fld := ⟨R.PROT_SCTH, 0, 8⟩
def F.PROT_SCTH_SC_HI : Fld := ⟨R.PROT_SCTH, 8, 8⟩
def F.PROT_SCTH_VDS_TH : Fld := ⟨R.PROT_SCTH, 16, 8⟩
def R.PROT_SCCFG : Reg := ⟨.prot, 0x4c, 0⟩
def F.PROT_SCCFG_SCEN : Fld := ⟨R.PROT_SCCFG, 0, 4⟩
def F.PROT_SCCFG_DSEN : Fld := ⟨R.PROT_SCCFG, 4, 4⟩
def F.PROT_SCCFG_HOLD : Fld := ⟨R.PROT_SCCFG, 8, 8⟩
def R.PROT_SCSTAT : Reg := ⟨.prot, 0x50, 0⟩
def F.PROT_SCSTAT_TRIP : Fld := ⟨R.PROT_SCSTAT, 0, 24⟩
def R.PROT_LATCH : Reg := ⟨.prot, 0x54, 0⟩
def F.PROT_LATCH_LATCH : Fld := ⟨R.PROT_LATCH, 0, 4⟩
def F.PROT_LATCH_CAUSE_0 : Fld := ⟨R.PROT_LATCH, 8, 4⟩
def F.PROT_LATCH_CAUSE_1 : Fld := ⟨R.PROT_LATCH, 12, 4⟩
def F.PROT_LATCH_CAUSE_2 : Fld := ⟨R.PROT_LATCH, 16, 4⟩
def F.PROT_LATCH_CAUSE_3 : Fld := ⟨R.PROT_LATCH, 20, 4⟩
def R.PROT_REG : Reg := ⟨.prot, 0x58, 0⟩
def F.PROT_REG_REGTH : Fld := ⟨R.PROT_REG, 0, 8⟩
def F.PROT_REG_REGEN : Fld := ⟨R.PROT_REG, 8, 4⟩
def R.PROT_BRK : Reg := ⟨.prot, 0x5c, 0⟩
def F.PROT_BRK_EN : Fld := ⟨R.PROT_BRK, 0, 1⟩
def F.PROT_BRK_ITH : Fld := ⟨R.PROT_BRK, 8, 8⟩
def R.PROT_BRKCNT : Reg := ⟨.prot, 0x60, 0⟩
def F.PROT_BRKCNT_ONMS : Fld := ⟨R.PROT_BRKCNT, 0, 32⟩
def R.PROT_ODIAG : Reg := ⟨.prot, 0x64, 0⟩
def F.PROT_ODIAG_START : Fld := ⟨R.PROT_ODIAG, 0, 4⟩
def F.PROT_ODIAG_CHOP : Fld := ⟨R.PROT_ODIAG, 4, 1⟩
def F.PROT_ODIAG_BUSY : Fld := ⟨R.PROT_ODIAG, 5, 1⟩
def F.PROT_ODIAG_CHOPRES : Fld := ⟨R.PROT_ODIAG, 6, 2⟩
def F.PROT_ODIAG_RES_0 : Fld := ⟨R.PROT_ODIAG, 8, 4⟩
def F.PROT_ODIAG_RES_1 : Fld := ⟨R.PROT_ODIAG, 12, 4⟩
def F.PROT_ODIAG_RES_2 : Fld := ⟨R.PROT_ODIAG, 16, 4⟩
def F.PROT_ODIAG_RES_3 : Fld := ⟨R.PROT_ODIAG, 20, 4⟩

/-! Registers of block icv (08_conversion.md). -/

def R.ICV_WIN : Reg := ⟨.icv, 0x40, 0⟩
def F.ICV_WIN_LEN : Fld := ⟨R.ICV_WIN, 0, 15⟩
def F.ICV_WIN_M : Fld := ⟨R.ICV_WIN, 16, 9⟩
def R.ICV_AMP : Reg := ⟨.icv, 0x44, 0⟩
def F.ICV_AMP_G_0 : Fld := ⟨R.ICV_AMP, 0, 2⟩
def F.ICV_AMP_G_1 : Fld := ⟨R.ICV_AMP, 2, 2⟩
def F.ICV_AMP_G_2 : Fld := ⟨R.ICV_AMP, 4, 2⟩
def F.ICV_AMP_G_3 : Fld := ⟨R.ICV_AMP, 6, 2⟩
def R.ICV_CHEN : Reg := ⟨.icv, 0x48, 0⟩
def F.ICV_CHEN_EN : Fld := ⟨R.ICV_CHEN, 0, 8⟩
def F.ICV_CHEN_OVL : Fld := ⟨R.ICV_CHEN, 8, 8⟩
def R.ICV_WSTAT : Reg := ⟨.icv, 0x4c, 0⟩
def F.ICV_WSTAT_WNUM : Fld := ⟨R.ICV_WSTAT, 0, 16⟩
def F.ICV_WSTAT_WDONE : Fld := ⟨R.ICV_WSTAT, 16, 1⟩
def F.ICV_WSTAT_WDIE : Fld := ⟨R.ICV_WSTAT, 17, 1⟩
def F.ICV_WSTAT_STIM : Fld := ⟨R.ICV_WSTAT, 18, 1⟩
def R.ICV_WEND : Reg := ⟨.icv, 0x50, 0⟩
def F.ICV_WEND_TIME : Fld := ⟨R.ICV_WEND, 0, 32⟩
def R.ICV_RES : Reg := ⟨.icv, 0x60, 4⟩
def F.ICV_RES_N : Fld := ⟨R.ICV_RES, 0, 24⟩
def F.ICV_RES_WNUM : Fld := ⟨R.ICV_RES, 24, 8⟩
def R.ICV_HRES : Reg := ⟨.icv, 0x80, 4⟩
def F.ICV_HRES_N : Fld := ⟨R.ICV_HRES, 0, 24⟩

/-! Registers of block hsf (09_position_feedback.md). -/

def R.HSF_DEC_CFG : Reg := ⟨.hsf, 0x100, 0⟩
def F.HSF_DEC_CFG_E0MODE : Fld := ⟨R.HSF_DEC_CFG, 0, 2⟩
def F.HSF_DEC_CFG_E1MODE : Fld := ⟨R.HSF_DEC_CFG, 2, 2⟩
def F.HSF_DEC_CFG_S0EN : Fld := ⟨R.HSF_DEC_CFG, 4, 1⟩
def F.HSF_DEC_CFG_S0FMT : Fld := ⟨R.HSF_DEC_CFG, 5, 2⟩
def F.HSF_DEC_CFG_S0CRCM : Fld := ⟨R.HSF_DEC_CFG, 7, 1⟩
def F.HSF_DEC_CFG_HFILT : Fld := ⟨R.HSF_DEC_CFG, 8, 8⟩
def F.HSF_DEC_CFG_S0TICK : Fld := ⟨R.HSF_DEC_CFG, 16, 12⟩
def F.HSF_DEC_CFG_E0DIR : Fld := ⟨R.HSF_DEC_CFG, 28, 1⟩
def F.HSF_DEC_CFG_E1DIR : Fld := ⟨R.HSF_DEC_CFG, 29, 1⟩
def R.HSF_DEC_E0LAT : Reg := ⟨.hsf, 0x104, 0⟩
def F.HSF_DEC_E0LAT_CNT : Fld := ⟨R.HSF_DEC_E0LAT, 0, 32⟩
def R.HSF_DEC_E1LAT : Reg := ⟨.hsf, 0x108, 0⟩
def F.HSF_DEC_E1LAT_CNT : Fld := ⟨R.HSF_DEC_E1LAT, 0, 32⟩
def R.HSF_DEC_S0 : Reg := ⟨.hsf, 0x10c, 0⟩
def F.HSF_DEC_S0_FC1 : Fld := ⟨R.HSF_DEC_S0, 0, 16⟩
def F.HSF_DEC_S0_RC : Fld := ⟨R.HSF_DEC_S0, 16, 8⟩
def F.HSF_DEC_S0_VALID : Fld := ⟨R.HSF_DEC_S0, 24, 1⟩
def R.HSF_DEC_STAT : Reg := ⟨.hsf, 0x110, 0⟩
def F.HSF_DEC_STAT_ILL0 : Fld := ⟨R.HSF_DEC_STAT, 0, 8⟩
def F.HSF_DEC_STAT_ILL1 : Fld := ⟨R.HSF_DEC_STAT, 8, 8⟩
def F.HSF_DEC_STAT_S0ERR : Fld := ⟨R.HSF_DEC_STAT, 16, 8⟩
def R.HSF_MAP : Reg := ⟨.hsf, 0x40, 0⟩
def F.HSF_MAP_E0BR : Fld := ⟨R.HSF_MAP, 0, 2⟩
def F.HSF_MAP_E1BR : Fld := ⟨R.HSF_MAP, 2, 2⟩
def F.HSF_MAP_S0BR : Fld := ⟨R.HSF_MAP, 4, 2⟩
def F.HSF_MAP_SLAEN : Fld := ⟨R.HSF_MAP, 6, 1⟩
def F.HSF_MAP_SLREN : Fld := ⟨R.HSF_MAP, 7, 1⟩
def R.HSF_SLA : Reg := ⟨.hsf, 0x44, 0⟩
def F.HSF_SLA_LO : Fld := ⟨R.HSF_SLA, 0, 16⟩
def F.HSF_SLA_HI : Fld := ⟨R.HSF_SLA, 16, 16⟩
def R.HSF_L1 : Reg := ⟨.hsf, 0x48, 0⟩
def F.HSF_L1_LO : Fld := ⟨R.HSF_L1, 0, 16⟩
def F.HSF_L1_HI : Fld := ⟨R.HSF_L1, 16, 16⟩
def R.HSF_SLR : Reg := ⟨.hsf, 0x4c, 0⟩
def F.HSF_SLR_CMAX : Fld := ⟨R.HSF_SLR, 0, 16⟩
def F.HSF_SLR_WIN : Fld := ⟨R.HSF_SLR, 16, 8⟩
def R.HSF_TOL : Reg := ⟨.hsf, 0x50, 0⟩
def F.HSF_TOL_N : Fld := ⟨R.HSF_TOL, 0, 4⟩
def F.HSF_TOL_SDTOL : Fld := ⟨R.HSF_TOL, 16, 16⟩
def R.HSF_ARM : Reg := ⟨.hsf, 0x54, 0⟩
def F.HSF_ARM_SDI0 : Fld := ⟨R.HSF_ARM, 0, 1⟩
def F.HSF_ARM_SDI0P : Fld := ⟨R.HSF_ARM, 1, 1⟩
def F.HSF_ARM_SDI1 : Fld := ⟨R.HSF_ARM, 2, 1⟩
def F.HSF_ARM_SDI1P : Fld := ⟨R.HSF_ARM, 3, 1⟩
def F.HSF_ARM_SBH : Fld := ⟨R.HSF_ARM, 4, 4⟩
def R.HSF_STO : Reg := ⟨.hsf, 0x58, 0⟩
def F.HSF_STO_REQ : Fld := ⟨R.HSF_STO, 0, 4⟩
def F.HSF_STO_REL : Fld := ⟨R.HSF_STO, 4, 4⟩
def F.HSF_STO_ACT : Fld := ⟨R.HSF_STO, 8, 4⟩
def F.HSF_STO_CAUSE_0 : Fld := ⟨R.HSF_STO, 12, 3⟩
def F.HSF_STO_CAUSE_1 : Fld := ⟨R.HSF_STO, 15, 3⟩
def F.HSF_STO_CAUSE_2 : Fld := ⟨R.HSF_STO, 18, 3⟩
def F.HSF_STO_CAUSE_3 : Fld := ⟨R.HSF_STO, 21, 3⟩
def R.HSF_VIOL : Reg := ⟨.hsf, 0x5c, 0⟩
def F.HSF_VIOL_SLA : Fld := ⟨R.HSF_VIOL, 0, 1⟩
def F.HSF_VIOL_SLR : Fld := ⟨R.HSF_VIOL, 1, 1⟩
def F.HSF_VIOL_SDI0 : Fld := ⟨R.HSF_VIOL, 2, 1⟩
def F.HSF_VIOL_SDI1 : Fld := ⟨R.HSF_VIOL, 3, 1⟩
def F.HSF_VIOL_CREEP : Fld := ⟨R.HSF_VIOL, 4, 1⟩
def F.HSF_VIOL_UNAV_S0 : Fld := ⟨R.HSF_VIOL, 5, 1⟩
def F.HSF_VIOL_UNAV_E0 : Fld := ⟨R.HSF_VIOL, 6, 1⟩
def F.HSF_VIOL_UNAV_E1 : Fld := ⟨R.HSF_VIOL, 7, 1⟩
def F.HSF_VIOL_L1IN : Fld := ⟨R.HSF_VIOL, 8, 1⟩
def F.HSF_VIOL_LEVEL : Fld := ⟨R.HSF_VIOL, 9, 2⟩
def R.HSF_SEAL : Reg := ⟨.hsf, 0x60, 0⟩
def F.HSF_SEAL_SEAL : Fld := ⟨R.HSF_SEAL, 0, 32⟩
def R.HSF_SEALREF : Reg := ⟨.hsf, 0x64, 0⟩
def F.HSF_SEALREF_REF : Fld := ⟨R.HSF_SEALREF, 0, 32⟩
def R.HSF_SEALCMD : Reg := ⟨.hsf, 0x68, 0⟩
def F.HSF_SEALCMD_CHK : Fld := ⟨R.HSF_SEALCMD, 0, 1⟩
def F.HSF_SEALCMD_LOCK : Fld := ⟨R.HSF_SEALCMD, 1, 1⟩
def F.HSF_SEALCMD_BUSY : Fld := ⟨R.HSF_SEALCMD, 8, 1⟩
def F.HSF_SEALCMD_MATCH : Fld := ⟨R.HSF_SEALCMD, 9, 1⟩
def F.HSF_SEALCMD_LOCKED : Fld := ⟨R.HSF_SEALCMD, 10, 1⟩
def F.HSF_SEALCMD_MIRN : Fld := ⟨R.HSF_SEALCMD, 16, 9⟩
def R.HSF_MIR : Reg := ⟨.hsf, 0x800, 4⟩
def F.HSF_MIR_WORD : Fld := ⟨R.HSF_MIR, 0, 32⟩

/-! Registers of block sdl (02_three_lanes_one_authority.md). -/

def R.SDL_BAND_TQ : Reg := ⟨.sdl, 0x40, 0⟩
def F.SDL_BAND_TQ_BAND : Fld := ⟨R.SDL_BAND_TQ, 0, 15⟩
def R.SDL_BAND_FX : Reg := ⟨.sdl, 0x44, 0⟩
def F.SDL_BAND_FX_BAND : Fld := ⟨R.SDL_BAND_FX, 0, 15⟩
def R.SDL_VSTAT : Reg := ⟨.sdl, 0x48, 0⟩
def F.SDL_VSTAT_PRESENT : Fld := ⟨R.SDL_VSTAT, 0, 3⟩
def F.SDL_VSTAT_MINOR : Fld := ⟨R.SDL_VSTAT, 4, 3⟩
def F.SDL_VSTAT_MODE : Fld := ⟨R.SDL_VSTAT, 8, 2⟩
def F.SDL_VSTAT_FROZEN : Fld := ⟨R.SDL_VSTAT, 10, 1⟩
def F.SDL_VSTAT_FRZCNT : Fld := ⟨R.SDL_VSTAT, 11, 2⟩
def F.SDL_VSTAT_SPLIT : Fld := ⟨R.SDL_VSTAT, 13, 1⟩
def F.SDL_VSTAT_VFAIL : Fld := ⟨R.SDL_VSTAT, 14, 1⟩
def F.SDL_VSTAT_NOVOTE : Fld := ⟨R.SDL_VSTAT, 15, 1⟩
def R.SDL_MINCNT : Reg := ⟨.sdl, 0x4c, 0⟩
def F.SDL_MINCNT_MIN_A : Fld := ⟨R.SDL_MINCNT, 0, 4⟩
def F.SDL_MINCNT_MIN_B : Fld := ⟨R.SDL_MINCNT, 4, 4⟩
def F.SDL_MINCNT_MIN_C : Fld := ⟨R.SDL_MINCNT, 8, 4⟩
def R.SDL_XINH : Reg := ⟨.sdl, 0x50, 0⟩
def F.SDL_XINH_OUT_NX : Fld := ⟨R.SDL_XINH, 0, 1⟩
def F.SDL_XINH_OUT_PV : Fld := ⟨R.SDL_XINH, 1, 1⟩
def F.SDL_XINH_IN_NX : Fld := ⟨R.SDL_XINH, 2, 1⟩
def F.SDL_XINH_IN_PV : Fld := ⟨R.SDL_XINH, 3, 1⟩
def F.SDL_XINH_STOPPED : Fld := ⟨R.SDL_XINH, 4, 1⟩
def F.SDL_XINH_RB_ERR : Fld := ⟨R.SDL_XINH, 5, 1⟩
def R.SDL_TIMING : Reg := ⟨.sdl, 0x54, 0⟩
def F.SDL_TIMING_DEC : Fld := ⟨R.SDL_TIMING, 0, 8⟩
def F.SDL_TIMING_MARGIN : Fld := ⟨R.SDL_TIMING, 8, 16⟩
def R.SDL_LATE : Reg := ⟨.sdl, 0x58, 0⟩
def F.SDL_LATE_LATE_A : Fld := ⟨R.SDL_LATE, 0, 8⟩
def F.SDL_LATE_LATE_B : Fld := ⟨R.SDL_LATE, 8, 8⟩
def F.SDL_LATE_LATE_C : Fld := ⟨R.SDL_LATE, 16, 8⟩

/-! Registers of block ths (16_thermal.md). -/

def R.THS_STAT : Reg := ⟨.ths, 0x40, 0⟩
def F.THS_STAT_DIEHOT : Fld := ⟨R.THS_STAT, 0, 2⟩
def F.THS_STAT_DIESD : Fld := ⟨R.THS_STAT, 2, 1⟩
def F.THS_STAT_REFSD : Fld := ⟨R.THS_STAT, 3, 1⟩
def F.THS_STAT_TDSD : Fld := ⟨R.THS_STAT, 4, 4⟩
def F.THS_STAT_OPEN : Fld := ⟨R.THS_STAT, 8, 4⟩
def F.THS_STAT_UNW : Fld := ⟨R.THS_STAT, 12, 4⟩
def F.THS_STAT_HOLD : Fld := ⟨R.THS_STAT, 16, 16⟩
def R.THS_TDK : Reg := ⟨.ths, 0x44, 0⟩
def F.THS_TDK_KIND : Fld := ⟨R.THS_TDK, 0, 8⟩
def F.THS_TDK_FUSED : Fld := ⟨R.THS_TDK, 8, 4⟩
def R.THS_TDF : Reg := ⟨.ths, 0x48, 4⟩
def F.THS_TDF_TRIP : Fld := ⟨R.THS_TDF, 0, 16⟩
def F.THS_TDF_CLEAR : Fld := ⟨R.THS_TDF, 16, 16⟩
def R.THS_TDFUSE : Reg := ⟨.ths, 0x58, 0⟩
def F.THS_TDFUSE_KEY : Fld := ⟨R.THS_TDFUSE, 0, 16⟩
def F.THS_TDFUSE_INPUT : Fld := ⟨R.THS_TDFUSE, 16, 2⟩
def F.THS_TDFUSE_KIND : Fld := ⟨R.THS_TDFUSE, 18, 2⟩
def R.THS_TDFVAL : Reg := ⟨.ths, 0x5c, 0⟩
def F.THS_TDFVAL_TRIP : Fld := ⟨R.THS_TDFVAL, 0, 16⟩
def F.THS_TDFVAL_CLEAR : Fld := ⟨R.THS_TDFVAL, 16, 16⟩

/-- The header's rows: what offsets 0x000 to 0x03F of every block hold (R50). ID's reset value differs from block to
block and is written by `resetWord`. -/
def headerRows (b : Blk) : List RegRow := [
  ⟨H.ID b, 1, 0, 1, 0x1000, 0, []⟩,
  ⟨H.CTL b, 1, 0, 1, 0x0, 0, [⟨0, 1, .wo, true⟩, ⟨1, 1, .wo, true⟩, ⟨2, 1, .rw, false⟩]⟩,
  ⟨H.STAT b, 1, 0, 1, 0x0, 0, []⟩,
  ⟨H.ESTAT b, 1, 0, 1, 0x0, 0, [⟨0, 1, .w1c, false⟩, ⟨1, 1, .w1c, false⟩, ⟨2, 1, .w1c, false⟩, ⟨3, 1, .w1c, false⟩, ⟨4, 1, .w1c, false⟩, ⟨5, 1, .w1c, false⟩, ⟨16, 16, .w1c, false⟩]⟩,
  ⟨H.EIE b, 1, 0, 1, 0xc, 0, [⟨0, 6, .rw, false⟩, ⟨16, 16, .rw, false⟩]⟩,
  ⟨H.LBCFG b, 1, 0, 1, 0x6404, 0x00ffff3f, [⟨0, 6, .rwl, false⟩, ⟨8, 16, .rwl, false⟩]⟩,
  ⟨H.EVQ b, 4, 0, 1, 0x0, 0, []⟩,
  ⟨H.EVQ_T b, 4, 0, 1, 0x0, 0, []⟩]

/-- Rows of the block-specific registers of sys. -/
def rows_sys : List RegRow := [
  ⟨R.SYS_RSTCAUSE, 1, 0x0, 1, 0x1, 0, [⟨0, 1, .w1c, false⟩, ⟨1, 1, .w1c, false⟩, ⟨2, 1, .w1c, false⟩, ⟨3, 1, .w1c, false⟩, ⟨4, 1, .w1c, false⟩, ⟨5, 1, .w1c, false⟩, ⟨6, 1, .w1c, false⟩, ⟨7, 1, .w1c, false⟩]⟩,
  ⟨R.SYS_RSTREQ, 1, 0x0, 1, 0x0, 0, [⟨0, 16, .wo, true⟩, ⟨16, 1, .wo, true⟩]⟩,
  ⟨R.SYS_PART_0, 1, 0x0, 1, 0x59332d34, 0, []⟩,
  ⟨R.SYS_PART_1, 1, 0x0, 1, 0x34382d51, 0, []⟩,
  ⟨R.SYS_LANE, 1, 0x0, 1, 0x0, 0, []⟩,
  ⟨R.SYS_SERIAL, 1, 0x0, 1, 0x0, 0, []⟩,
  ⟨R.SYS_ASSY, 1, 0x0, 1, 0x0, 0, []⟩,
  ⟨R.SYS_LD_LOT_0, 1, 0x0, 1, 0x0, 0, []⟩,
  ⟨R.SYS_LD_LOT_1, 1, 0x0, 1, 0x0, 0, []⟩,
  ⟨R.SYS_LD_POS, 1, 0x0, 1, 0x0, 0, []⟩,
  ⟨R.SYS_LD_STEP, 1, 0x0, 1, 0x4c444201, 0, []⟩,
  ⟨R.SYS_LC, 1, 0x0, 1, 0x2, 0, []⟩,
  ⟨R.SYS_LC_CHAL, 1, 0x0, 1, 0x0, 0, []⟩,
  ⟨R.SYS_HD_LOT_0, 1, 0x0, 1, 0x0, 0, []⟩,
  ⟨R.SYS_HD_LOT_1, 1, 0x0, 1, 0x0, 0, []⟩,
  ⟨R.SYS_HD_POS, 1, 0x0, 1, 0x0, 0, []⟩,
  ⟨R.SYS_HD_STEP, 1, 0x0, 1, 0x0, 0, []⟩]

/-- Rows of the block-specific registers of pwr. -/
def rows_pwr : List RegRow := [
  ⟨R.PWR_VOTE, 1, 0x0, 1, 0x0, 0, [⟨0, 5, .wo, true⟩, ⟨8, 2, .wo, true⟩, ⟨16, 8, .wo, true⟩]⟩,
  ⟨R.PWR_SLEEP, 1, 0x0, 1, 0x0, 0, [⟨0, 1, .wo, true⟩]⟩,
  ⟨R.PWR_WAKE, 1, 0x0, 1, 0x0, 0, [⟨7, 1, .w1c, false⟩]⟩,
  ⟨R.PWR_WAKEEN, 1, 0x0, 1, 0xa00, 0, [⟨0, 1, .rw, false⟩, ⟨1, 1, .rw, false⟩, ⟨2, 1, .rw, false⟩, ⟨3, 1, .rw, false⟩, ⟨4, 1, .rw, false⟩, ⟨5, 1, .rw, false⟩, ⟨8, 8, .rw, false⟩]⟩,
  ⟨R.PWR_BEMF, 1, 0x0, 1, 0x500, 0, [⟨0, 4, .rw, false⟩, ⟨8, 8, .rw, false⟩]⟩,
  ⟨R.PWR_RETLOST, 1, 0x0, 1, 0x0, 0, [⟨0, 8, .w1c, false⟩, ⟨8, 1, .w1c, false⟩, ⟨9, 1, .w1c, false⟩, ⟨10, 20, .w1c, false⟩]⟩,
  ⟨R.PWR_D_CFG, 21, 0x0, 1, 0x0, 0, [⟨0, 1, .rw, false⟩]⟩,
  ⟨R.PWR_D_STAT, 21, 0x0, 1, 0x0, 0, []⟩,
  ⟨R.PWR_D_VOTES, 21, 0x0, 1, 0x0, 0, []⟩,
  ⟨R.PWR_D_CNT, 21, 0x0, 1, 0x0, 0, []⟩]

/-- Rows of the block-specific registers of clk. -/
def rows_clk : List RegRow := [
  ⟨R.CLK_LEVEL, 1, 0x0, 1, 0x0, 0, [⟨0, 2, .rw, true⟩]⟩,
  ⟨R.CLK_MT_LO, 1, 0x0, 1, 0x0, 0, []⟩,
  ⟨R.CLK_MT_HI, 1, 0x0, 1, 0x0, 0, []⟩,
  ⟨R.CLK_MT_SYNC, 1, 0x0, 1, 0x0, 0, []⟩]

/-- Rows of the block-specific registers of trio. -/
def rows_trio : List RegRow := [
  ⟨R.TRIO_MODE, 1, 0x0, 1, 0x70, 0, []⟩,
  ⟨R.TRIO_CMP, 1, 0x0, 1, 0x0, 0, []⟩,
  ⟨R.TRIO_TCNT, 1, 0x0, 1, 0x0, 0, []⟩,
  ⟨R.TRIO_INJ, 1, 0x0, 1, 0x0, 0, []⟩,
  ⟨R.TRIO_RSYNC, 1, 0x0, 1, 0x0, 0, []⟩,
  ⟨R.TRIO_SPLIT, 1, 0x0, 1, 0x0, 0, [⟨0, 1, .wo, true⟩, ⟨1, 1, .wo, true⟩, ⟨2, 1, .wo, true⟩]⟩,
  ⟨R.TRIO_FREE_PC, 1, 0x0, 1, 0x0, 0, [⟨1, 31, .rw, false⟩]⟩,
  ⟨R.TRIO_DIG_BASE, 1, 0x0, 1, 0x30000, 0x3fff0, [⟨4, 14, .rwl, false⟩]⟩,
  ⟨R.TRIO_DIG_SIZE, 1, 0x0, 1, 0x10000, 0x3fff0, [⟨4, 14, .rwl, false⟩]⟩,
  ⟨R.TRIO_SDIG, 1, 0x0, 1, 0x0, 0, []⟩,
  ⟨R.TRIO_ADIG, 3, 0x0, 1, 0x0, 0, []⟩,
  ⟨R.TRIO_SVC, 1, 0x0, 1, 0x1, 0, []⟩]

/-- Rows of the block-specific registers of cmdq. -/
def rows_cmdq : List RegRow := [
  ⟨R.CMDQ_ADMIT, 1, 0x0, 1, 0x200961f4, 0x3fffffff, [⟨0, 12, .rwl, false⟩, ⟨12, 12, .rwl, false⟩, ⟨24, 6, .rwl, false⟩]⟩,
  ⟨R.CMDQ_ACTKIND, 1, 0x0, 1, 0x0, 0xffff, [⟨0, 4, .rwl, false⟩, ⟨4, 4, .rwl, false⟩, ⟨8, 4, .rwl, false⟩, ⟨12, 4, .rwl, false⟩]⟩,
  ⟨R.CMDQ_TOL, 1, 0x0, 1, 0x320064, 0xffffffff, [⟨0, 16, .rwl, false⟩, ⟨16, 16, .rwl, false⟩]⟩,
  ⟨R.CMDQ_OUTST, 1, 0x0, 1, 0x0, 0, []⟩,
  ⟨R.CMDQ_CNT, 1, 0x0, 1, 0x0, 0, []⟩,
  ⟨R.CMDQ_RING_ALLOC, 4, 0x0, 1, 0xffff, 0, []⟩,
  ⟨R.CMDQ_RING_POST, 4, 0x0, 1, 0x0, 0, [⟨0, 6, .wo, true⟩]⟩,
  ⟨R.CMDQ_RING_FREE, 4, 0x0, 1, 0x40, 0, []⟩,
  ⟨R.CMDQ_CPL_TAIL, 1, 0x0, 1, 0x0, 0, []⟩,
  ⟨R.CMDQ_CPL_HEAD, 1, 0x0, 1, 0x0, 0, [⟨0, 8, .rw, true⟩]⟩]

/-- Rows of the block-specific registers of ozl. -/
def rows_ozl : List RegRow := [
  ⟨R.OZL_VPER, 1, 0x0, 1, 0x32, 0xff, [⟨0, 8, .rwl, false⟩]⟩,
  ⟨R.OZL_LINK, 3, 0x0, 1, 0x0, 0, []⟩,
  ⟨R.OZL_LSTATE, 1, 0x0, 1, 0x0, 0, []⟩,
  ⟨R.OZL_GRAFT, 1, 0x0, 1, 0x0, 0, []⟩,
  ⟨R.OZL_FALLOW, 1, 0x0, 1, 0x0, 0, []⟩,
  ⟨R.OZL_VSEQ, 1, 0x0, 1, 0x0, 0, []⟩,
  ⟨R.OZL_SCORE, 1, 0x0, 1, 0x0, 0, []⟩,
  ⟨R.OZL_PAIR, 1, 0x0, 1, 0x4, 3, [⟨0, 1, .rwl, false⟩, ⟨1, 1, .rwl, false⟩]⟩]

/-- Rows of the block-specific registers of saf. -/
def rows_saf : List RegRow := [
  ⟨R.SAF_PMAP, 1, 0x0, 1, 0xffffffff, 0xffffffff, [⟨0, 8, .rwl, false⟩, ⟨8, 8, .rwl, false⟩, ⟨16, 8, .rwl, false⟩, ⟨24, 8, .rwl, false⟩]⟩,
  ⟨R.SAF_SMAP, 1, 0x0, 1, 0xffffffff, 0xffffffff, [⟨0, 32, .rwl, false⟩]⟩,
  ⟨R.SAF_SLA_LO, 1, 0x0, 1, 0x80000000, 0xffffffff, [⟨0, 32, .rwl, false⟩]⟩,
  ⟨R.SAF_SLA_HI, 1, 0x0, 1, 0x7fffffff, 0xffffffff, [⟨0, 32, .rwl, false⟩]⟩,
  ⟨R.SAF_L1_LO, 1, 0x0, 1, 0x80000000, 0xffffffff, [⟨0, 32, .rwl, false⟩]⟩,
  ⟨R.SAF_L1_HI, 1, 0x0, 1, 0x7fffffff, 0xffffffff, [⟨0, 32, .rwl, false⟩]⟩,
  ⟨R.SAF_SLR, 1, 0x0, 1, 0xffffffff, 0xffffffff, [⟨0, 32, .rwl, false⟩]⟩,
  ⟨R.SAF_STILL, 1, 0x0, 1, 0xa07d0, 0xffffffff, [⟨0, 16, .rwl, false⟩, ⟨16, 16, .rwl, false⟩]⟩,
  ⟨R.SAF_TOL, 1, 0x0, 1, 0x400c8, 0xffffffff, [⟨0, 16, .rwl, false⟩, ⟨16, 16, .rwl, false⟩]⟩,
  ⟨R.SAF_SBH, 1, 0x0, 1, 0x640002, 0xffffff, [⟨0, 16, .rwl, false⟩, ⟨16, 8, .rwl, false⟩]⟩,
  ⟨R.SAF_RESP, 1, 0x0, 1, 0x21402, 0xffff0f, [⟨0, 4, .rwl, false⟩, ⟨8, 8, .rwl, false⟩, ⟨16, 8, .rwl, false⟩]⟩,
  ⟨R.SAF_RATIO, 1, 0x0, 1, 0x10000, 0xffffffff, [⟨0, 32, .rwl, false⟩]⟩,
  ⟨R.SAF_ZERO, 1, 0x0, 1, 0x0, 0, [⟨0, 32, .rw, false⟩]⟩,
  ⟨R.SAF_ARM, 1, 0x0, 1, 0x0, 0, [⟨0, 4, .rw, false⟩, ⟨4, 4, .rw, false⟩, ⟨8, 4, .rw, false⟩]⟩,
  ⟨R.SAF_VIOL, 1, 0x0, 1, 0x0, 0, []⟩,
  ⟨R.SAF_SEAL, 1, 0x0, 1, 0x0, 0, []⟩,
  ⟨R.SAF_SEALREC, 1, 0x0, 1, 0x0, 0, []⟩,
  ⟨R.SAF_SEALREF, 1, 0x0, 1, 0x0, 0, [⟨0, 32, .rwl, false⟩]⟩,
  ⟨R.SAF_SEALCTL, 1, 0x0, 1, 0x0, 0, [⟨0, 1, .wo, true⟩, ⟨1, 1, .wo, true⟩, ⟨16, 16, .wo, true⟩]⟩]

/-- Rows of the block-specific registers of cnv. -/
def rows_cnv : List RegRow := [
  ⟨R.CNV_RSEQ, 1, 0x0, 1, 0x0, 0, [⟨0, 4, .rw, false⟩, ⟨4, 4, .rw, false⟩, ⟨8, 8, .rw, false⟩, ⟨17, 1, .wo, true⟩, ⟨18, 1, .rw, true⟩]⟩,
  ⟨R.CNV_ISEQ, 1, 0x0, 1, 0x0, 0, [⟨0, 2, .rw, false⟩, ⟨4, 4, .rw, false⟩, ⟨8, 8, .rw, false⟩, ⟨16, 1, .rw, false⟩, ⟨17, 1, .wo, true⟩, ⟨18, 1, .rw, true⟩]⟩,
  ⟨R.CNV_RSEL, 4, 0x0, 1, 0x0, 0, [⟨0, 8, .rw, false⟩, ⟨8, 8, .rw, false⟩, ⟨16, 8, .rw, false⟩, ⟨24, 8, .rw, false⟩]⟩,
  ⟨R.CNV_ISEL, 1, 0x0, 1, 0x0, 0, [⟨0, 8, .rw, false⟩, ⟨8, 8, .rw, false⟩, ⟨16, 8, .rw, false⟩, ⟨24, 8, .rw, false⟩]⟩,
  ⟨R.CNV_TMR, 1, 0x0, 1, 0x28, 0, [⟨0, 16, .rw, false⟩, ⟨16, 16, .rw, false⟩]⟩,
  ⟨R.CNV_CAL_GO, 1, 0x0, 1, 0x0, 0, [⟨0, 1, .wo, true⟩]⟩,
  ⟨R.CNV_CAL_STAT, 1, 0x0, 1, 0x0, 0, []⟩,
  ⟨R.CNV_CAL_OG, 1, 0x0, 1, 0x0, 0, []⟩,
  ⟨R.CNV_CAL_W, 3, 0x0, 1, 0x0, 0, []⟩,
  ⟨R.CNV_MISS, 1, 0x0, 1, 0x0, 0, []⟩,
  ⟨R.CNV_EVT, 1, 0x0, 1, 0x0, 0, [⟨0, 1, .w1c, false⟩, ⟨1, 1, .w1c, false⟩, ⟨2, 1, .w1c, false⟩, ⟨8, 3, .rw, false⟩]⟩,
  ⟨R.CNV_RES, 16, 0x0, 1, 0x0, 0, []⟩,
  ⟨R.CNV_IRES, 4, 0x0, 1, 0x0, 0, []⟩,
  ⟨R.CNV_RTS, 16, 0x0, 1, 0x0, 0, []⟩,
  ⟨R.CNV_ITS, 4, 0x0, 1, 0x0, 0, []⟩]

/-- Rows of the block-specific registers of cnvSq. -/
def rows_cnvSq : List RegRow := [
  ⟨R.CNV_SQ_XCFG, 1, 0x0, 1, 0x3c8ff, 0xff00, [⟨0, 8, .rw, false⟩, ⟨8, 8, .rwl, false⟩, ⟨16, 4, .rw, false⟩]⟩,
  ⟨R.CNV_SQ_XSTAT, 1, 0x0, 1, 0x0, 0, []⟩,
  ⟨R.CNV_SQ_REFCHK, 1, 0x0, 1, 0x1388, 0, [⟨0, 15, .rw, false⟩, ⟨16, 8, .rw, false⟩, ⟨24, 1, .wo, true⟩]⟩,
  ⟨R.CNV_SQ_REFRES, 1, 0x0, 1, 0x0, 0, []⟩,
  ⟨R.CNV_SQ_REFDEV, 1, 0x0, 1, 0x0, 0, []⟩,
  ⟨R.CNV_SQ_XDEV, 8, 0x0, 1, 0x0, 0, []⟩]

/-- Rows of the block-specific registers of pos. -/
def rows_pos : List RegRow := [
  ⟨R.POS_SPD, 1, 0x0, 1, 0x140032, 0, [⟨0, 10, .rw, false⟩, ⟨16, 8, .rw, false⟩]⟩,
  ⟨R.POS_HCHK, 1, 0x0, 1, 0x1304, 0, [⟨0, 8, .rw, false⟩, ⟨8, 4, .rw, false⟩, ⟨12, 1, .rw, false⟩]⟩,
  ⟨R.POS_ENC_CFG, 4, 0x0, 1, 0x1f0400, 0, [⟨0, 1, .rw, true⟩, ⟨1, 2, .rw, false⟩, ⟨3, 1, .rw, false⟩, ⟨4, 1, .rw, false⟩, ⟨8, 8, .rw, false⟩, ⟨16, 5, .rw, false⟩]⟩,
  ⟨R.POS_ENC_CPT, 4, 0x0, 1, 0x4001000, 0, [⟨0, 20, .rw, false⟩, ⟨24, 4, .rw, false⟩]⟩,
  ⟨R.POS_ENC_ABSTOL, 4, 0x0, 1, 0xc8, 0, [⟨0, 16, .rw, false⟩]⟩,
  ⟨R.POS_ENC_CNT, 4, 0x0, 1, 0x0, 0, []⟩,
  ⟨R.POS_ENC_ZREF, 4, 0x0, 1, 0x0, 0, []⟩,
  ⟨R.POS_ENC_ERR, 4, 0x0, 1, 0x0, 0, []⟩,
  ⟨R.POS_RES_CFG, 2, 0x0, 1, 0x2020, 0, [⟨0, 1, .rw, true⟩, ⟨1, 2, .rw, false⟩, ⟨3, 2, .rw, false⟩, ⟨5, 1, .rw, false⟩, ⟨6, 1, .rw, false⟩, ⟨12, 3, .rw, false⟩, ⟨16, 16, .rw, false⟩]⟩,
  ⟨R.POS_RES_AMP, 2, 0x0, 1, 0x7d00190, 0, [⟨0, 12, .rw, false⟩, ⟨16, 12, .rw, false⟩]⟩,
  ⟨R.POS_RES_RAW, 2, 0x0, 1, 0x0, 0, []⟩,
  ⟨R.POS_RES_ERR, 2, 0x0, 1, 0x0, 0, []⟩,
  ⟨R.POS_SENT_CFG, 4, 0x0, 1, 0x3c0400, 0, [⟨0, 1, .rw, true⟩, ⟨1, 2, .rw, false⟩, ⟨3, 1, .rw, false⟩, ⟨4, 1, .rw, false⟩, ⟨5, 1, .rw, false⟩, ⟨8, 8, .rw, false⟩, ⟨16, 12, .rw, false⟩]⟩,
  ⟨R.POS_SENT_SPC, 4, 0x0, 1, 0xa010c, 0, [⟨0, 7, .rw, false⟩, ⟨8, 8, .rw, false⟩, ⟨16, 8, .rw, false⟩]⟩,
  ⟨R.POS_SENT_DATA, 4, 0x0, 1, 0x0, 0, []⟩,
  ⟨R.POS_SENT_FRM, 4, 0x0, 1, 0x0, 0, []⟩,
  ⟨R.POS_SENT_SER, 4, 0x0, 1, 0x0, 0, [⟨31, 1, .w1c, false⟩]⟩,
  ⟨R.POS_SENT_ERR, 4, 0x0, 1, 0x0, 0, []⟩,
  ⟨R.POS_PRB_CFG, 2, 0x0, 1, 0x400, 0, [⟨0, 1, .rw, false⟩, ⟨1, 2, .rw, false⟩, ⟨3, 1, .rw, false⟩, ⟨4, 4, .rw, false⟩, ⟨8, 8, .rw, false⟩]⟩,
  ⟨R.POS_PRB_VAL, 2, 0x0, 1, 0x0, 0, []⟩] ++ [
  ⟨R.POS_PRB_T, 2, 0x0, 1, 0x0, 0, []⟩,
  ⟨R.POS_Q_VAL, 14, 0x0, 1, 0x0, 0, []⟩,
  ⟨R.POS_Q_ANG, 14, 0x0, 1, 0x0, 0, []⟩,
  ⟨R.POS_Q_T, 14, 0x0, 1, 0x0, 0, []⟩,
  ⟨R.POS_Q_SPD, 14, 0x0, 1, 0x0, 0, []⟩,
  ⟨R.POS_Q_STAT, 14, 0x0, 1, 0x0, 0, []⟩,
  ⟨R.POS_Q_SCL, 14, 0x0, 1, 0x10000, 0, [⟨0, 32, .rw, false⟩]⟩,
  ⟨R.POS_Q_OFS, 14, 0x0, 1, 0x0, 0, [⟨0, 32, .rw, false⟩]⟩,
  ⟨R.POS_Q_ST, 14, 0x0, 1, 0x0, 0, []⟩,
  ⟨R.POS_CMP_TGT, 10, 0x10, 2, 0x0, 0, [⟨0, 32, .rw, true⟩]⟩,
  ⟨R.POS_CMP_CTL, 10, 0x10, 2, 0x0, 0, [⟨0, 1, .rw, true⟩, ⟨1, 2, .rw, true⟩, ⟨3, 1, .rw, true⟩, ⟨4, 1, .rw, true⟩, ⟨5, 1, .rw, true⟩, ⟨8, 1, .w1c, true⟩, ⟨10, 1, .w1c, true⟩]⟩,
  ⟨R.POS_CMP_HTIME, 10, 0x10, 2, 0x0, 0, []⟩]

/-- Rows of the block-specific registers of drv. -/
def rows_drv : List RegRow := [
  ⟨R.DRV_MODE, 1, 0x0, 1, 0x28, 0, [⟨0, 1, .rw, false⟩, ⟨1, 1, .rw, false⟩, ⟨2, 1, .rw, false⟩, ⟨3, 1, .rw, false⟩, ⟨5, 1, .rw, false⟩, ⟨8, 1, .w1s, true⟩]⟩,
  ⟨R.DRV_STATE, 1, 0x0, 1, 0x0, 0, []⟩,
  ⟨R.DRV_IBASE, 1, 0x0, 1, 0x0, 0xffff, [⟨0, 16, .rwl, false⟩]⟩,
  ⟨R.DRV_VBASE, 1, 0x0, 1, 0x0, 0xffff, [⟨0, 16, .rwl, false⟩]⟩,
  ⟨R.DRV_WBASE, 1, 0x0, 1, 0x0, 0x1fffff, [⟨0, 16, .rwl, false⟩, ⟨16, 5, .rwl, false⟩]⟩,
  ⟨R.DRV_GAIN, 1, 0x0, 1, 0x0, 0xffffffff, [⟨0, 16, .rwl, false⟩, ⟨16, 16, .rwl, false⟩]⟩,
  ⟨R.DRV_DPER, 1, 0x0, 1, 0xc8, 0, [⟨0, 11, .rw, false⟩, ⟨16, 11, .rw, false⟩]⟩,
  ⟨R.DRV_MOT_0, 1, 0x0, 1, 0x0, 0, [⟨0, 16, .rw, false⟩, ⟨16, 16, .rw, false⟩]⟩,
  ⟨R.DRV_MOT_1, 1, 0x0, 1, 0x0, 0, [⟨0, 16, .rw, false⟩, ⟨16, 16, .rw, false⟩]⟩,
  ⟨R.DRV_BLEND, 1, 0x0, 1, 0x4000333, 0, [⟨0, 15, .rw, false⟩, ⟨16, 15, .rw, false⟩]⟩,
  ⟨R.DRV_HYST, 1, 0x0, 1, 0x800200, 0, [⟨0, 15, .rw, false⟩, ⟨16, 15, .rw, false⟩]⟩,
  ⟨R.DRV_SWLIM, 1, 0x0, 1, 0x8019002, 0, [⟨0, 4, .rw, false⟩, ⟨8, 12, .rw, false⟩, ⟨24, 4, .rw, false⟩]⟩,
  ⟨R.DRV_LIM, 1, 0x0, 1, 0x7fff7fff, 0x7fff7fff, [⟨0, 15, .rwl, false⟩, ⟨16, 15, .rwl, false⟩]⟩,
  ⟨R.DRV_LIMEFF, 1, 0x0, 1, 0x7fff, 0, []⟩,
  ⟨R.DRV_OVM, 1, 0x0, 1, 0x517d4000, 0, [⟨0, 15, .rw, false⟩, ⟨16, 15, .rw, false⟩]⟩,
  ⟨R.DRV_HFI, 1, 0x0, 1, 0x10014, 0, [⟨0, 7, .rw, false⟩, ⟨8, 15, .rw, false⟩]⟩,
  ⟨R.DRV_OBS, 1, 0x0, 1, 0xccd0666, 0, [⟨0, 15, .rw, false⟩, ⟨16, 15, .rw, false⟩]⟩,
  ⟨R.DRV_CONF, 1, 0x0, 1, 0x1004000, 0, [⟨0, 15, .rw, false⟩, ⟨16, 15, .rw, false⟩]⟩,
  ⟨R.DRV_CATCH, 1, 0x0, 1, 0x140ccd, 0, [⟨0, 15, .rw, false⟩, ⟨16, 8, .rw, false⟩]⟩,
  ⟨R.DRV_PSRC, 1, 0x0, 1, 0xe39ffff, 0, [⟨0, 8, .rw, false⟩, ⟨8, 8, .rw, false⟩, ⟨16, 16, .rw, false⟩]⟩] ++ [
  ⟨R.DRV_AOFS, 1, 0x0, 1, 0x0, 0, [⟨0, 32, .rw, false⟩]⟩,
  ⟨R.DRV_PSCALE, 1, 0x0, 1, 0x0, 0, [⟨0, 32, .rw, false⟩]⟩,
  ⟨R.DRV_TQREF, 1, 0x0, 1, 0x0, 0, []⟩,
  ⟨R.DRV_FXREF, 1, 0x0, 1, 0x0, 0, []⟩,
  ⟨R.DRV_EST, 1, 0x0, 1, 0x0, 0, []⟩,
  ⟨R.DRV_IAB, 1, 0x0, 1, 0x0, 0, []⟩,
  ⟨R.DRV_ANG_S, 1, 0x0, 1, 0x0, 0, []⟩,
  ⟨R.DRV_ANG_E, 1, 0x0, 1, 0x0, 0, []⟩,
  ⟨R.DRV_SPD, 1, 0x0, 1, 0x0, 0, []⟩,
  ⟨R.DRV_SDIFF, 1, 0x0, 1, 0x0, 0, []⟩,
  ⟨R.DRV_POS_E, 1, 0x0, 1, 0x0, 0, []⟩,
  ⟨R.DRV_SPD_L, 1, 0x0, 1, 0x0, 0, []⟩,
  ⟨R.DRV_EST_T, 1, 0x0, 1, 0x0, 0, []⟩,
  ⟨R.DRV_DRAG, 1, 0x0, 1, 0x100000, 0, []⟩,
  ⟨R.DRV_CNT_0, 1, 0x0, 1, 0x0, 0, []⟩,
  ⟨R.DRV_CNT_1, 1, 0x0, 1, 0x0, 0, []⟩,
  ⟨R.DRV_CNT_2, 1, 0x0, 1, 0x0, 0, []⟩,
  ⟨R.DRV_SWCNT_LO, 1, 0x0, 1, 0x0, 0, []⟩,
  ⟨R.DRV_SWCNT_HI, 1, 0x0, 1, 0x0, 0, []⟩,
  ⟨R.DRV_EVT, 1, 0x0, 1, 0x0, 0, [⟨0, 1, .w1c, false⟩, ⟨1, 1, .w1c, false⟩, ⟨2, 1, .w1c, false⟩, ⟨3, 1, .w1c, false⟩, ⟨4, 1, .w1c, false⟩, ⟨5, 1, .w1c, false⟩]⟩] ++ [
  ⟨R.DRV_EVIE, 1, 0x0, 1, 0x0, 0, [⟨0, 6, .rw, false⟩]⟩]

/-- Rows of the block-specific registers of loop. -/
def rows_loop : List RegRow := [
  ⟨R.LOOP_ECTL, 1, 0x0, 1, 0x0, 0, [⟨0, 1, .rw, false⟩, ⟨1, 1, .rw, false⟩]⟩,
  ⟨R.LOOP_DONE, 1, 0x0, 1, 0x0, 0, [⟨0, 1, .w1c, false⟩]⟩,
  ⟨R.LOOP_LOAD, 1, 0x0, 1, 0x0, 0, []⟩,
  ⟨R.LOOP_SHARE, 1, 0x0, 1, 0x0, 0, []⟩,
  ⟨R.LOOP_KVAL, 8, 0x0, 1, 0x0, 0, [⟨0, 16, .rw, false⟩]⟩,
  ⟨R.LOOP_IN, 16, 0x0, 1, 0x0, 0, [⟨0, 8, .rw, false⟩, ⟨8, 5, .rw, false⟩, ⟨16, 12, .rw, false⟩]⟩,
  ⟨R.LOOP_OUT, 8, 0x0, 1, 0x0, 0, [⟨0, 3, .rw, false⟩, ⟨4, 2, .rw, false⟩, ⟨6, 2, .rw, false⟩]⟩,
  ⟨R.LOOP_PRG_CTL, 8, 0x0, 1, 0x4002, 0, [⟨0, 1, .rw, false⟩, ⟨1, 6, .rw, false⟩, ⟨7, 6, .rw, false⟩, ⟨13, 2, .rw, false⟩, ⟨15, 3, .rw, false⟩]⟩,
  ⟨R.LOOP_PRG_CODE, 8, 0x0, 1, 0x0, 0, [⟨0, 12, .rw, false⟩, ⟨16, 12, .rw, false⟩]⟩,
  ⟨R.LOOP_PRG_DWIN, 8, 0x0, 1, 0x0, 0, [⟨0, 12, .rw, false⟩, ⟨16, 12, .rw, false⟩]⟩,
  ⟨R.LOOP_PRG_SRC, 8, 0x0, 1, 0x0, 0, [⟨0, 8, .rw, false⟩, ⟨8, 8, .rw, false⟩, ⟨16, 8, .rw, false⟩, ⟨28, 1, .w1s, true⟩]⟩,
  ⟨R.LOOP_PRG_SCL, 8, 0x0, 1, 0x0, 0, [⟨0, 5, .rw, false⟩, ⟨8, 5, .rw, false⟩, ⟨16, 5, .rw, false⟩]⟩,
  ⟨R.LOOP_PRG_SUP, 8, 0x0, 1, 0x400140a, 0, [⟨0, 8, .rw, false⟩, ⟨8, 8, .rw, false⟩, ⟨16, 15, .rw, false⟩]⟩,
  ⟨R.LOOP_PRG_BKC, 8, 0x0, 1, 0x0, 0, [⟨0, 12, .rw, false⟩, ⟨12, 12, .rw, false⟩, ⟨24, 4, .rw, false⟩, ⟨31, 1, .rw, false⟩]⟩,
  ⟨R.LOOP_PRG_SP, 8, 0x0, 1, 0x0, 0, [⟨0, 16, .rw, false⟩]⟩,
  ⟨R.LOOP_PRG_RAMP, 8, 0x0, 1, 0x207fff, 0, [⟨0, 15, .rw, false⟩, ⟨16, 15, .rw, false⟩]⟩,
  ⟨R.LOOP_PRG_STAT, 8, 0x0, 1, 0x0, 0, []⟩,
  ⟨R.LOOP_PRG_RSP, 8, 0x0, 1, 0x0, 0, []⟩,
  ⟨R.LOOP_PRG_CYC, 8, 0x0, 1, 0x0, 0, []⟩]

/-- Rows of the block-specific registers of hk. -/
def rows_hk : List RegRow := [
  ⟨R.HK_ROUND, 1, 0x0, 1, 0x0, 0, []⟩,
  ⟨R.HK_LD, 1, 0x0, 1, 0x91, 0, [⟨0, 8, .rw, false⟩]⟩,
  ⟨R.HK_TEMP, 8, 0x0, 1, 0x0, 0, []⟩,
  ⟨R.HK_NBR, 8, 0x0, 1, 0xa00, 0xffff, [⟨0, 8, .rwl, false⟩, ⟨8, 8, .rwl, false⟩]⟩,
  ⟨R.HK_TD_CFG, 4, 0x0, 1, 0xf3c3e80, 0xfffffff3, [⟨0, 2, .rwl, false⟩, ⟨4, 12, .rwl, false⟩, ⟨16, 16, .rwl, false⟩]⟩,
  ⟨R.HK_THR, 4, 0x0, 1, 0x882, 0xfff, [⟨0, 8, .rwl, false⟩, ⟨8, 4, .rwl, false⟩]⟩,
  ⟨R.HK_SLOT, 24, 0x0, 1, 0x0, 0, []⟩]

/-- Rows of the block-specific registers of bist. -/
def rows_bist : List RegRow := [
  ⟨R.BIST_SCHED, 1, 0x0, 1, 0x1401, 0, [⟨0, 1, .rw, false⟩, ⟨8, 8, .rw, false⟩]⟩,
  ⟨R.BIST_SLICE, 1, 0x0, 1, 0x0, 0, [⟨0, 4, .rw, false⟩, ⟨8, 4, .rw, false⟩, ⟨12, 1, .wo, true⟩, ⟨15, 1, .w1c, false⟩]⟩,
  ⟨R.BIST_SDUR, 1, 0x0, 1, 0x0, 0, []⟩,
  ⟨R.BIST_FCOV, 1, 0x0, 1, 0x0, 0, []⟩,
  ⟨R.BIST_FRES, 1, 0x0, 1, 0x0, 0, [⟨5, 1, .w1c, false⟩]⟩,
  ⟨R.BIST_FPART, 1, 0x0, 1, 0x0, 0, []⟩,
  ⟨R.BIST_FSKIP, 1, 0x0, 1, 0x0, 0, []⟩,
  ⟨R.BIST_PRUNE_0, 1, 0x0, 1, 0x0, 0, []⟩,
  ⟨R.BIST_HELD_0, 1, 0x0, 1, 0x0, 0, []⟩,
  ⟨R.BIST_PRUNE_1, 1, 0x0, 1, 0x0, 0, []⟩,
  ⟨R.BIST_HELD_1, 1, 0x0, 1, 0x0, 0, []⟩]

/-- Rows of the block-specific registers of alm. -/
def rows_alm : List RegRow := [
  ⟨R.ALM_CTL, 1, 0x0, 1, 0x0, 0, [⟨0, 1, .wo, true⟩, ⟨1, 1, .wo, true⟩]⟩,
  ⟨R.ALM_STAT, 1, 0x0, 1, 0x0, 0, []⟩,
  ⟨R.ALM_CAL, 1, 0x0, 1, 0x0, 0, []⟩,
  ⟨R.ALM_CALSET, 1, 0x0, 1, 0x0, 0, [⟨0, 32, .wo, true⟩]⟩,
  ⟨R.ALM_WAKEAT, 1, 0x0, 1, 0x0, 0, [⟨0, 32, .rw, false⟩]⟩]

/-- Rows of the block-specific registers of can. -/
def rows_can : List RegRow := [
  ⟨R.CAN_MODE, 1, 0x0, 1, 0x10, 0, [⟨0, 1, .rw, true⟩, ⟨1, 1, .rw, false⟩, ⟨2, 1, .rw, false⟩, ⟨3, 1, .rw, false⟩, ⟨4, 1, .rw, false⟩, ⟨5, 1, .rw, false⟩, ⟨6, 1, .rw, false⟩, ⟨7, 1, .rw, false⟩, ⟨8, 1, .rw, false⟩]⟩,
  ⟨R.CAN_NBT, 1, 0x0, 1, 0x274e9e01, 0, [⟨0, 8, .rw, false⟩, ⟨8, 9, .rw, false⟩, ⟨17, 7, .rw, false⟩, ⟨24, 7, .rw, false⟩]⟩,
  ⟨R.CAN_DBT, 1, 0x0, 1, 0x13134e00, 0, [⟨0, 8, .rw, false⟩, ⟨8, 8, .rw, false⟩, ⟨16, 5, .rw, false⟩, ⟨24, 5, .rw, false⟩]⟩,
  ⟨R.CAN_XBT, 1, 0x0, 1, 0x3030e00, 0, [⟨0, 8, .rw, false⟩, ⟨8, 8, .rw, false⟩, ⟨16, 5, .rw, false⟩, ⟨24, 5, .rw, false⟩]⟩,
  ⟨R.CAN_TDC, 1, 0x0, 1, 0x10000150, 0, [⟨0, 8, .rw, false⟩, ⟨8, 1, .rw, false⟩, ⟨24, 8, .rw, false⟩]⟩,
  ⟨R.CAN_XLPWM, 1, 0x0, 1, 0x1e0a, 0, [⟨0, 6, .rw, false⟩, ⟨8, 6, .rw, false⟩, ⟨16, 6, .rw, false⟩]⟩,
  ⟨R.CAN_ERR, 1, 0x0, 1, 0x0, 0, [⟨24, 1, .wo, true⟩]⟩,
  ⟨R.CAN_CNT, 1, 0x0, 1, 0x0, 0, []⟩,
  ⟨R.CAN_TXRQ, 4, 0x0, 1, 0x0, 0, [⟨0, 32, .w1s, true⟩]⟩,
  ⟨R.CAN_TXCAN, 4, 0x0, 1, 0x0, 0, [⟨0, 32, .w1s, true⟩]⟩,
  ⟨R.CAN_TXEV, 4, 0x0, 1, 0x0, 0, [⟨0, 32, .w1c, false⟩]⟩,
  ⟨R.CAN_RXEV, 4, 0x0, 1, 0x0, 0, [⟨0, 32, .w1c, false⟩]⟩,
  ⟨R.CAN_EVIE, 1, 0x0, 1, 0x0, 0, [⟨0, 1, .rw, false⟩, ⟨1, 1, .rw, false⟩]⟩,
  ⟨R.CAN_WAKE, 1, 0x0, 1, 0x214, 0, [⟨0, 2, .rw, false⟩, ⟨2, 6, .rw, false⟩, ⟨8, 2, .rw, false⟩, ⟨10, 1, .rw, false⟩, ⟨11, 4, .rw, false⟩]⟩,
  ⟨R.CAN_WKID, 1, 0x0, 1, 0x0, 0, [⟨0, 29, .rw, false⟩, ⟨29, 1, .rw, false⟩]⟩,
  ⟨R.CAN_WKMASK, 1, 0x0, 1, 0x0, 0, [⟨0, 29, .rw, false⟩, ⟨29, 1, .rw, false⟩]⟩,
  ⟨R.CAN_WKDATA, 2, 0x0, 1, 0x0, 0, [⟨0, 32, .rw, false⟩]⟩,
  ⟨R.CAN_WKDMASK, 2, 0x0, 1, 0x0, 0, [⟨0, 32, .rw, false⟩]⟩,
  ⟨R.CAN_WKSTAT, 1, 0x0, 1, 0x0, 0, [⟨8, 1, .w1c, false⟩]⟩]

/-- Rows of the block-specific registers of flx. -/
def rows_flx : List RegRow := [
  ⟨R.FLX_CTL, 1, 0x0, 1, 0x100, 0, [⟨0, 1, .rw, true⟩, ⟨1, 2, .rw, false⟩, ⟨3, 2, .rw, false⟩, ⟨5, 1, .rw, false⟩, ⟨6, 2, .rw, false⟩, ⟨8, 1, .rw, false⟩, ⟨9, 1, .wo, true⟩, ⟨10, 1, .rw, false⟩]⟩,
  ⟨R.FLX_CYC, 1, 0x0, 1, 0x0, 0, [⟨0, 14, .rw, false⟩, ⟨14, 10, .rw, false⟩]⟩,
  ⟨R.FLX_SLOT, 1, 0x0, 1, 0x0, 0, [⟨0, 10, .rw, false⟩, ⟨10, 6, .rw, false⟩, ⟨16, 8, .rw, false⟩, ⟨24, 8, .rw, false⟩]⟩,
  ⟨R.FLX_DYN, 1, 0x0, 1, 0x0, 0, [⟨0, 13, .rw, false⟩, ⟨13, 13, .rw, false⟩]⟩,
  ⟨R.FLX_KEY, 1, 0x0, 1, 0x280000, 0, [⟨0, 10, .rw, false⟩, ⟨10, 8, .rw, false⟩, ⟨18, 4, .rw, false⟩]⟩,
  ⟨R.FLX_INTEG, 1, 0x0, 1, 0x2082802, 0, [⟨0, 5, .rw, false⟩, ⟨8, 8, .rw, false⟩, ⟨16, 8, .rw, false⟩, ⟨24, 4, .rw, false⟩]⟩,
  ⟨R.FLX_CCLIM, 1, 0x0, 1, 0x4021020, 0, [⟨0, 8, .rw, false⟩, ⟨8, 8, .rw, false⟩, ⟨16, 4, .rw, false⟩, ⟨20, 8, .rw, false⟩]⟩,
  ⟨R.FLX_POC, 1, 0x0, 1, 0x0, 0, []⟩,
  ⟨R.FLX_CORR, 1, 0x0, 1, 0x0, 0, []⟩,
  ⟨R.FLX_MTCS, 1, 0x0, 1, 0x0, 0, []⟩,
  ⟨R.FLX_MTPER, 1, 0x0, 1, 0x0, 0, []⟩,
  ⟨R.FLX_CPI, 4, 0x0, 1, 0x0, 0, [⟨0, 14, .rw, false⟩, ⟨14, 6, .rw, false⟩, ⟨20, 3, .rw, false⟩, ⟨23, 1, .rw, false⟩]⟩,
  ⟨R.FLX_EVT, 1, 0x0, 1, 0x0, 0, [⟨0, 4, .w1c, false⟩, ⟨4, 1, .w1c, false⟩, ⟨5, 1, .w1c, false⟩, ⟨8, 6, .rw, false⟩]⟩,
  ⟨R.FLX_CNT, 1, 0x0, 1, 0x0, 0, []⟩,
  ⟨R.FLX_TXRQ, 4, 0x0, 1, 0x0, 0, [⟨0, 32, .w1s, true⟩]⟩,
  ⟨R.FLX_TXEV, 4, 0x0, 1, 0x0, 0, [⟨0, 32, .w1c, false⟩]⟩,
  ⟨R.FLX_RXEV, 4, 0x0, 1, 0x0, 0, [⟨0, 32, .w1c, false⟩]⟩,
  ⟨R.FLX_EVIE, 1, 0x0, 1, 0x0, 0, [⟨0, 1, .rw, false⟩, ⟨1, 1, .rw, false⟩]⟩]

/-- Rows of the block-specific registers of eth. -/
def rows_eth : List RegRow := [
  ⟨R.ETH_PORT_CFG, 3, 0x0, 1, 0x0, 0, [⟨0, 1, .rw, false⟩, ⟨1, 1, .rw, false⟩, ⟨2, 1, .rw, false⟩, ⟨3, 1, .rw, false⟩, ⟨4, 12, .rw, false⟩]⟩,
  ⟨R.ETH_PORT_STAT, 3, 0x0, 1, 0x0, 0, [⟨1, 1, .w1c, false⟩]⟩,
  ⟨R.ETH_PORT_DLY, 3, 0x0, 1, 0x0, 0, [⟨0, 16, .rw, false⟩, ⟨16, 16, .rw, false⟩]⟩,
  ⟨R.ETH_T1S, 1, 0x0, 1, 0x14080800, 0, [⟨0, 8, .rw, false⟩, ⟨8, 8, .rw, false⟩, ⟨16, 8, .rw, false⟩, ⟨24, 6, .rw, false⟩]⟩,
  ⟨R.ETH_PTP, 1, 0x0, 1, 0xf80100, 0, [⟨0, 8, .rw, false⟩, ⟨8, 8, .rw, false⟩, ⟨16, 8, .rw, false⟩]⟩,
  ⟨R.ETH_PTP_OFSV, 1, 0x0, 1, 0x0, 0, []⟩,
  ⟨R.ETH_QBV, 3, 0x0, 1, 0x0, 0, [⟨0, 1, .rw, false⟩, ⟨1, 1, .wo, true⟩, ⟨3, 7, .rw, false⟩]⟩]

/-- Rows of the block-specific registers of twp. -/
def rows_twp : List RegRow := [
  ⟨R.TWP_CFG, 1, 0x0, 1, 0x88b5, 0xffff, [⟨0, 16, .rwl, false⟩, ⟨16, 1, .rw, false⟩]⟩,
  ⟨R.TWP_TXREQ, 1, 0x0, 1, 0x0, 0, [⟨0, 6, .wo, true⟩]⟩,
  ⟨R.TWP_TXSEQ, 1, 0x0, 1, 0x0, 0, [⟨0, 32, .wo, false⟩]⟩,
  ⟨R.TWP_PAIROFS, 1, 0x0, 1, 0x0, 0, []⟩,
  ⟨R.TWP_RXQ, 1, 0x0, 1, 0x0, 0, [⟨14, 1, .wo, true⟩]⟩]

/-- Rows of the block-specific registers of preq. -/
def rows_preq : List RegRow := [
  ⟨R.PREQ_CFG, 1, 0x0, 1, 0x3, 0, [⟨0, 8, .rw, false⟩]⟩,
  ⟨R.PREQ_CMD, 1, 0x0, 1, 0x0, 0, [⟨0, 4, .wo, true⟩, ⟨4, 4, .wo, true⟩, ⟨8, 12, .wo, true⟩]⟩,
  ⟨R.PREQ_STAT, 1, 0x0, 1, 0x0, 0, []⟩,
  ⟨R.PREQ_RAIL, 3, 0x0, 1, 0x0, 0, []⟩,
  ⟨R.PREQ_CNT, 1, 0x0, 1, 0x0, 0, []⟩]

/-- Rows of the block-specific registers of nvmc. -/
def rows_nvmc : List RegRow := [
]

/-- Rows of the block-specific registers of msup. -/
def rows_msup : List RegRow := [
  ⟨R.MSUP_CFG, 1, 0x0, 1, 0x4008, 0, [⟨0, 8, .rw, false⟩, ⟨8, 8, .rw, false⟩]⟩,
  ⟨R.MSUP_PASS, 1, 0x0, 1, 0x0, 0, []⟩,
  ⟨R.MSUP_CE, 1, 0x0, 1, 0x0, 0, []⟩,
  ⟨R.MSUP_UE, 1, 0x0, 1, 0x0, 0, []⟩,
  ⟨R.MSUP_ADDR, 1, 0x0, 1, 0x0, 0, []⟩,
  ⟨R.MSUP_LAST, 1, 0x0, 1, 0x0, 0, []⟩,
  ⟨R.MSUP_SRAM, 1, 0x0, 1, 0x10000, 0, []⟩,
  ⟨R.MSUP_REPAIR, 1, 0x0, 1, 0x0, 0, []⟩,
  ⟨R.MSUP_DECCHK, 1, 0x0, 1, 0x0, 0, []⟩]

/-- Rows of the block-specific registers of dbg. -/
def rows_dbg : List RegRow := [
]

/-- Rows of the block-specific registers of gd. -/
def rows_gd : List RegRow := [
  ⟨R.GD_DT, 1, 0x0, 1, 0xff, 0xfff, []⟩,
  ⟨R.GD_DTFUSE, 1, 0x0, 1, 0x0, 0, [⟨0, 16, .wo, true⟩, ⟨16, 2, .wo, true⟩, ⟨18, 2, .wo, true⟩]⟩,
  ⟨R.GD_VCMD, 1, 0x0, 1, 0x0, 0, []⟩,
  ⟨R.GD_GMODE, 1, 0x0, 1, 0x1111, 0, []⟩,
  ⟨R.GD_LSTOP, 1, 0x0, 1, 0x101, 0, [⟨16, 1, .wo, true⟩]⟩,
  ⟨R.GD_UVLO, 1, 0x0, 1, 0x1ffff, 0, []⟩,
  ⟨R.GD_ILK, 1, 0x0, 1, 0x0, 0, []⟩,
  ⟨R.GD_STO, 1, 0x0, 1, 0x0, 0, [⟨12, 4, .w1c, true⟩]⟩,
  ⟨R.GD_SOPT, 1, 0x0, 1, 0xa01, 0xff01, [⟨0, 1, .rwl, false⟩, ⟨8, 8, .rwl, false⟩]⟩,
  ⟨R.GD_SOPFAIL, 1, 0x0, 1, 0x0, 0, [⟨0, 25, .w1c, false⟩]⟩,
  ⟨R.GD_SOPOVD, 1, 0x0, 1, 0x0, 0, []⟩,
  ⟨R.GD_ALIVE, 1, 0x0, 1, 0x0, 0, [⟨0, 16, .wo, true⟩]⟩]

/-- Rows of the block-specific registers of prot. -/
def rows_prot : List RegRow := [
  ⟨R.PROT_OV, 1, 0x0, 1, 0xfc00e8, 0x3ff03ff, [⟨0, 10, .rwl, false⟩, ⟨16, 10, .rwl, false⟩]⟩,
  ⟨R.PROT_VM, 1, 0x0, 1, 0x10, 0, []⟩,
  ⟨R.PROT_SCTH, 1, 0x0, 1, 0x64c896, 0xffffff, [⟨0, 8, .rwl, false⟩, ⟨8, 8, .rwl, false⟩, ⟨16, 8, .rwl, false⟩]⟩,
  ⟨R.PROT_SCCFG, 1, 0x0, 1, 0x14ff, 0xff, [⟨0, 4, .rwl, false⟩, ⟨4, 4, .rwl, false⟩, ⟨8, 8, .rw, false⟩]⟩,
  ⟨R.PROT_SCSTAT, 1, 0x0, 1, 0x0, 0, [⟨0, 24, .w1c, false⟩]⟩,
  ⟨R.PROT_LATCH, 1, 0x0, 1, 0x0, 0, [⟨0, 4, .w1c, true⟩]⟩,
  ⟨R.PROT_REG, 1, 0x0, 1, 0x8, 0, [⟨0, 8, .rw, false⟩]⟩,
  ⟨R.PROT_BRK, 1, 0x0, 1, 0x1901, 0xff01, [⟨0, 1, .rwl, false⟩, ⟨8, 8, .rwl, false⟩]⟩,
  ⟨R.PROT_BRKCNT, 1, 0x0, 1, 0x0, 0, []⟩,
  ⟨R.PROT_ODIAG, 1, 0x0, 1, 0x888800, 0, [⟨0, 4, .wo, true⟩, ⟨4, 1, .wo, true⟩]⟩]

/-- Rows of the block-specific registers of icv. -/
def rows_icv : List RegRow := [
  ⟨R.ICV_WIN, 1, 0x0, 1, 0x20064, 0, [⟨0, 15, .rw, false⟩]⟩,
  ⟨R.ICV_AMP, 1, 0x0, 1, 0x55, 0xff, [⟨0, 2, .rwl, false⟩, ⟨2, 2, .rwl, false⟩, ⟨4, 2, .rwl, false⟩, ⟨6, 2, .rwl, false⟩]⟩,
  ⟨R.ICV_CHEN, 1, 0x0, 1, 0xff, 0, [⟨0, 8, .rw, false⟩]⟩,
  ⟨R.ICV_WSTAT, 1, 0x0, 1, 0x0, 0, [⟨16, 1, .w1c, false⟩, ⟨17, 1, .rw, false⟩]⟩,
  ⟨R.ICV_WEND, 1, 0x0, 1, 0x0, 0, []⟩,
  ⟨R.ICV_RES, 8, 0x0, 1, 0x0, 0, []⟩,
  ⟨R.ICV_HRES, 8, 0x0, 1, 0x0, 0, []⟩]

/-- Rows of the block-specific registers of hsf. -/
def rows_hsf : List RegRow := [
  ⟨R.HSF_DEC_CFG, 1, 0x0, 1, 0x3c0200, 0x3fffffff, [⟨0, 2, .rwl, false⟩, ⟨2, 2, .rwl, false⟩, ⟨4, 1, .rwl, false⟩, ⟨5, 2, .rwl, false⟩, ⟨7, 1, .rwl, false⟩, ⟨8, 8, .rwl, false⟩, ⟨16, 12, .rwl, false⟩, ⟨28, 1, .rwl, false⟩, ⟨29, 1, .rwl, false⟩]⟩,
  ⟨R.HSF_DEC_E0LAT, 1, 0x0, 1, 0x0, 0, []⟩,
  ⟨R.HSF_DEC_E1LAT, 1, 0x0, 1, 0x0, 0, []⟩,
  ⟨R.HSF_DEC_S0, 1, 0x0, 1, 0x0, 0, []⟩,
  ⟨R.HSF_DEC_STAT, 1, 0x0, 1, 0x0, 0, []⟩,
  ⟨R.HSF_MAP, 1, 0x0, 1, 0x0, 0xff, [⟨0, 2, .rwl, false⟩, ⟨2, 2, .rwl, false⟩, ⟨4, 2, .rwl, false⟩, ⟨6, 1, .rwl, false⟩, ⟨7, 1, .rwl, false⟩]⟩,
  ⟨R.HSF_SLA, 1, 0x0, 1, 0xffff0000, 0xffffffff, [⟨0, 16, .rwl, false⟩, ⟨16, 16, .rwl, false⟩]⟩,
  ⟨R.HSF_L1, 1, 0x0, 1, 0xffff0000, 0xffffffff, [⟨0, 16, .rwl, false⟩, ⟨16, 16, .rwl, false⟩]⟩,
  ⟨R.HSF_SLR, 1, 0x0, 1, 0x14ffff, 0xffffff, [⟨0, 16, .rwl, false⟩, ⟨16, 8, .rwl, false⟩]⟩,
  ⟨R.HSF_TOL, 1, 0x0, 1, 0x40002, 0xffff000f, [⟨0, 4, .rwl, false⟩, ⟨16, 16, .rwl, false⟩]⟩,
  ⟨R.HSF_ARM, 1, 0x0, 1, 0x0, 0, [⟨0, 1, .rw, false⟩, ⟨1, 1, .rw, false⟩, ⟨2, 1, .rw, false⟩, ⟨3, 1, .rw, false⟩, ⟨4, 4, .rw, false⟩]⟩,
  ⟨R.HSF_STO, 1, 0x0, 1, 0x0, 0, [⟨0, 4, .w1s, true⟩, ⟨4, 4, .wo, true⟩]⟩,
  ⟨R.HSF_VIOL, 1, 0x0, 1, 0x0, 0, []⟩,
  ⟨R.HSF_SEAL, 1, 0x0, 1, 0x0, 0, []⟩,
  ⟨R.HSF_SEALREF, 1, 0x0, 1, 0x0, 0, [⟨0, 32, .rwl, false⟩]⟩,
  ⟨R.HSF_SEALCMD, 1, 0x0, 1, 0x0, 0, [⟨0, 1, .wo, true⟩, ⟨1, 1, .wo, true⟩, ⟨16, 9, .rwl, false⟩]⟩,
  ⟨R.HSF_MIR, 512, 0x0, 1, 0x0, 0, [⟨0, 32, .rwl, false⟩]⟩]

/-- Rows of the block-specific registers of sdl. -/
def rows_sdl : List RegRow := [
  ⟨R.SDL_BAND_TQ, 1, 0x0, 1, 0x200, 0x7fff, [⟨0, 15, .rwl, false⟩]⟩,
  ⟨R.SDL_BAND_FX, 1, 0x0, 1, 0x100, 0x7fff, [⟨0, 15, .rwl, false⟩]⟩,
  ⟨R.SDL_VSTAT, 1, 0x0, 1, 0x0, 0, []⟩,
  ⟨R.SDL_MINCNT, 1, 0x0, 1, 0x0, 0, []⟩,
  ⟨R.SDL_XINH, 1, 0x0, 1, 0x0, 0, [⟨4, 1, .w1c, true⟩, ⟨5, 1, .w1c, false⟩]⟩,
  ⟨R.SDL_TIMING, 1, 0x0, 1, 0x0, 0, []⟩,
  ⟨R.SDL_LATE, 1, 0x0, 1, 0x0, 0, []⟩]

/-- Rows of the block-specific registers of ths. -/
def rows_ths : List RegRow := [
  ⟨R.THS_STAT, 1, 0x0, 1, 0x0, 0, []⟩,
  ⟨R.THS_TDK, 1, 0x0, 1, 0x0, 0xfff, []⟩,
  ⟨R.THS_TDF, 4, 0x0, 1, 0x0, 0xffffffff, []⟩,
  ⟨R.THS_TDFUSE, 1, 0x0, 1, 0x0, 0, [⟨0, 16, .wo, true⟩, ⟨16, 2, .wo, true⟩, ⟨18, 2, .wo, true⟩]⟩,
  ⟨R.THS_TDFVAL, 1, 0x0, 1, 0x0, 0, [⟨0, 16, .rw, false⟩, ⟨16, 16, .rw, false⟩]⟩]

/-- Rows of the block-specific registers of hlnk. -/
def rows_hlnk : List RegRow := [
]

/-- The block-specific rows of a block. -/
def regRows : Blk → List RegRow
  | .sys => rows_sys
  | .pwr => rows_pwr
  | .clk => rows_clk
  | .trio => rows_trio
  | .cmdq => rows_cmdq
  | .ozl => rows_ozl
  | .saf => rows_saf
  | .cnv => rows_cnv
  | .cnvSq => rows_cnvSq
  | .pos => rows_pos
  | .drv => rows_drv
  | .loop => rows_loop
  | .hk => rows_hk
  | .bist => rows_bist
  | .alm => rows_alm
  | .can => rows_can
  | .flx => rows_flx
  | .eth => rows_eth
  | .twp => rows_twp
  | .preq => rows_preq
  | .nvmc => rows_nvmc
  | .msup => rows_msup
  | .dbg => rows_dbg
  | .gd => rows_gd
  | .prot => rows_prot
  | .icv => rows_icv
  | .hsf => rows_hsf
  | .sdl => rows_sdl
  | .ths => rows_ths
  | .hlnk => rows_hlnk

end Sys2Proof.Machine
end

