-- ==== Sys2Proof/Machine/State.lean ====
section
/-!
DEFINITION. Machine/State.lean: the state of the module as plain data. Registers and addressed memories are sparse lists in one
canonical form (Ops.lean); everything else the spec gives the part stands in the structures below, each field's default being
its value at reset. State.reset is the module with each lane just after its Hedge power-on reset (R45).
-/

namespace Sys2Proof.Machine

/-! ### Hidden state of Anatomy of the module (01) -/

/-- One access of a core to the Hedge window in the logic die's link master (R21, R24): `tries` retransmissions made, header
beat of the running attempt at `at`. -/
structure HAccess where
  write : Bool
  off : Nat
  data : Word
  tries : Nat
  sentAt : Nat
  deriving DecidableEq, Repr

/-- The Hedge link of a lane, both ends (R15 to R25, R39, R40, R265). Times are the lane's `now`, in ticks of 5 ns. -/
structure LinkSt where
  trained : Bool := false                 -- the link has trained since the last lane reset (Table 1.9)
  lastLeg : Nat := 0                      -- Hedge: arrival of the last valid LEG (R23)
  legsSince : Nat := 0                    -- Hedge: start of the present run of valid LEGs with no gap of 2 us (Table 7.6)
  lastLegSent : Nat := 0                  -- logic die: last LEG sent (R19)
  legOut : List (BitVec 2) := List.replicate 12 0  -- logic die: the twelve leg states of the last LEG sent
  accesses : List HAccess := []           -- logic die: accesses in program order, the head in flight (R24)
  rsp : Option (Nat × Word) := none       -- Hedge: the RSP on its way, status and data
  lastTimeSent : Nat := 0                 -- logic die: last TIME sent (R40)
  timePend : Bool := false                -- a TIME transfer is on its way
  mtAgo : List Word := [0, 0]             -- logic die: module time [31:0] one and two ticks ago, the time of a CRC beat in flight
  hedgeMt : Word := 0                     -- Hedge: copy of module time [31:0] (R39)
  rcLoad : Word × Nat := (0, 0)           -- Hedge: the copy as last loaded, and the RC cycle of that load
  times : List (Word × Nat) := []         -- Hedge: payloads of the last 16 valid TIME transfers and their RC cycles, newest first
  inc : Nat × Nat := (5, 1)               -- Hedge: advance of the copy per RC cycle, in ticks, as a quotient (R40)
  lastTime : Nat := 0                     -- Hedge: arrival of the last valid TIME
  timeLost : Bool := false                -- Hedge: TIME_LOST recorded since the last valid TIME
  lastIrq : Nat := 0                      -- Hedge: last IRQ sent (R265)
  irqLines : Nat := 0                     -- logic die: Hedge source lines of the last IRQ
  gateWord : Word := 0                    -- logic die: gate-state word of the last IRQ, beat 1 of Table 7.7
  ident : List Word := [0, 0, 0, 0x48444201]  -- Hedge: its fused identity, LOT_0, LOT_1, POS, STEP (Table 1.9, R65)
  downLine : Bool := false                -- logic die: source 79 asserted by the link master (R62)
  clkBadAt : Nat := 0                     -- Hedge: last time the link clock was found more than 5 % off (R28)
  deriving DecidableEq, Repr

/-- The state of a frequency-level change (R31 to R33). -/
inductive ClkPhase where
  | idle
  | raiseAck (target : Nat)               -- higher VCORE_x requested, waiting for the PMIC acknowledge
  | raiseSettle (target : Nat) (ackAt : Nat)  -- acknowledged, 50 us running
  | lowerAck (target : Nat)               -- clocks switched, lower VCORE_x requested
  deriving DecidableEq, Repr

/-- Clocks and module time of a lane (R26 to R41). -/
structure ClkSt where
  phase : ClkPhase := .idle
  nextLevel : Option Nat := none          -- a level written while a change is in progress (R33)
  xtalOk : Bool := false                  -- the 40 MHz crystal clock is valid
  pllOn : Bool := false                   -- PLL outputs run; module time counts
  aonLostAt : Option Nat := none          -- the 32.768 kHz crystal is off since (R29)
  skipTick : Bool := false                   -- the next tick of module time is omitted (R34)
  lastSteer : Nat := 0
  driftSince : Option Nat := none         -- the copy lies more than 20 ns off since (R37)
  adopted : Bool := false                 -- module time adopted since the lane reset (R36)
  deriving DecidableEq, Repr

/-- Where the logic die stands in the lane reset order (Table 1.9). -/
inductive RstPhase where
  | held | wiping | clocked | linked | running
  | parked                                -- parked sleep, and the start of a wake before the crystal is valid (15)
  deriving DecidableEq, Repr

/-- Resets and supplies of a lane (R42 to R45, Table 1.8). -/
structure ResetSt where
  vbatOk : Bool := true                   -- VBAT_x valid: above 4.9 V, not yet below 4.5 V
  sources : List RstSrc := [.por]         -- the reset sources asserted now
  phase : RstPhase := .held
  phaseAt : Nat := 0
  powered : Bool := false                 -- AON has asked for the rails since the Hedge power-on (R543)
  deriving DecidableEq, Repr

/-- One token of a leaky bucket: block, instance, element within the block, module time of the event (R378). -/
structure Token where
  blk : Blk
  inst : Nat
  sub : Nat
  time : Nat
  deriving DecidableEq, Repr

/-! ### Hidden state of Three lanes, one authority (02) -/

/-- What a slot 0 of a link cycle carried (Table 2.3). -/
inductive Slot0 where
  | idle | vote | relay
  deriving DecidableEq, Repr

/-- The phases of forming, grafting and fallow are in OZL_GRAFT and OZL_LSTATE; this is what OZL holds beside them. -/
structure OzlSt where
  lastHeart : List Nat := [0, 0, 0]       -- last valid HEART per link (LINK_0, LINK_1, LINK_2)
  peerMt : List (Option (Nat × Nat)) := [none, none]  -- peer's compensated module time and the `now` it arrived at
  peerFlags : List Byte := [0, 0]         -- heartbeat flags of the peers (HSTOP bit 0, SOLO bit 1)
  training : List Bool := [false, false, false]  -- a retraining is in progress
  lastTrain : List Nat := [0, 0, 0]
  trainFails : List Nat := [0, 0, 0]      -- retrainings failed in succession (R70)
  cellOut : Option VoteCell := none       -- the cell built for the next boundary (R72)
  cellSent : Bool := false
  shLate : Bool := false                  -- a loop program overran at this boundary (R93, R192)
  relayOut : List (Option (List Byte)) := [none, none]  -- payloads to relay on each link in the next cycle (R71)
  relayItems : List (List StreamItem) := [[], []]  -- stream traffic to relay on each link in the next cycle (R71)
  txCyc : List Nat := [0, 0]
  txSlot0 : List Slot0 := [.idle, .idle]
  txCells : List (List (List Byte)) := [[], []]  -- the cells of slots 0 and 1 of each link's cycle in progress (R66, R67)
  txItems : List (List StreamItem) := [[], []]  -- what slots 2 to 11 of that cycle carry
  peerCells : List (Option VoteCell) := [none, none]  -- last VOTE or RELAY_VOTE from next and previous lane
  peerCdig : List (Option Word) := [none, none]
  peerSdig : List (Option Word) := [none, none]
  cdig : Word := 0                        -- own configuration digest (Table 2.4)
  mirror : List (Nat × Word) := []        -- words of the status-window mirrors, by window address (R48)
  mirrorAt : List Nat := [0, 0, 0]        -- last refresh per window
  leavePend : BitVec 3 := 0               -- lanes to announce in LEAVE of the next cell (R96)
  joinPend : BitVec 3 := 0                -- lanes to announce in JOIN
  leaveNow : BitVec 3 := 0                -- lanes announced in LEAVE of the cell of this period, latched at its start with SHARE (R96)
  joinNow : BitVec 3 := 0
  shareNow : Nat := 0
  leaveTo : Nat := 1                      -- state a leaving own lane takes: 0 GRAFT, 2 FALLOW, 4 PRUNED
  graftAt : Nat := 0                      -- the lane entered GRAFT (Table 2.11, t = 0)
  lastAttempt : Nat := 0                  -- end of the last graft attempt (R94)
  graftDue : Nat := 0                     -- an EXCLUDED lane may start a graft from here on (R94)
  shadowOk : Nat := 0                     -- consecutive agreeing shadow votes (phase 4)
  shadowRestarts : Nat := 0
  readyAt : Option Nat := none            -- the lane became ready to form (R100)
  refPass : Nat := 0                      -- converters whose reference check passed since the lane reset or the graft's start
  odiagDone : BitVec 4 := 0               -- bridges whose off-state diagnostic passed since the lane reset
  chkFaults : Nat := 0                    -- CHK_FAULTs in this drive cycle (Table 2.9)
  lastBound : Option Nat := none          -- the boundary at module time T(k) has been carried out
  opMarks : Nat := 0                      -- 10 ms marks of operation in the minute of OZL_FALLOW.AGE in progress (R102)
  scoreAt : List Nat := []                -- times of the TRANSIENT events of the last 10 s (R89)
  failedRes : Nat := 0                    -- failed disagreement resolutions (R89)
  fallowDone : Nat := 0                   -- module time of the last completed fallow, 0 for none (R89)
  bootBad : Bool := false                 -- identity or life cycle did not match a peer's at boot (R63, R528)
  imageSeen : Bool := false               -- the donor's image has been streamed in this graft (Table 2.11 phase 3)
  markDig : Option (Word × Word) := none  -- own CDIG and SDIG of the last 10 ms mark (R115)
  markAt : Nat := 0                       -- module time of that mark
  sensors : List (Option SensorVal) := List.replicate 64 none  -- newest shared value, at 32 x link + code (R199)
  extLast : Nat := 0                      -- last heartbeat of the partner on the external port
  extCyc : Nat := 0
  partner : Option ExtBeat := none        -- the partner's last heartbeat
  extOut : Option ExtBeat := none         -- what slots 0 and 1 of the external cycle in progress carry (R110)
  extCell : List Byte := []               -- the heartbeat cell of slot 1
  deriving DecidableEq, Repr

/-- The Saddle of the lane's Hedge (R74 to R93). -/
structure SdlSt where
  cells : List (Option VoteCell) := [none, none, none]   -- cells taken for the coming boundary, lanes A, B, C
  cellAt : List Nat := [0, 0, 0]
  lastCellAt : Nat := 0
  lateMask : List Bool := [false, false, false]
  came : List Bool := [false, false, false]  -- a cell of the lane, valid or not, was complete in time (R93)
  decided : Bool := false                 -- the decision for the coming boundary has been made
  voted : Option Refs := none             -- the decision's output
  vrefOut : Option Refs := none           -- VREF on the link
  agreed : Option Refs := none            -- last agreed voted values (R86)
  minHist : List (BitVec 16) := [0, 0, 0] -- minorities of each lane in the last 16 votes, bit 0 newest
  outCnt : List Nat := [0, 0, 0]          -- consecutive votes each lane was out of
  xDecide : List (Option Nat) := [none, none]  -- decided to stop the next / previous lane, at (R81)
  hstopSeen : List Bool := [false, false] -- the peer reported HSTOP since that decision
  lineStuck : List (Option Bool) := [none, none]  -- a level the line toward the next / previous lane is stuck at (R84)
  bothSince : Option Nat := none          -- both incoming lines asserted since (R83)
  oneSince : Option Nat := none           -- exactly one incoming line asserted since (R84)
  singleDone : Bool := false
  noPeer : Nat := 0                       -- consecutive votes with no peer cell (R90)
  splitDue : Bool := false                -- the third such vote has been decided (R91)
  resolving : Bool := false
  recheckAt : Option Nat := none          -- start of the digest recomputation (R87)
  digestOk : Option Bool := none
  disAt : Nat := 0                        -- the disagreement was found at
  held : Bool := false                    -- the Hedge holds the lane out of the vote (R23, R28, R80, R129)
  deriving DecidableEq, Repr

/-! ### Hidden state of The trio and the service pair (03) -/

/-- A split or join asked for (R125, R135, R137). -/
inductive SplitReq where
  | split | free3 | join
  deriving DecidableEq, Repr

/-- What the trio drains to (Table 3.6, R135). -/
inductive DrainTo where
  | resync (cores : BitVec 3) (join : Bool)
  | split
  | free3
  deriving DecidableEq, Repr

/-- A core of the trio: the contents of the resync image (R126: x1 to x31, f0 to f31, CSRs, pc, branch predictor tables; x0 is hard-wired
to 0), its privilege, and what its register writes have made of ADIG since its reset (R131). -/
structure CoreSt where
  x : List Word := List.replicate 32 0
  f : List Word := List.replicate 32 0
  pc : Word := 0
  priv : BitVec 2 := 3
  csrs : List (Nat × Word) := []          -- by number, rising; the others hold 0
  pred : List (Nat × Byte) := []
  adig : Word := 0
  deriving DecidableEq, Repr

/-- The TRIO block beside its registers. -/
structure TrioSt where
  drain : Option DrainTo := none          -- a hand-over point is awaited
  copying : Option DrainTo := none        -- the image copy runs
  detectAt : Nat := 0                     -- detection of the odd core, or the request
  copyAt : Nat := 0                       -- the image copy began (Table 3.6)
  deferred : Option SplitReq := none      -- request deferred under Table 3.5
  haltHeld : Option (Fin 3) := none       -- halt request held under R139
  halted : BitVec 3 := 0                  -- halted cores
  stopAt : Nat := 0                       -- entry to STOPPED (R130)
  cstFailed : BitVec 3 := 0               -- cores that failed the self-test by time (R130)
  injAt : Nat := 0                        -- last injection, or the start of the 1 ms schedule (R120)
  injDefer : Option Nat := none           -- injection moved 1 us later (R122)
  injNext : Nat := 0                      -- core to inject next
  svcInjAt : Nat := 0
  graftAfter : Bool := false              -- the lane must graft before it votes again (R130, R139, Table 3.4)
  markDue : Nat := 0                      -- the next multiple of 2,000,000 ticks whose mark is due (R133)
  cores : List CoreSt := [{}, {}, {}]
  pmp : List PmpEntry := []               -- PMP of every trio core: the locked entries 0 to 7, then the application's (R145)
  appRuns : Bool := false                 -- the application has been started
  deriving DecidableEq, Repr

/-! ### Hidden state of Commanding the module with Trellis (04) -/

/-- Where an outstanding command stands. -/
inductive CmdPhase where
  | held                                  -- intake done, waiting for its admission boundary (R158)
  | admitted                              -- admitted; its opcode has not acted yet
  | running                               -- runs beyond its admission boundary (ACCEPTED)
  | deferred                              -- waiting under R169 or R95
  | outcome (status : Nat) (result : List Byte) -- carried out here; the named lanes exchange their outcomes first (R168)
  | reply (status : Nat) (result : List Byte)   -- finished; its reply waits for a completion slot (R157)
  deriving DecidableEq, Repr

/-- One outstanding command of a lane's queue: the packet (Table 4.1), its ring, and where it stands. -/
structure TCmd where
  op : Nat
  tag : Half
  net : Bool
  rreq : Bool
  urgent : Bool
  act : Nat
  lanes : Nat
  params : List Byte
  issue : Nat                             -- ISSUE in us, low 32 bits
  due : Nat                               -- admission boundary, its index k (R158)
  ring : Nat
  phase : CmdPhase
  startAt : Nat                           -- `now` at admission, start or deferral
  limited : Nat                           -- limit flags of R176: bit 0 rate, bit 1 angle or target; of CNV_SELFCAL the converters
                                          -- whose calibration has been asked for
  planned : Nat                           -- planned arrival, `now`
  deriving DecidableEq, Repr

/-- State of a submission-ring slot that is not free (R152, R153). -/
structure RingSlot where
  ring : Nat
  slot : Nat
  posted : Bool
  svc : Bool                              -- posted by the service pair: the network intake (R162)
  since : Nat                             -- reserved or posted at
  deriving DecidableEq, Repr

/-- Bridge state of an actuator (R170). -/
inductive BridgeSt where
  | disabled | enabling | enabled | disabling | asc
  deriving DecidableEq, Repr

/-- What an actuator's trajectory follows. -/
inductive TrajKind where
  | none | angle | torque | force | release | hold | brakeHold | zero | kiss | align
  deriving DecidableEq, Repr

/-- One actuator's trajectory and bridge state, held identically by every member lane (R170, Table 4.6). -/
structure ActSt where
  bridge : BridgeSt := .disabled
  kind : TrajKind := .none
  setpoint : Int := 0                     -- present set-point, in the command's engineering unit
  target : Int := 0
  step : Nat := 0                         -- greatest change per vote period, in 1/1,000 of the unit
  frac : Int := 0                         -- set-point in 1/1,000 of the unit
  rampEnd : Nat := 0                      -- end of a ramp, `now`
  kissPoint : Int := 0                    -- kiss point in 1/1,000 turn (CALIPER_KISSPOINT)
  measured : Int := 0                     -- last measured value (angle mdeg, force N)
  disableAt : Nat := 0                    -- ramp-down end of BRIDGE_DISABLE, `now`
  near : Nat := 0                         -- boundaries in turn within the arrival tolerance of the target
  armed : Bool := false                   -- the kernel has armed SDI for a command in progress (R350)
  service : Nat := 0                      -- force limit of a kiss-point search in N, current of an alignment in mA (Table 4.9)
  deriving DecidableEq, Repr

/-- The command queue of a lane (R152 to R178). -/
structure CmdqSt where
  slots : List RingSlot := []             -- reserved and posted slots, posted ones in POST order
  starved : List Bool := [false, false, false, false]  -- the ring returned 0xFFFF and has had no free slot since (source 14)
  queue : List TCmd := []                 -- outstanding commands, in intake order
  waiting : List (TCmd × Nat × List Byte × Bool) := []  -- replies waiting for a slot, in completion order: command, status,
                                          -- results, final (R157)
  netOut : List (List Byte) := []         -- replies handed to the service pair (R157)
  fwdIn : List (List Byte) := []          -- packets forwarded by the peers, waiting for intake (R164)
  fwdOut : List (List (List Byte)) := [[], []]  -- packets to forward, per link (R164)
  dups : List (Half × Word × Nat) := []   -- tag, CRC and time of the network packets of the last 10 ms (R164)
  acts : List ActSt := [{}, {}, {}, {}]   -- actuators 0x01 to 0x04
  mirrorTraj : List Int := []             -- set-points of the ACTIVE module's trajectories, in a STANDBY module (R113)
  trajDiff : Bool := false                -- they differ from the own ones
  busData : Word := 0                     -- data the last bus read returned
  deriving DecidableEq, Repr

/-! ### Hidden state of Loop engines and Miokin loop code (05) -/

/-- What a snapshot latched for one program (Table 5.6), Q1.15 values. -/
structure LoopSnap where
  fb : Int := 0
  spr : Int := 0
  spt : Int := 0
  vrefT : Int := 0
  vrefF : Int := 0
  alt : Int := 0
  xfer : Bool := false                    -- the feedback source changed at this activation
  degr : Bool := false                    -- the selected source is not SEL_0
  deriving DecidableEq, Repr

/-- An activation in progress (Table 5.1): ACC in Q10.30, X, K, return stack, flags, staged outputs. -/
structure LoopAct where
  prog : Nat
  pc : Nat
  acc : List Int := [0, 0, 0, 0]
  x : List Nat := [0, 0, 0, 0, 0, 0, 0, 0]
  k : Int := 0
  stack : List Nat := []
  z : Bool := false
  n : Bool := false
  clp : Bool := false
  sat : Bool := false
  staged : List (Option Int) := List.replicate 8 none
  rep : Nat := 0                          -- executions of the next instruction still asked for by REP
  startAt : Nat                           -- cycle, from the snapshot, at which the program started
  cycles : Nat := 0                       -- cycles used by this activation
  deriving DecidableEq, Repr

/-- Supervision of one source entry between activations (R200): last raw value, run of equal samples, last timestamp and
rolling counter, run of unchanged counters. -/
structure LoopTrack where
  raw : Option Int := none
  run : Nat := 0
  t : Option Nat := none
  rc : Option Nat := none
  stall : Nat := 0
  deriving DecidableEq, Repr

/-- One loop engine beside its registers and memories. -/
structure LoopEng where
  act : Option LoopAct := none
  due : List Nat := []                    -- programs due at this boundary that have not started
  hold : Bool := false                    -- the write buffer waits for the first END of the boundary (R182)
  snaps : List LoopSnap := List.replicate 8 {}
  vrefT : List Int := [0, 0, 0, 0]        -- voted references in effect at the snapshot, per bridge
  vrefF : List Int := [0, 0, 0, 0]
  share : Nat := 0                        -- SHARE latched at the snapshot
  wbuf : List (Nat × Half) := []          -- write buffer: data word address and value, oldest first (R182)
  stalled : List (Nat × Half) := []       -- writes that found the buffer full, whose masters wait (R182)
  kvalAt : List Nat := List.replicate 8 0 -- module time of the last write of each KVAL
  startP : List Bool := List.replicate 8 false  -- soft start due at the next activation (R203)
  selP : List Bool := List.replicate 8 false    -- selection due at the first activation (R554)
  track : List (List LoopTrack) := List.replicate 8 (List.replicate 3 {})
  committed : List Int := List.replicate 8 0    -- last committed output of each port (R200)
  wasRun : List Bool := List.replicate 8 false  -- programs that ran when the engine left service or its code was lost (R210, R402)
  late : List (Nat × Word) := []          -- register writes that completed in the snapshot's cycle (R193)
  deriving DecidableEq, Repr



/-! ### Hidden state of The drive engine (06). Internal values are Q3.21 integers (R211). -/

/-- What a drive frame delivered, scaled (R212, R214): iU, iV, the third current where the frame carries one, VM. -/
structure DrvFrame where
  due : Nat                               -- module time of the decision it serves (R214)
  iu : Int
  iv : Int
  iw : Option Int
  vm : Int
  cover : Bool
  deriving DecidableEq, Repr

/-- A probe of the catch (R245): rotor flux angle, signed speed, the decision that ended it. -/
structure Probe where
  theta : Nat
  w : Int
  endAt : Nat
  deriving DecidableEq, Repr

/-- One drive engine beside its registers. -/
structure DrvSt where
  frame : Option DrvFrame := none         -- the frame for the coming decision
  prev : Option DrvFrame := none          -- the frame of the last decision
  lateRun : Nat := 0                      -- consecutive decisions without a frame (R217)
  psi : Int × Int := (0, 0)               -- stator flux estimate
  psiDue : Bool := true                   -- a leg was OFF: the estimate is set anew once all are driven (R220)
  psiO : Int × Int := (0, 0)              -- flux integral of the observer (R238)
  i : Int × Int := (0, 0)                 -- current, alpha and beta
  vm : Int := 0                           -- latest VM
  ct : Int := 0                           -- torque comparator
  cf : Int := -1                          -- flux comparator
  legs : List (BitVec 2) := [0, 0, 0]     -- leg states registered at the last decision: U, V, W
  decN : Nat := 0                         -- decisions taken
  freeAt : List Nat := [0, 0, 0]          -- decision from which each leg may change again (R226)
  credit : List Nat := [8000000, 8000000, 8000000] -- tokens in each bucket, in millionths (R227)
  creditAt : Nat := 0                     -- module time of the last fill
  isumOver : Nat := 0                     -- consecutive decisions with the current sum outside ISUM (R218)
  isumIn : Nat := 8                       -- consecutive decisions with it inside, saturating at 8
  isumArmed : Bool := true                -- the next run of 8 is to be recorded
  magRun : Nat := 0                       -- consecutive decisions with the flux error below HF
  climSince : Option Nat := none          -- the current limit holds in every decision since (R230)
  climDone : Bool := false
  sixRun : Nat := 0                       -- consecutive decisions with c_T equal to the sign of w (R233)
  sixOut : Nat := 0                       -- consecutive decisions with c_T 0 or opposite in six-step
  thS : List Nat := []                    -- sensor angles of the last 17 decisions, newest first
  sdiffRun : Nat := 0                     -- consecutive decisions with the difference above DLIM and CONF at CTH (R242)
  sensorOk : Bool := false                -- the sensor angle was valid at the last decision (R237)
  sensorFell : Bool := false              -- it became invalid at the last decision (R242)
  confLow : Nat := 0                      -- consecutive decisions with CONF below CTH (R245)
  lost : Bool := false                    -- the rotor is lost
  wL : Int := 0                           -- estimated speed when CONF first fell below CTH
  w : Int := 0                            -- estimated speed
  wc : Int := 0                           -- speed in command at the last decision (R229)
  cHfi : Int := 0                         -- confidence of the injection method
  polOk : Bool := false                   -- the polarity is resolved (R239)
  polStep : Nat := 0                      -- flux step of the polarity test: 0 none, 1 the positive, 2 the negative (R239)
  polPeak : Int × Int := (0, 0)           -- current peaks of the two steps
  polFlip : Bool := false                 -- the positive d-axis lies opposite the tracked axis
  stAt : Nat := 0                         -- `now` at the entry into STATE
  lossAt : Nat := 0                       -- `now` at the loss
  winAt : Nat := 0                        -- start of the present catch window
  winFail : Bool := false
  cycAt : Nat := 0                        -- start of the present probe cycle
  v0Run : Nat := 0                        -- V0 decisions of the probe in progress, 0 while the legs are OFF
  i0 : Int × Int := (0, 0)                -- current at the start of the probe
  probe : Option Probe := none            -- the previous probe of the window
  caught : Option Probe := none           -- the rotor is caught with this angle and speed
  cHfiRun : Nat := 0                      -- consecutive decisions with C_HFI at CTH during injection re-acquisition
  heldTq : Bool := false                  -- TQ_EFF held at 0 until the next vote boundary after a catch
  rearmAt : Option Nat := none            -- MODE.REARM was written at
  ovr : Bool := false                     -- a Hedge override is reported (R236)
  ena : Bool := false                     -- voted ENA and ASC in effect
  asc : Bool := false
  noregAt : Nat := 0                      -- last over-voltage report (R231)
  thPrev : Nat := 0                       -- estimated angle of the last decision
  posAcc : Int := 0                       -- POS_E in 2^-48 units (R244)
  swcnt : Nat := 0                        -- leg changes (R250)
  deriving DecidableEq, Repr

/-- The drive engines of a lane. -/
structure DriveSt where
  eng : List DrvSt := [{}, {}, {}, {}]
  eff : List (Nat × Word) := []           -- DRV registers as they were at the last boundary (R248)
  vref : Option Refs := none              -- voted values received, to take effect at the next boundary
  fxTaken : List Int := [0, 0, 0, 0]      -- FX_EFF of the last decision, at internal precision
  deriving DecidableEq, Repr

/-! ### Hidden state of Gate drive and power-stage protection (07) -/

/-- The gates of a lane: 24 bridge switches (s = 6 × bridge + 2 × leg + side) and the chopper, and what drives them. -/
structure GateSt where
  on : List Bool := List.replicate 24 false     -- switch commanded on
  offAt : List Nat := List.replicate 24 0       -- last turn-off command of each switch (R259)
  edgeAt : List Nat := List.replicate 12 0      -- last gate command edge of either switch of a leg (R267)
  kept : List (BitVec 2) := List.replicate 12 0 -- latest LEG state of each leg, 0b11 kept as OFF (R262)
  scOff : List Bool := List.replicate 12 false  -- leg turned off by a short-circuit trip (R268)
  tripAt : List (Option Nat) := [none, none, none, none]  -- per bridge: its last short-circuit trip
  scFirst : List (Option (Nat × Nat)) := [none, none, none, none]  -- per bridge: first trip's leg and time, awaiting 1 us
  holdEnd : List (Option Nat) := [none, none, none, none]          -- per bridge: end of the short-circuit hold (R269)
  bothOffAt : List Nat := [0, 0, 0, 0]          -- per bridge: voted ENA and ASC in effect both 0 since (R263)
  offCmd : List Bool := [true, true, true, true]  -- per bridge: OFF_CMD by voted ENA and ASC (R263)
  precharge : List Bool := [false, false, false, false]  -- per bridge: precharge runs (R254)
  uvFell : Nat := 0                             -- supplies locked out by a falling crossing, bits as in GD_UVLO (Table 7.2)
  cpRun : Bool := false                         -- the charge pump runs (R252)
  cpIdleAt : Nat := 0                           -- the last voted ENA or ASC cleared at
  ilkAt : List (List Nat) := [[], [], [], []]   -- per bridge: times of the INTERLOCK events of the last 1 ms (R261)
  ignoredK : Option Nat := none                 -- vote period of the last LEG_IGNORED (R263)
  dtFuse : Option (Nat × Nat) := none           -- dead-time programming: bridge, code (R257)
  dtAt : Nat := 0                               -- its start
  dtFailed : BitVec 4 := 0                      -- bridges whose fusing failed: they keep 1,200 ns for good (R257)
  hwAsc : Bool := false                         -- VM_x above OV2 with CHOP_FAULT: ASC_H condition holds (R276)
  brkAt : Nat := 0                              -- BRK_x turned on at
  brkOffAt : Nat := 0                           -- BRK_x turned off at
  brkTicks : Nat := 0                           -- on-time counted so far (PROT_BRKCNT)
  odQueue : List Nat := []                      -- bridges waiting for their off-state diagnostic (R280)
  odRun : Option (Nat × Nat × Nat) := none      -- bridge under test, step of Table 7.10, result bits found
  odAt : Nat := 0                               -- start of its step, or of the chopper test
  odVm : Nat := 0                               -- VM_x in mV as last measured for a diagnostic
  odChop : Bool := false                        -- a chopper test is to follow
  odPass : BitVec 4 := 0                        -- bridges whose diagnostic passed after their latch (R271)
  chopRun : Bool := false                       -- the 3 us chopper test runs (R281)
  sopRun : Option Nat := none                   -- switch under a switch-off path test (R282)
  sopAt : Nat := 0                              -- its start
  sopDueAt : List Nat := List.replicate 25 0    -- start of each switch's present test interval (R283)
  sopPassed : List Bool := List.replicate 25 false
  sopMiss : List (List Nat) := List.replicate 25 []  -- times of misses within 100 ms
  aliveLevel : Bool := false                    -- level of ALIVE_x
  aliveAt : Nat := 0                            -- last toggle instant (R285)
  lastKey : Option Half := none                 -- previous write of GD_ALIVE.KEY (R286)
  kickAt : Nat := 0                             -- last valid kick
  kickRun : Nat := 0                            -- valid kicks in turn while the window is closed
  deriving DecidableEq, Repr


/-! ### Hidden state of Measuring currents and voltages (08) -/

/-- What a slot of a converter serves. -/
inductive ConvFor where
  | regular (i : Nat)
  | injected (j : Nat)
  | check (c : Nat)                       -- VCHKH, VCHKL, MID of a suspect channel (R313)
  | stim                                  -- the leg's CI input during a stimulus check (R314)
  deriving DecidableEq, Repr

/-- A conversion in progress: what for, its input, its start in 2.5 ns units of module time. -/
structure Conv where
  what : ConvFor
  sel : Nat
  start : Nat
  deriving DecidableEq, Repr

/-- One converter beside its registers. -/
structure CnvSt where
  rNext : Option Nat := none              -- next entry of the regular run in progress
  iNext : Option Nat := none              -- next entry of the injected run in progress
  rTrig : Nat := 0                        -- triggers of each sequence counted toward TDIV + 1 (R298)
  iTrig : Nat := 0
  conv : Option Conv := none
  calAt : Option Nat := none              -- calibration start (R304)
  fails : Nat := 0                        -- consecutive compared windows that failed (R313)
  suspectAt : Option Nat := none
  fallback : Bool := false                -- remaining checks take slot 3 of the drive frames
  checks : List Int := []                 -- check codes taken so far
  sum : Int := 0                          -- drive-frame codes of the running ICV window: sum, number, cover frames
  cnt : Nat := 0
  cov : Bool := false
  rSrc : Option Nat := none               -- `now` of the last trigger of each sequence's source
  iSrc : Option Nat := none
  ref1 : Int × Nat := (0, 0)              -- codes of the running reference check, first half or whole window: sum, number (R314)
  ref2 : Int × Nat := (0, 0)              -- of its second half
  refCov : Bool := false                  -- a cover frame fell in it
  stimAt : Nat := 0                       -- module time of the last stimulus conversion's start
  wsum : Int := 0                         -- the same of the last completed window
  wcnt : Nat := 0
  wcov : Bool := false
  lastD : Option (Int × Nat) := none      -- last compared deviation and the `now` of its window's end (R87)
  deriving DecidableEq, Repr

/-- Who asked for a reference check. -/
inductive RefBy where
  | write | forming | graft | cmd (tag : Half) (net : Bool)
  deriving DecidableEq, Repr

/-- A reference check asked for: converters, window in us, requester. -/
structure RefReq where
  mask : Nat
  win : Nat
  by_ : RefBy
  askedAt : Nat                           -- module time of the request
  deriving DecidableEq, Repr

/-- A reference check in progress. -/
structure RefRun where
  req : RefReq
  startAt : Nat                           -- module time of its start
  stim : Nat                              -- converters in stimulus mode
  notRun : Nat := 0
  endAt : Nat                             -- module time of its end
  len : Nat                               -- modulator clocks
  deriving DecidableEq, Repr

/-- Outcome of a finished check: converters that passed, failed or did not run, worst deviation. -/
structure RefRes where
  by_ : RefBy
  pass : Nat
  worst : Nat
  deriving DecidableEq, Repr

/-- The ICV and the CNV sequencer. -/
structure IcvSt where
  winK : Option Nat := none               -- boundary index at which the running window started
  winM : Nat := 0
  winAt : Nat := 0                        -- module time of its start
  due : Option (Nat × Nat) := none        -- a window ended and its results are not yet written: clocks, end (module time)
  len : Nat := 0                          -- clocks of the window to compare
  results : Bool := false                 -- results written, comparison not yet made
  held : Nat := 0                         -- channels a reference check held in the running window
  wheld : Nat := 0                        -- channels it held in the last completed window
  refOk : Bool := true                    -- reference check of the last completed furrow round (R501)
  queue : List RefReq := []
  run : Option RefRun := none
  endedAt : Option Nat := none            -- module time at which the last check ended
  last : List RefRes := []                -- outcomes not yet taken by their requesters
  deriving DecidableEq, Repr


/-! ### Hidden state of Position and speed feedback (09) -/

/-- A position quantity and its speed (R317), as they are; the registers hold the copy latched by the last read (R320). -/
structure Quant where
  val : Int := 0
  ang : Nat := 0
  t : Word := 0
  rc : Byte := 0
  valid : Bool := false
  avalid : Bool := false
  uDec : Bool := false                    -- UNCERT, decoding cause (R322, R323, R326, R328)
  hdif : Bool := false                    -- UNCERT of the Hedge comparison and HDIF (R340)
  fault : Bool := false
  spd : Int := 0
  st : Word := 0
  sUpd : Bool := false                    -- the first speed update has been made
  dirn : Bool := false                    -- the last change of VAL was negative
  ofs : Int := 0                          -- OFS in effect (R342)
  deriving DecidableEq, Repr

/-- A quadrature or Hall decoder. -/
structure EncSt where
  lines : Nat := 0                        -- filtered levels: A + 2 B, or the Hall state H
  seen : Bool := false                    -- a legal state has been taken since enable
  got : Bool := false                     -- a state, legal or not, has been taken since enable
  dirn : Bool := false                    -- the last count change was negative
  illAt : List Nat := []                  -- illegal events of the last 1 ms, in a Hedge decoder those since the last boundary
  good : Nat := 0                         -- consecutive single-sector steps
  idxFails : Nat := 0
  raw : Int := 0                          -- count of edges since enable, without corrections
  corr : Int := 0                         -- corrections since the last boundary (R340)
  edge : Option (Nat × Int) := none       -- last edge: module time, raw count after it
  used : Option (Nat × Int) := none       -- last edge used by the speed, the first edge after enable at the start
  moved : Bool := false                   -- at least two edges have been used
  prevCnt : Option Int := none            -- count at the last boundary
  deriving DecidableEq, Repr

/-- A resolver channel. -/
structure ResSt where
  trigAt : Option Nat := none             -- module time of a trigger whose pair has not been judged
  neg : Bool := false                     -- it was the negative peak
  bad : Nat := 0                          -- consecutive rejected or discarded triggers
  good : Nat := 0                         -- consecutive accepted pairs
  turns : Int := 0
  theta : Nat := 0                        -- tracked angle, 2^-32 turn
  speed : Int := 0                        -- tracking speed, 2^-32 turn per second
  pairAt : Option Nat := none             -- module time of the last accepted pair
  stepAt : Nat := 0
  deriving DecidableEq, Repr

/-- A SENT receiver. -/
structure SentSt where
  prevCal : Option Nat := none            -- previous calibration pulse
  rc : Option Byte := none
  tmoAt : Nat := 0                        -- the frame timeout runs from
  lost : Bool := false                    -- the loss has been recorded
  prev : Option (Int × Nat) := none       -- VAL and T of the frame before the last
  last : Option (Int × Nat) := none
  trigAt : Option Nat := none             -- the last trigger since a valid frame (R331, R332)
  status : List Nat := []                 -- status nibbles of the frames of a serial message, the newest first (R331)
  deriving DecidableEq, Repr

/-- The POS block and the Hedge's decoders beside their registers. -/
structure PosSt where
  q : List Quant := List.replicate 14 {}
  enc : List EncSt := [{}, {}, {}, {}]
  res : List ResSt := [{}, {}]
  sent : List SentSt := [{}, {}, {}, {}]
  prbT : List Word := [0, 0]              -- probe edge times, shown through the shadow (R333)
  henc : List EncSt := [{}, {}]           -- the Hedge's decoders of ENC_0 and ENC_1 (R338)
  hcnt : List Int := [0, 0]
  hsent : SentSt := {}
  hs0 : Option (Half × Byte × Nat) := none  -- the Hedge's newest SENT_0 frame: FC1, RC, `now`
  hprev : List Int := [0, 0]              -- the Hedge's latched counts at the last boundary
  miss : List Nat := [0, 0, 0]            -- consecutive misses of ENC_0, ENC_1, SENT_0 (R340)
  hit : List Nat := [0, 0, 0]
  judged : List (Nat × Nat × Nat) := []   -- compare units judged at a write: quantity, unit, `now` of the write (R335)
  deriving DecidableEq, Repr

/-! ### Hidden state of Safety functions and the Seal (10) -/

/-- The level a safety path uses (R348, R349). -/
structure LimitSt where
  prev : Nat := 0                         -- level at the last boundary, 0 before the first
  held : Nat := 0                         -- level whose SLR limit applies
  falls : List (Nat × Nat) := []          -- falls whose 100 ms run: instant, level
  deriving DecidableEq, Repr

/-- Where safe brake hold of an actuator stands (Table 10.4). -/
inductive SbhPhase where
  | none | wait | check | hold | restore
  deriving DecidableEq, Repr

/-- Safe brake hold of one actuator (R356, R357). -/
structure SbhSt where
  phase : SbhPhase := .none
  at_ : Nat := 0                          -- gates off from here on (wait), end of the hold check (check)
  ref : Int := 0                          -- median position at gates-off
  failed : Bool := false                  -- a condition of the running check failed
  creeps : List Nat := []                 -- creeps of the last 10 s
  torque : Bool := false                  -- the third creep: the actuator stays enabled (R357)
  deriving DecidableEq, Repr

/-- A Seal computation: its end, and its result, none after a bus error or a mirror error (R364). -/
structure SealRun where
  endAt : Nat
  val : Option Word
  deriving DecidableEq, Repr

/-- The SAF block beside its registers. Counts and instants by function (SLA, SLR, SDI) and actuator: 4 x function + actuator. -/
structure SafSt where
  lim : LimitSt := {}
  cnt : List Nat := List.replicate 12 0   -- consecutive boundaries exceeded
  conf : List (Option Nat) := List.replicate 12 none  -- confirmed at
  ext : List (Option Int) := [none, none, none, none]  -- furthest position in the armed direction (R350)
  rest : List Nat := [0, 0, 0, 0]         -- consecutive boundaries below the standstill limit (R360)
  l1From : Option Nat := none             -- TL1 runs from here (R349)
  l1Done : Bool := false                  -- L1_LATE recorded since the fall
  formL1 : Bool := false                  -- the fall was a formation: TL1 waits for ENABLED
  sbh : List SbhSt := [{}, {}, {}, {}]
  run : Option SealRun := none
  hasSeal : Bool := false                 -- SAF_SEAL holds a computed Seal
  recheckAt : Nat := 0
  deriving DecidableEq, Repr

/-- The HSF block beside its registers. Functions: SLA, SLR, SDI of ENC_0, SDI of ENC_1. -/
structure HsfSt where
  lim : LimitSt := {}
  cnt : List Nat := [0, 0, 0, 0]          -- consecutive boundaries exceeded
  done : List Bool := [false, false, false, false]  -- the reaction to this run has been made
  lat : BitVec 4 := 0                     -- bridges latched by a limit or a request
  hist : List Int := []                   -- ENC_0 counts of the last WIN boundaries, newest first
  ext : List (Option Int) := [none, none]
  unavAt : List (Option Nat) := [none, none, none]  -- SENT_0, ENC_0, ENC_1 unavailable since (R352)
  creepRef : Option Int := none
  run : Option SealRun := none
  hasSeal : Bool := false
  recheckAt : Nat := 0
  sealLost : Nat := 0                     -- SEAL_LOST and HSEAL_LOST of the drive cycle (R370)
  deriving DecidableEq, Repr


/-! ### Hidden state of Testing in service and handling faults (11) -/

/-- A weeding slice chosen or running (R383, R384). -/
structure Slice where
  elem : Elem
  sched : Bool
  cmd : Option (Half × Bool)              -- tag and NET of the WEED_SLICE command it serves
  startAt : Option Nat                    -- isolated at; none until the next vote boundary
  deriving DecidableEq, Repr

/-- BIST and MSUP beside their registers. -/
structure TestSt where
  slice : Option Slice := none
  sliceBad : Bool := false                -- a PERMANENT event has hit the element in the slice (R379)
  schedAt : Nat := 0                      -- last scheduled start (R385)
  turn : Nat := 0                         -- next element of the turn
  cover : List Nat := List.replicate 43 0 -- boundaries in turn for which each element's cover condition has held
  fallowAt : Option Nat := none           -- entry to FALLOW (Table 11.3)
  fstep : Nat := 0                        -- step of Table 11.3 in progress
  fbad : Bool := false                    -- the fallow has failed
  fdone : Bool := false                   -- the tests are over, DUR awaits the graft
  fallowKey : Bool := false               -- it is one of the key-off fallows (R105)
  scrubAt : Option Nat := none            -- the running scrub pass began
  fixedNow : List Nat := []               -- word addresses corrected in the running and in the last pass
  fixedLast : List Nat := []
  weak : List Nat := []                   -- weak words
  poison : List Nat := []                 -- poisoned words
  remap : Option (Nat × Nat) := none      -- the copy of a pruned bank into the reserve: bank, start (R400)
  decAt : Nat := 0                        -- last decoder test
  ueSeen : List Nat := []                 -- words found uncorrectable before (R399)
  lpFix : List Nat := []                  -- engines whose program memory is restored at the next boundary (R402)
  deriving DecidableEq, Repr


/-! ### Hidden state of CAN controllers (12) -/

/-- A read lock: object or buffer, its master, the instant it was taken (R411, R432). -/
structure RdLock where
  obj : Nat
  who : Master
  at_ : Nat
  deriving DecidableEq, Repr

/-- One CAN controller beside its registers; its message objects and pool are in the lane's memory. -/
structure CanSt where
  intg : Bool := false                    -- 11 recessive bits seen: takes part in bus traffic (R421)
  locks : List RdLock := []
  hold : List (Nat × CanFrame) := []      -- the hold buffer: object and frame, in arrival order (R412)
  tx : Option Nat := none                 -- object whose frame is on the bus
  cancels : List Nat := []                -- cancels written while their frame was on the bus (R414)
  cancNow : Nat × List Nat := (0, [])     -- objects cancelled in the cycle named
  recovering : Bool := false              -- recovery from bus-off started by ERR.RECOVER
  lastFrame : Nat := 0                    -- last frame sent or received (R418)
  woke : Bool := false                    -- WAKE is to be recorded once the domain is ON (R420)
  deriving DecidableEq, Repr


/-! ### Hidden state of Time-triggered communication on FlexRay (13) -/

/-- FLX beside its registers; its buffers and pool are in the lane's memory. -/
structure FlxSt where
  locks : List RdLock := []
  shadow : List (Nat × FlxFrame) := []    -- one waiting frame per locked buffer (R432)
  seconds : List (Nat × FlxFrame) := []   -- the second copy of a slot whose first copy waits in the shadow (R430)
  rxNow : List Nat := []                  -- buffers that stored a frame in this cycle (R430)
  txNow : List Nat := []                  -- buffers whose slot of this cycle has been served (R433)
  commits : Nat × List Nat := (0, [])     -- buffers committed at the `now` named (R433)
  lead : Bool := false                    -- contends to lead a cold start (R425)
  listenAt : Nat := 0                     -- no traffic heard since
  attempts : Nat := 0                     -- cold-start attempts used (R426)
  cautNext : Bool := false                -- the next integration is cautious (R429)
  wakeOut : Option Bool := none           -- channel of the last wakeup pattern sent, true for B
  holdFull : Bool := false                -- the cycle in progress began inside the cautious hold
  fails : Nat := 0                        -- consecutive failed cycles of the hold
  cycBad : Bool := false                  -- a violation or syntax error in this cycle
  cpiEff : List Nat := [0, 0, 0, 0]       -- cycle-position units as they were at the cycle start (R436)
  cpiDone : List Bool := [false, false, false, false]
  started : Bool := false                 -- MTCS holds a cycle start
  inLim : Nat := 0                        -- consecutive double cycles within the limits (R439)
  passive : Nat := 0                      -- double cycles in NORMAL_PASSIVE
  sent : Option (Nat × List Byte) := none -- last frame put on the bus: buffer and payload, empty for a null frame
  woke : Bool := false                    -- WAKE is to be recorded once the domain is ON
  deriving DecidableEq, Repr


/-! ### Hidden state of Ethernet, twin-path frames and the pair on the network (14) -/

/-- An open comparison of a receive entry (R455): its SEQ, the first copy and its path, the end of its window. -/
structure TwpOpen where
  entry : Nat
  seq : Word
  pathB : Bool
  frame : List Byte
  endAt : Nat
  deriving DecidableEq, Repr

/-- A closed comparison: the SEQ and the compared part of the first copy seen (R454, R455). -/
structure TwpClosed where
  entry : Nat
  seq : Word
  part : List Byte
  deriving DecidableEq, Repr

/-- A frame in the receive queue (R458). -/
structure RxTwp where
  entry : Nat
  degr : Bool
  frame : List Byte
  deriving DecidableEq, Repr

/-- A copy handed to a stream of the switch: stream, R-TAG sequence (R453), the frame. -/
structure TwpOut where
  sid : Nat
  rtag : Half
  frame : List Byte
  deriving DecidableEq, Repr

/-- A gate control list (R448): the start of its first cycle and the cycle in ticks of pair time; interval and open gates of each entry. -/
structure GateList where
  base : Nat
  cycle : Nat
  entries : List (Nat × Byte)
  deriving DecidableEq, Repr

/-- ETH beside its registers. -/
structure EthSt where
  lastFrame : Nat := 0                    -- last frame sent or received (R464)
  gm : List (Option (BitVec 64)) := [none, none]  -- grandmaster of domain MT and of domain V
  gates : List Byte := [0xFF, 0xFF, 0xFF] -- egress gates of each external port, bit = traffic class
  admin : List (Option GateList) := [none, none, none]  -- list whose take-over is pending (R448)
  oper : List (Option GateList) := [none, none, none]   -- list in operation
  rxTs : List (Option (BitVec 64)) := [none, none, none] -- ingress timestamp of the last frame at each external port, in ticks (R447)
  txTs : List (Option (BitVec 64)) := [none, none, none] -- egress timestamp of the last frame
  deriving DecidableEq, Repr

/-- TWP beside its registers; its DID entries are in the lane's memory. -/
structure TwpSt where
  txSeq : List Word := List.replicate 64 0  -- own counter of each entry (R452)
  txSeqNext : Option Word := none         -- SEQ written for the next MULTI request
  opens : List TwpOpen := []              -- open comparisons, oldest first
  closed : List TwpClosed := []           -- closed comparisons, newest first, four per entry
  rxq : List RxTwp := []                  -- oldest first
  outB : List TwpOut := []                -- copies placed into path B streams, newest first, 64 kept
  watchAt : List Nat := List.replicate 64 0  -- last partner frame accepted per PAIRWATCH entry
  ofsAcc : List Int := []                 -- offsets of the last heartbeats, newest first, 16 kept (R459)
  mirrored : Bool := false                -- the mirror holds the ACTIVE module's SEQ counters (R463)
  deriving DecidableEq, Repr


/-! ### Hidden state of Power domains, votes and waking (15) -/

/-- Where a domain stands between its states: the step of Table 15.3 or of R475 in progress, and its start. -/
inductive DomPhase where
  | stable
  | drop (step dst : Nat) (at_ : Nat)
  | rise (step : Nat) (at_ : Nat) (fromRet : Bool)
  deriving DecidableEq, Repr

/-- An exchange asked for over PREQ, with its rank (R487). -/
structure PreqReq where
  rank : Nat
  cmd : Nat
  rail : Nat
  value : Nat
  deriving DecidableEq, Repr

/-- The exchange in progress (R486). -/
structure PreqRun where
  req : PreqReq
  seq : Nat
  tries : Nat
  t0 : Nat
  nextAt : Nat                            -- end of the next read frame
  busy : Bool                             -- the last status was BUSY
  deriving DecidableEq, Repr

/-- Where the entry into parked sleep stands (Table 15.7). -/
inductive SleepPhase where
  | awake
  | held                                  -- REQ held until CLK_LEVEL.BUSY is 0
  | sign                                  -- step 1 done, retention signatures running
  | frames                                -- WAKE_CFG and SLEEP exchanges
  | parked
  | waking                                -- ENABLE sent; Table 15.9
  deriving DecidableEq, Repr

/-- PWR, PREQ and the wake logic of AON, beside their registers. -/
structure PwrSt where
  dom : List DomPhase := List.replicate 21 .stable
  sleep : SleepPhase := .awake
  keyOff : Bool := false                  -- the key-off fallows of R105 run (R489)
  keyWrote : Bool := false                -- the Almanac write before the sleep request has been asked for (R521)
  quietAt : Nat := 0                      -- Trellis and the network controllers have held no vote since (R489)
  wakeDue : Option (Nat × Nat) := none    -- a wake that arrived during the SLEEP frame: cause, controller (R492)
  woke : Bool := false                    -- the running start is a wake, not a reset (R497)
  bemf : List Nat := [0, 0, 0, 0]         -- consecutive samples above BTH per bridge (R495)
  bemfAt : Nat := 0
  queue : List PreqReq := []
  run : Option PreqRun := none
  pollAt : Nat := 0                       -- last STATUS request after PMIC_FAULT (R488)
  measured : List Nat := [0, 0, 0]        -- rail voltages of the last STATUS echoes, in mV
  deriving DecidableEq, Repr


/-! ### Hidden state of Temperature and thermal limits (16) -/

/-- HK beside its registers. Temperatures in 1/16 degree, sensors as in Table 16.1. -/
structure HkSt where
  own : List Int := List.replicate 8 0    -- own reading of each sensor
  refBad : Nat := 0                       -- consecutive rounds whose reference check failed
  apart : List Nat := List.replicate 8 0  -- consecutive rounds differing from every counted neighbour
  near : List Nat := List.replicate 8 0   -- consecutive rounds within BAND of one
  okPrev : List Bool := List.replicate 8 true  -- at the end of the previous round neither SUSPECT, pruned nor OPEN
  ldWarm : Bool := false                  -- a logic-die sensor less than 5 K below LDLIM in this round
  deriving DecidableEq, Repr

/-- A furrow round in progress (R499, R502): its start, the slot, whether the slot began in a slice of the ICV, and whether the last slot is
over and the round end due. -/
structure FurrowRun where
  startAt : Nat
  slot : Nat
  held : Bool
  endDue : Bool
  deriving DecidableEq, Repr

/-- The fusing of a TD input in progress (R513): input, kind, TRIP and CLEAR as THS_TDFVAL gave them, and its start. -/
structure TdFuse where
  input : Nat
  kind : Nat
  val : Nat
  at_ : Nat
  deriving DecidableEq, Repr

/-- THS beside its registers. -/
structure ThsSt where
  dieAt : Nat := 0                        -- last trip of a TH comparator
  tdAt : List Nat := [0, 0, 0, 0]         -- trip of each input
  past : List Nat := [0, 0, 0, 0]         -- consecutive measurements past TRIP
  clear : List Nat := [0, 0, 0, 0]        -- consecutive measurements past CLEAR
  beyond : List Nat := [0, 0, 0, 0]         -- consecutive measurements beyond 1,900
  refBad : Nat := 0                       -- consecutive rounds whose reference check failed, passed
  refGood : Nat := 0
  refAt : Nat := 0                        -- entry into the stop of R511
  fuse : Option TdFuse := none            -- programming in progress (R513)
  failed : BitVec 4 := 0                  -- inputs whose fuses are marked after a failed read-back (R257)
  round : Option FurrowRun := none        -- furrow round in progress (R499)
  refH : Int := 0                         -- last counts of REFH and REFZ (R501, R511)
  refZ : Int := 0
  deriving DecidableEq, Repr


/-! ### Hidden state of The Almanac and the life cycle (17) -/

/-- An occurrence on its way into the live record (R518). -/
structure AlmOcc where
  blk : Nat                               -- block index
  inst : Nat
  code : Nat
  cls : Nat                               -- 1 TRANSIENT, 2 PERMANENT, 3 SAFETY
  t : Word
  deriving DecidableEq, Repr

/-- A slot of the Almanac ring that has been programmed: GEN, whether FORMAT and CRC are valid, the record. -/
structure AlmSlot where
  gen : Nat
  ok : Bool
  rcd : List Host.Cell
  deriving DecidableEq, Repr

/-- A life-cycle transition in progress (R527): the command it serves, old and target code, the lanes that have confirmed. -/
structure LcRun where
  tag : Half
  net : Bool
  old : Nat
  target : Nat
  startAt : Nat                           -- start of the exchange of confirmations
  conf : BitVec 3
  written : Bool                          -- the Almanac write that comes first is over
  deriving DecidableEq, Repr

/-- ALM and the life cycle beside their registers. -/
structure AlmSt where
  rcd : List Host.Cell := []              -- live record in AON: bytes that are not 0, by offset, rising
  loaded : Bool := false                  -- the record has been loaded since the Hedge power-on (R522)
  slots : List (Option AlmSlot) := List.replicate 32 none  -- the Almanac ring in NVM partition 3
  copy : List Host.Cell := []             -- the last snapshot
  snapEnd : Nat := 0                      -- end of the snapshot in progress
  queue : List AlmOcc := []               -- occurrences of the 20 us of a snapshot
  hedgeQ : List AlmOcc := []              -- occurrences of Hedge blocks not yet carried over the Hedge link
  newest : Option (Nat × Nat × Nat × Nat) := none  -- newest logged entry: block index, instance, code, `now`
  since : Nat := 0                        -- calendar seconds with TRIO ON since the last alarm
  calSet : Bool := false                  -- the calendar was set in FIELD in this drive cycle
  turns : List Int := []                  -- turning points of the rainflow count, newest first
  erased : List Nat := List.replicate 8 0 -- block erases per NVM partition
  lcRec : Nat := 2                        -- life-cycle record, both copies
  lc : Option LcRun := none
  oldChal : Option Word := none           -- the challenge before the present one, drawn anew because its lane left (R526)
  chalUsed : Bool := false                -- a LIFECYCLE with a code has used the present challenge
  sealRec : List (List Byte) := [[], []]  -- the two copies of the seal record in NVM partition 4, [] where erased (R516)
  deriving DecidableEq, Repr

/-- What the running cycle of 5 ns has brought a lane. -/
structure CycSt where
  set : List (Nat × Word) := []           -- flag bits that an event set in this cycle, by register address (R54, R251)
  ev : List (Blk × Nat × Nat × Nat) := [] -- events entered in this cycle, newest first: block, instance, code, class (R53)
  deriving DecidableEq, Repr

/-- One lane: its logic die and its Hedge die. -/
structure Lane where
  strap : LaneId                          -- the package strap (R64)
  regs : List (Nat × Word) := []          -- registers that differ from their reset value, by lane-map address, rising
  mem : List Host.Cell := []              -- bytes of the addressed memories that are not 0, by lane-map address, rising
  evqTime : List (Nat × Word) := []       -- time words of the history queues, by the address of EVQ_n_T; the registers hold
                                          -- the shadows (R56)
  evqRead : List Nat := []                -- EVQ_n descriptors read since their entry was written (EVQ_OVF)
  tokens : List Token := []               -- leaky-bucket tokens (R378)
  now : Nat := 0                          -- ticks of 5 ns since the lane's Hedge power-on
  mt : BitVec 64 := 0                     -- the lane's copy of module time (R34)
  claimed : List (Nat × Nat) := []        -- interrupt sources claimed and not completed: source, context (R57)
  ip : List Nat := []                     -- pending bits of the interrupt controller: requests its gateways have passed on (R57)
  claimData : List Nat := [0, 0, 0]       -- what the last claim of each context returned
  isolated : Option Elem := none          -- the element in a weeding slice (R384)
  cyc : CycSt := {}                       -- what the running cycle of 5 ns brought
  rst : ResetSt := {}
  link : LinkSt := {}
  clk : ClkSt := {}
  ozl : OzlSt := {}
  sdl : SdlSt := {}
  trio : TrioSt := {}
  cmdq : CmdqSt := {}
  gate : GateSt := {}
  loops : List LoopEng := [{}, {}, {}, {}]
  drive : DriveSt := {}
  cnvs : List CnvSt := List.replicate 8 {}
  icv : IcvSt := {}
  pos : PosSt := {}
  saf : SafSt := {}
  hsf : HsfSt := {}
  pwr : PwrSt := {}
  test : TestSt := {}
  can : List CanSt := [{}, {}, {}, {}]
  flx : FlxSt := {}
  eth : EthSt := {}
  twp : TwpSt := {}
  hk : HkSt := {}
  ths : ThsSt := {}
  alm : AlmSt := {}
  deriving DecidableEq, Repr

/-- The module: its three lanes, the commands waiting, and the counter that free values are drawn with. -/
structure State where
  laneA : Lane
  laneB : Lane
  laneC : Lane
  pending : List Instr                    -- the commands waiting, first in, first out
  free : Nat                              -- the model's own: how many free values have been drawn (log 4)
  deriving DecidableEq, Repr

/-- No command of this block stops it with a fault. -/
inductive Fault where
  /-- Raised by no command: every effect the spec gives ends in a next state. -/
  | none
  deriving DecidableEq, Repr

/-- Why a command is refused. -/
inductive Refusal where
  /-- Raised by Dispatch.exec for a command that has no meaning yet (safe: nothing is claimed of it). -/
  | notModelled (mnemonic : String)
  deriving DecidableEq, Repr

/-- A lane just after a Hedge power-on reset with nothing in its Almanac ring: every register at its reset value, but for
ALM_STAT, whose CALSTALE is set (R520). -/
def Lane.fresh (strap : LaneId) : Lane := { strap := strap, regs := [(0x400E0044, 0x40)] }

/-- The module after reset: every lane just powered on, its logic die held in lane reset (R45). -/
def State.reset : State where
  laneA := .fresh .a
  laneB := .fresh .b
  laneC := .fresh .c
  pending := []
  free := 0

end Sys2Proof.Machine
end

