-- ==== Sys2Proof/Machine/Ops.lean ====
section
/-!
DEFINITION. Machine/Ops.lean: the named operations over the state: sparse lists, registers and their fields, addressed memory,
lanes, the event history of a block and its leaky bucket (R50 to R56, R378), interrupt pulses.
-/

namespace Sys2Proof.Machine

/-- What a command's meaning answers. -/
abbrev Out := Host.Outcome State Fault Refusal

/-! ### Sparse lists: keys strictly rising, no entry equal to what an unlisted key reads as -/

/-- The value at key `a`: the first entry of that key, or the unlisted value `d`. -/
def sget {α : Type} (d : α) (a : Nat) : List (Nat × α) → α
  | [] => d
  | (b, v) :: t => if b = a then v else sget d a t

/-- The list without the entries of key `a`. -/
def serase {α : Type} (a : Nat) : List (Nat × α) → List (Nat × α)
  | [] => []
  | (b, v) :: t => if b = a then serase a t else (b, v) :: serase a t

/-- The list with an entry put at its place. -/
def sins {α : Type} (a : Nat) (v : α) : List (Nat × α) → List (Nat × α)
  | [] => [(a, v)]
  | (b, w) :: t => if a < b then (a, v) :: (b, w) :: t else (b, w) :: sins a v t

/-- A write that keeps the canonical form: the unlisted value removes the entry. -/
def sput {α : Type} [DecidableEq α] (d : α) (a : Nat) (v : α) (l : List (Nat × α)) : List (Nat × α) :=
  if v = d then serase a l else sins a v (serase a l)

/-- Keys strictly rising from `k` on, and no entry equal to the unlisted value `d` of its key. -/
def swfFrom {α : Type} [DecidableEq α] (d : Nat → α) (k : Nat) : List (Nat × α) → Bool
  | [] => true
  | (b, v) :: t => decide (k ≤ b) && decide (v ≠ d b) && swfFrom d (b + 1) t

/-- The canonical form. -/
def swf {α : Type} [DecidableEq α] (d : Nat → α) (l : List (Nat × α)) : Bool := swfFrom d 0 l

/-! ### The register map -/

/-- The block, instance and offset of a register address of the lane map (Table 1.10), if the address lies in one. DESIGN CHOICE: the parts
of a block's area behind its last instance (0x4008_9000 to 0x4008_FFFF and 0x400B_4000 to 0x400B_FFFF) belong to no instance, and an
access there ends in a bus error as one outside the map does (R46; log 38). -/
def blockAt (a : Nat) : Option (Blk × Nat × Nat) :=
  if 0x40000000 ≤ a ∧ a < 0x401C0000 then
    let o := a % 0x10000
    match (a - 0x40000000) / 0x10000 with
    | 0x00 => some (.sys, 0, o) | 0x01 => some (.pwr, 0, o) | 0x02 => some (.clk, 0, o) | 0x03 => some (.trio, 0, o)
    | 0x04 => some (.cmdq, 0, o) | 0x05 => some (.ozl, 0, o) | 0x06 => some (.saf, 0, o)
    | 0x08 =>
      if o < 0x8000 then some (.cnv, o / 0x1000, o % 0x1000)
      else if o < 0x9000 then some (.cnvSq, 0, o % 0x1000) else none
    | 0x09 => some (.pos, 0, o)
    | 0x0A => some (.drv, o / 0x4000, o % 0x4000)
    | 0x0B => if o < 0x4000 then some (.loop, o / 0x1000, o % 0x1000) else none
    | 0x0C => some (.hk, 0, o) | 0x0D => some (.bist, 0, o) | 0x0E => some (.alm, 0, o)
    | 0x10 => some (.can, 0, o) | 0x11 => some (.can, 1, o) | 0x12 => some (.can, 2, o) | 0x13 => some (.can, 3, o)
    | 0x14 => some (.flx, 0, o) | 0x16 => some (.eth, 0, o) | 0x17 => some (.twp, 0, o) | 0x18 => some (.preq, 0, o)
    | 0x19 => some (.nvmc, 0, o) | 0x1A => some (.msup, 0, o) | 0x1B => some (.dbg, 0, o)
    | _ => none
  else if 0x50000000 ≤ a ∧ a < 0x50007000 then
    let o := a % 0x1000
    match (a - 0x50000000) / 0x1000 with
    | 0 => some (.gd, 0, o) | 1 => some (.prot, 0, o) | 2 => some (.icv, 0, o) | 3 => some (.hsf, 0, o)
    | 4 => some (.sdl, 0, o) | 5 => some (.ths, 0, o) | _ => some (.hlnk, 0, o)
  else none

/-- Whether offset `off` of a block is one of the registers a row stands for. -/
def RegRow.has (r : RegRow) (off : Nat) : Bool :=
  if off < r.reg.off then false
  else
    let d := off - r.reg.off
    if r.reg.stride = 0 then d == 0
    else
      let e := d % r.reg.stride
      decide (d / r.reg.stride < r.count) && (e == 0 || (r.count2 == 2 && e == r.stride2))

/-- The row of an offset of a block: the header below 0x040, the block's own rows from there on. -/
def findRow (b : Blk) (off : Nat) : Option RegRow :=
  if off < 0x40 then (headerRows b).find? (fun r => r.has off) else (regRows b).find? (fun r => r.has off)

/-- TYPE and INST of a block's ID register (R50). -/
def idWord (b : Blk) (n : Nat) : Nat :=
  let inst := if b = .cnvSq then 0xF else n
  let type := if b.isHedge then 0x5000 + (b.base 0 - 0x50000000) / 0x1000
    else if b = .can then b.base n / 0x10000 else b.base 0 / 0x10000
  type * 0x10000 + inst * 0x1000 + 0x100

/-- The reset value of a register address (R13; log 3 for those the spec leaves open), 0 for any other address. -/
def resetWord (strap : LaneId) (a : Nat) : Word :=
  match blockAt a with
  | none => 0
  | some (b, n, off) =>
    if off = 0 then BitVec.ofNat 32 (idWord b n)
    else if a = R.SYS_LANE.addr 0 0 then BitVec.ofNat 32 strap.idx
    else
      match findRow b off with
      | some r => BitVec.ofNat 32 r.reset
      | none => 0

/-- The stored word of a register address. -/
def Lane.rd (L : Lane) (a : Nat) : Word := sget (resetWord L.strap a) a L.regs

/-- A register address set to a word. -/
def Lane.wr (L : Lane) (a : Nat) (v : Word) : Lane :=
  { L with regs := sput (resetWord L.strap a) a v L.regs }

/-- A whole register, instance `n`, index `i`. -/
def Lane.reg (L : Lane) (r : Reg) (n : Nat := 0) (i : Nat := 0) : Nat := (L.rd (r.addr n i)).toNat

/-- A whole register set. -/
def Lane.setReg (L : Lane) (r : Reg) (v : Nat) (n : Nat := 0) (i : Nat := 0) : Lane :=
  L.wr (r.addr n i) (BitVec.ofNat 32 v)

/-- A field of a register. -/
def Lane.get (L : Lane) (f : Fld) (n : Nat := 0) (i : Nat := 0) : Nat := bits (L.reg f.reg n i) f.lo f.w

/-- A field of a register, read as a truth value. -/
def Lane.is (L : Lane) (f : Fld) (n : Nat := 0) (i : Nat := 0) : Bool := L.get f n i != 0

/-- A field of a register as a signed number. -/
def Lane.getS (L : Lane) (f : Fld) (n : Nat := 0) (i : Nat := 0) : Int := toSigned f.w (L.get f n i)

/-- A field of a register set, the register's other fields kept. -/
def Lane.put (L : Lane) (f : Fld) (v : Nat) (n : Nat := 0) (i : Nat := 0) : Lane :=
  L.setReg f.reg (putBits (L.reg f.reg n i) f.lo f.w v) n i

/-- A field set to a signed number. -/
def Lane.putS (L : Lane) (f : Fld) (v : Int) (n : Nat := 0) (i : Nat := 0) : Lane := L.put f (ofSigned f.w v) n i

/-- A one-bit field set to a truth value. -/
def Lane.putB (L : Lane) (f : Fld) (b : Bool) (n : Nat := 0) (i : Nat := 0) : Lane := L.put f (b2n b) n i

/-- A counting field incremented, saturating at the field's greatest value. -/
def Lane.incSat (L : Lane) (f : Fld) (n : Nat := 0) (i : Nat := 0) : Lane :=
  L.put f (satU (2 ^ f.w - 1) (L.get f n i + 1)) n i

/-- A counting field incremented modulo its width. -/
def Lane.incMod (L : Lane) (f : Fld) (n : Nat := 0) (i : Nat := 0) : Lane := L.put f (L.get f n i + 1) n i

/-- Bit `k` of a field. -/
def Lane.fbit (L : Lane) (f : Fld) (k : Nat) (n : Nat := 0) (i : Nat := 0) : Bool := bit (L.get f n i) k

/-- Bit `k` of a field set to a truth value. -/
def Lane.putBit (L : Lane) (f : Fld) (k : Nat) (b : Bool) (n : Nat := 0) (i : Nat := 0) : Lane :=
  L.put f (putBits (L.get f n i) k 1 (b2n b)) n i

/-! ### Addressed memory: bytes, with every unlisted byte reading 0 (log 5) -/

/-- One byte of memory. -/
def Lane.byte (L : Lane) (a : Nat) : Byte := sget 0 a L.mem

/-- One byte of memory written. -/
def Lane.setByte (L : Lane) (a : Nat) (v : Byte) : Lane := { L with mem := sput 0 a v L.mem }

/-- The 32-bit word at an address, the byte at the lowest address in bits [7:0] (log 6). -/
def Lane.memWord (L : Lane) (a : Nat) : Word :=
  BitVec.ofNat 32 ((L.byte a).toNat + (L.byte (a + 1)).toNat * 0x100 + (L.byte (a + 2)).toNat * 0x10000
    + (L.byte (a + 3)).toNat * 0x1000000)

/-- A 32-bit word written to memory. -/
def Lane.setMemWord (L : Lane) (a : Nat) (v : Word) : Lane :=
  (((L.setByte a (BitVec.ofNat 8 v.toNat)).setByte (a + 1) (BitVec.ofNat 8 (v.toNat / 0x100))).setByte (a + 2)
    (BitVec.ofNat 8 (v.toNat / 0x10000))).setByte (a + 3) (BitVec.ofNat 8 (v.toNat / 0x1000000))

/-- `n` bytes of memory from an address. -/
def Lane.memBytes (L : Lane) (a : Nat) : Nat → List Byte
  | 0 => []
  | n + 1 => L.byte a :: L.memBytes (a + 1) n

/-- Bytes written to memory from an address on. -/
def Lane.setMemBytes (L : Lane) (a : Nat) : List Byte → Lane
  | [] => L
  | b :: t => (L.setByte a b).setMemBytes (a + 1) t

/-- Memory with every byte of `[lo, hi)` wiped to 0 with valid check symbols: no word of it is poisoned any more. -/
def Lane.wipe (L : Lane) (lo hi : Nat) : Lane :=
  let rest := L.test.poison.filter (fun x => decide (x < lo ∨ hi ≤ x))
  let L1 := { L with mem := L.mem.filter (fun c => decide (c.1 < lo ∨ hi ≤ c.1)), test := { L.test with poison := rest } }
  if rest.length = L.test.poison.length then L1 else L1.put F.MSUP_UE_POISON (satU 65535 rest.length)

/-! ### Lanes -/

/-- The lane of a name. -/
def State.lane (s : State) : LaneId → Lane
  | .a => s.laneA
  | .b => s.laneB
  | .c => s.laneC

/-- The state with one lane replaced. -/
def State.setLane (s : State) (l : LaneId) (L : Lane) : State :=
  match l with
  | .a => { s with laneA := L }
  | .b => { s with laneB := L }
  | .c => { s with laneC := L }

/-- The state with one lane changed by a function. -/
def State.upd (s : State) (l : LaneId) (f : Lane → Lane) : State := s.setLane l (f (s.lane l))

/-- A command of one lane: where its condition holds it changes the lane, elsewhere it has no effect (log 2). -/
def State.on (s : State) (l : LaneId) (c : Lane → Bool) (f : Lane → Lane) : Out :=
  .next (if c (s.lane l) then s.upd l f else s)

/-- Draws a free value's index: the counter, and the state with the counter advanced (log 4). -/
def State.draw (s : State) : Nat × State := (s.free, { s with free := s.free + 1 })

/-- Microseconds, milliseconds and seconds in ticks of 5 ns. -/
def us (n : Nat) : Nat := n * 200
def ms (n : Nat) : Nat := n * 200000
def sec (n : Nat) : Nat := n * 200000000

/-- Whether at least `d` ticks have passed since `t`. -/
def Lane.since (L : Lane) (t d : Nat) : Bool := decide (t + d ≤ L.now)

/-- Module time as a number. -/
def Lane.mtN (L : Lane) : Nat := L.mt.toNat

/-- Module time [31:0]. -/
def Lane.mtLo (L : Lane) : Word := BitVec.ofNat 32 L.mt.toNat

/-- The logic die runs: the kernel has been released and no reset source is asserted (Table 1.9). -/
def Lane.up (L : Lane) : Bool := L.rst.phase == .running

/-- The Hedge runs (R45: within 20 us of VBAT_x rising through 4.9 V). -/
def Lane.hedgeUp (L : Lane) : Bool := L.rst.vbatOk

/-- The vote period in us (OZL_VPER, R92). -/
def Lane.period (L : Lane) : Nat :=
  let p := L.get F.OZL_VPER_PERIOD
  if p < 10 then 10 else if 200 < p then 200 else p

/-- The vote period in ticks. -/
def Lane.periodT (L : Lane) : Nat := 200 * L.period

/-- The index k of the present period, T(k) = k × 200 × PERIOD ticks (R92). -/
def Lane.voteK (L : Lane) : Nat := L.mtN / L.periodT

/-- Ticks since the last boundary. -/
def Lane.inPeriod (L : Lane) : Nat := L.mtN % L.periodT

/-- Module time is at a boundary (R92). -/
def Lane.atBoundary (L : Lane) : Bool := L.inPeriod == 0

/-- The state of a lane as this lane holds it (OZL_LSTATE): 0 GRAFT, 1 ACTIVE, 2 FALLOW, 3 EXCLUDED, 4 PRUNED, 7 unknown. -/
def Lane.stOf (L : Lane) : LaneId → Nat
  | .a => L.get F.OZL_LSTATE_ST_A
  | .b => L.get F.OZL_LSTATE_ST_B
  | .c => L.get F.OZL_LSTATE_ST_C

/-- The state of a lane set in OZL_LSTATE. -/
def Lane.setStOf (L : Lane) (x : LaneId) (v : Nat) : Lane :=
  match x with
  | .a => L.put F.OZL_LSTATE_ST_A v
  | .b => L.put F.OZL_LSTATE_ST_B v
  | .c => L.put F.OZL_LSTATE_ST_C v

/-- The lane's own state. -/
def Lane.own (L : Lane) : Nat := L.stOf L.strap

/-- The lane is ACTIVE. -/
def Lane.active (L : Lane) : Bool := L.own == 1

/-- The membership as a mask, bit 0 = lane A. -/
def Lane.members (L : Lane) : Nat := L.get F.OZL_LSTATE_MEMBER

/-- Whether a lane is a member. -/
def Lane.isMember (L : Lane) (x : LaneId) : Bool := bit L.members x.idx

/-! ### Who hears whom (R5, Table 2.1, R70, R71) -/

/-- The peer at the other end of a link (Table 2.1). -/
def linkPeer (l : LaneId) (link : Nat) : LaneId := if link = 0 then l.next else l.prev

/-- A link of the lane is up; the external port of a module used alone stays down (R112). -/
def Lane.linkUp (L : Lane) (link : Nat) : Bool := L.is F.OZL_LINK_UP 0 link && (link != 2 || L.is F.OZL_PAIR_PAIRED)

/-- The index of a peer among next (0) and previous (1). -/
def peerIdx (l x : LaneId) : Nat := if x = l.next then 0 else 1

/-- What lane `x` sends reaches lane `y`: over their link, or relayed by the third lane (R5, R71). -/
def reaches (s : State) (x y : LaneId) : Bool :=
  let direct (p q : LaneId) : Bool := (s.lane p).up && (s.lane p).linkUp (peerIdx p q) && (s.lane q).linkUp (peerIdx q p)
  let z := if x.next = y then x.prev else x.next
  decide (x = y) || direct x y || (direct x z && direct z y)

/-! ### Elements (R380, R381) -/

/-- The register word (0 or 1) and bit of an element in BIST_PRUNE_w and BIST_HELD_w. -/
def elemBit : Elem → Nat × Nat
  | .cnv n => (0, n)
  | .loop n => (0, 8 + n)
  | .drv n => (0, 12 + n)
  | .pos c => (0, 16 + c)
  | .icv => (0, 26)
  | .can n => (1, n)
  | .flx => (1, 4)
  | .eth p => (1, 5 + p)
  | .sram k => (1, 8 + k)
  | .core c => (1, 16 + c)
  | .svc => (1, 19)

/-- The PRUNE register of a word. -/
def pruneReg (w : Nat) : Reg := if w = 0 then R.BIST_PRUNE_0 else R.BIST_PRUNE_1

/-- The HELD register of a word. -/
def heldReg (w : Nat) : Reg := if w = 0 then R.BIST_HELD_0 else R.BIST_HELD_1

/-- The element is pruned. -/
def Lane.pruned (L : Lane) (e : Elem) : Bool := bit (L.reg (pruneReg (elemBit e).1)) (elemBit e).2

/-- The element is pruned or isolated in a slice. -/
def Lane.outOfService (L : Lane) (e : Elem) : Bool := L.pruned e || L.isolated == some e

/-- A bit of a register set or cleared. -/
def Lane.setRegBit (L : Lane) (r : Reg) (k : Nat) (b : Bool) : Lane :=
  L.setReg r (putBits (L.reg r) k 1 (b2n b))

/-- The element a block's bucket belongs to: per core in TRIO, per bridge in GD and PROT, per channel in POS, per bank in MSUP
(R378). -/
def elemOf (b : Blk) (n sub : Nat) : Option Elem :=
  match b with
  | .cnv => some (.cnv n)
  | .loop => some (.loop n)
  | .drv => some (.drv n)
  | .gd | .prot => some (.drv sub)
  | .pos => some (.pos sub)
  | .icv => some .icv
  | .can => some (.can n)
  | .flx => some .flx
  | .eth => some (.eth sub)
  | .msup => if sub < 8 then some (.sram sub) else none   -- 8: a memory that is no SRAM bank (log 27)
  | .trio => if sub = 3 then some .svc else some (.core sub)
  | _ => none

/-! ### Events (R50 to R56, R376, R378) -/

/-- The time word of an event: module time [31:0], in the Hedge its own copy (R39). -/
def Lane.stamp (L : Lane) (b : Blk) : Word := if b.isHedge then L.link.hedgeMt else L.mtLo

/-- Address of EVQ_k of a block instance. -/
def evqA (b : Blk) (n k : Nat) : Nat := (H.EVQ b).addr n k

/-- Address of EVQ_k_T of a block instance. -/
def evqT (b : Blk) (n k : Nat) : Nat := (H.EVQ_T b).addr n k

/-- The true time word of an entry, which EVQ_k_T shows only through its shadow (R56). -/
def Lane.evqTimeOf (L : Lane) (b : Blk) (n k : Nat) : Word := sget 0 (evqT b n k) L.evqTime

/-- The true time word of an entry set. -/
def Lane.setEvqTime (L : Lane) (b : Blk) (n k : Nat) (t : Word) : Lane :=
  { L with evqTime := sput 0 (evqT b n k) t L.evqTime }

/-- A descriptor of the history queue: CODE, CLASS, REPEAT, VALID. -/
def evqWord (code cls rep : Nat) : Nat := code + cls * 0x100 + rep * 0x400 + 0x10000

/-- Entry `k` moved down to `k + 1` with its time word and its read mark. -/
def Lane.evqShift (L : Lane) (b : Blk) (n k : Nat) : Lane :=
  let L1 := (L.wr (evqA b n (k + 1)) (L.rd (evqA b n k))).setEvqTime b n (k + 1) (L.evqTimeOf b n k)
  let rest := L1.evqRead.filter (fun a => a != evqA b n (k + 1))
  { L1 with evqRead := if L.evqRead.contains (evqA b n k) then evqA b n (k + 1) :: rest else rest }

/-- Flag bits set by an event: a write of 1 in the same cycle leaves them set (R54, R251). -/
def Lane.raise (L : Lane) (r : Reg) (mask : Nat) (n : Nat := 0) (i : Nat := 0) : Lane :=
  let L1 := L.setReg r (L.reg r n i ||| mask) n i
  let a := r.addr n i
  { L1 with cyc := { L1.cyc with set := sput 0 a (BitVec.ofNat 32 ((sget 0 a L1.cyc.set).toNat ||| mask)) L1.cyc.set } }

/-- A flag field set by an event. -/
def Lane.flag (L : Lane) (f : Fld) (n : Nat := 0) (i : Nat := 0) : Lane := L.raise f.reg ((2 ^ f.w - 1) * 2 ^ f.lo) n i

/-- Bits of a block's ESTAT set. -/
def Lane.estat (L : Lane) (b : Blk) (n mask : Nat) : Lane := L.raise (H.ESTAT b) mask n

/-! The live Almanac record (R517, R518): bytes by offset, multi-byte fields little-endian. -/

/-- A field of `n` bytes of the live record. -/
def Lane.almGet (L : Lane) (off : Nat) : Nat → Nat
  | 0 => 0
  | n + 1 => (sget (0 : Byte) off L.alm.rcd).toNat + 0x100 * L.almGet (off + 1) n

/-- A field of `n` bytes of a record set. -/
def rcdPut (rcd : List Host.Cell) (off v : Nat) : Nat → List Host.Cell
  | 0 => rcd
  | n + 1 => rcdPut (sput (0 : Byte) off (BitVec.ofNat 8 v) rcd) (off + 1) (v / 0x100) n

/-- A field of `n` bytes of the live record set. -/
def Lane.almPut (L : Lane) (off n v : Nat) : Lane := { L with alm := { L.alm with rcd := rcdPut L.alm.rcd off v n } }

/-- A counting field of the live record incremented, saturating at its greatest value (R517). -/
def Lane.almInc (L : Lane) (off n : Nat) (d : Nat := 1) : Lane := L.almPut off n (satU (0x100 ^ n - 1) (L.almGet off n + d))

/-- The block index of R517. -/
def almIdx (b : Blk) : Nat :=
  if b.isHedge then 0x20 + (b.base 0 - 0x50000000) / 0x1000 else (b.base 0 - 0x40000000) / 0x10000

/-- An occurrence counted in FAULT; a PERMANENT one logged, unless it repeats the newest entry within 1 s (R518). -/
def Lane.almApply (L : Lane) (o : AlmOcc) : Lane :=
  let L1 := L.almInc (0x0C0 + 6 * o.blk + 2 * (o.cls - 1)) 2
  let dup := match L1.alm.newest with
    | some (b, n, c, t) => b == o.blk && n == o.inst && c == o.code && decide (L1.now ≤ t + 200000000)
    | none => false
  if o.cls = 2 && !dup then
    let k := L1.almGet 0x010 1
    let a := 0x1B0 + 16 * k
    let e0 := (L1.almPut a 4 (L1.rd (R.ALM_CAL.addr 0 0)).toNat).almPut (a + 4) 4 o.t.toNat
    let e1 := (((e0.almPut (a + 8) 1 o.blk).almPut (a + 9) 1 o.inst).almPut (a + 10) 1 o.code).almPut (a + 11) 1 2
    let e2 := ((e1.almPut (a + 12) 4 (e1.almGet 0x00C 4)).almPut 0x010 1 ((k + 1) % 64)).almInc 0x012 2
    { e2 with alm := { e2.alm with newest := some (o.blk, o.inst, o.code, L1.now) } }
  else L1

/-- Occurrences that waited during a snapshot applied once it is over (R521). -/
def Lane.almDrain (L : Lane) : Lane :=
  if L.alm.snapEnd ≤ L.now ∧ !L.alm.queue.isEmpty then
    let L1 := L.alm.queue.foldl (fun K o => K.almApply o) L
    { L1 with alm := { L1.alm with queue := [] } }
  else L

/-- An occurrence that has reached ALM: applied, or queued during a snapshot; a full queue drops it (R521). -/
def Lane.almTake (L : Lane) (o : AlmOcc) : Lane :=
  let L1 := L.almDrain
  if L1.alm.snapEnd ≤ L1.now then L1.almApply o
  else if L1.alm.queue.length < 64 then { L1 with alm := { L1.alm with queue := L1.alm.queue ++ [o] } }
  else L1.incSat F.ALM_STAT_LOST

/-- A recorded event on its way to ALM: at once from the logic die, with the next IRQ transfer from the Hedge (R518). -/
def Lane.almSee (L : Lane) (e : Event) (n : Nat) : Lane :=
  if e.cls = .info then L
  else
    let o : AlmOcc := { blk := almIdx e.blk, inst := n, code := e.code, cls := e.cls.num, t := L.stamp e.blk }
    if e.blk.isHedge then { L with alm := { L.alm with hedgeQ := L.alm.hedgeQ ++ [o] } } else L.almTake o

/-- An occurrence entered into a history queue (R55): a repeat of entry 0, or a new entry 0, the queue shifting down by one. An entry
dropped unread sets EVQ_OVF. -/
def Lane.evqEnter (L : Lane) (b : Blk) (n code cls : Nat) : Lane :=
  let d0 := L.reg (H.EVQ b) n 0
  let L1 :=
    if bit d0 16 && bits d0 0 8 == code && bits d0 8 2 == cls then
      L.setReg (H.EVQ b) (evqWord code cls (satU 63 (bits d0 10 6 + 1))) n 0
    else
      let lost := bit (L.reg (H.EVQ b) n 3) 16 && !L.evqRead.contains (evqA b n 3)
      let S := ((L.evqShift b n 2).evqShift b n 1).evqShift b n 0
      let S1 := S.setReg (H.EVQ b) (evqWord code cls 1) n 0
      let S2 := { S1 with evqRead := S1.evqRead.filter (fun a => a != evqA b n 0) }
      if lost then S2.estat b n 0x10 else S2
  L1.setEvqTime b n 0 (L.stamp b)

/-- An event entered into the block's history queue and its ESTAT (R54, R55). The Almanac counts it (R518). -/
def Lane.note (L : Lane) (e : Event) (n : Nat := 0) : Lane :=
  let b := e.blk
  let L1 := (L.evqEnter b n e.code e.cls.num).estat b n (2 ^ e.cls.num)
  ({ L1 with cyc := { L1.cyc with ev := (b, n, e.code, e.cls.num) :: L1.cyc.ev } }).almSee e n

/-- A history queue emptied with its shadows and read marks (R53). -/
def Lane.evqWipe (L : Lane) (b : Blk) (n : Nat) : Lane :=
  [0, 1, 2, 3].foldl (fun K k =>
    let K1 := ((K.setReg (H.EVQ b) 0 n k).setReg (H.EVQ_T b) 0 n k).setEvqTime b n k 0
    { K1 with evqRead := K1.evqRead.filter (fun a => a != evqA b n k) }) L

/-- EVQ_CLR: the queue emptied; events of the same cycle are entered into the emptied queue (R53). -/
def Lane.evqClear (L : Lane) (b : Blk) (n : Nat) : Lane :=
  (L.cyc.ev.filter (fun e => e.1 == b && e.2.1 == n)).foldr (fun e K => K.evqEnter b n e.2.2.1 e.2.2.2) (L.evqWipe b n)

/-- A block's bucket window in ticks (0 behaves as 1 ms). -/
def Lane.lbWindow (L : Lane) (b : Blk) (n : Nat) : Nat :=
  let w := L.get ⟨H.LBCFG b, 8, 16⟩ n
  ms (if w = 0 then 1 else w)

/-- A block's bucket threshold (0 behaves as 1). -/
def Lane.lbThresh (L : Lane) (b : Blk) (n : Nat) : Nat :=
  let w := L.get ⟨H.LBCFG b, 0, 6⟩ n
  if w = 0 then 1 else w

/-- The tokens one element's bucket holds. -/
def Lane.tokenCount (L : Lane) (b : Blk) (n sub : Nat) : Nat :=
  (L.tokens.filter (fun t => t.blk == b && t.inst == n && t.sub == sub)).length

/-- The field `k` places further on, `step` bits apart, in the same register. -/
def Fld.nth (f : Fld) (step k : Nat) : Fld := { f with lo := f.lo + step * k }

/-- The counts TRIO_TCNT shows: the cores' and the service pair's (R128, R143). -/
def Lane.tcntShow (L : Lane) : Lane :=
  [0, 1, 2, 3].foldl (fun K c => K.put (F.TRIO_TCNT_TC_0.nth 8 c) (satU 63 (K.tokenCount .trio 0 c))) L

/-- LBCFG.COUNT: the fullest bucket of the block (R378). -/
def Lane.lbShow (L : Lane) (b : Blk) (n : Nat) : Lane :=
  let m := (L.tokens.filter (fun t => t.blk == b && t.inst == n)).foldl (fun m t => max m (L.tokenCount b n t.sub)) 0
  let K := L.put ⟨H.LBCFG b, 24, 6⟩ m n
  if b = .trio then K.tcntShow else K

/-- Tokens older than WINDOW leave the block's buckets. -/
def Lane.lbExpire (L : Lane) (b : Blk) (n : Nat) : Lane :=
  let w := L.lbWindow b n
  ({ L with tokens := L.tokens.filter (fun t => !(t.blk == b && t.inst == n && decide (t.time + w < L.mtN))) }).lbShow b n

/-- One token put into an element's bucket. -/
def Lane.lbAdd (L : Lane) (b : Blk) (n sub : Nat) : Lane :=
  let E := L.lbExpire b n
  ({ E with tokens := ⟨b, n, sub, L.mtN⟩ :: E.tokens }).lbShow b n

/-- An element's bucket emptied. -/
def Lane.lbEmpty (L : Lane) (b : Blk) (n sub : Nat) : Lane :=
  ({ L with tokens := L.tokens.filter (fun t => !(t.blk == b && t.inst == n && t.sub == sub)) }).lbShow b n

/-- The element of a bucket takes part in the count: not pruned and not isolated (R378). -/
def Lane.counts (L : Lane) (b : Blk) (n sub : Nat) : Bool :=
  match elemOf b n sub with
  | some e => !L.outOfService e
  | none => true

/-- A TRANSIENT event with its token, and the promotion when COUNT reaches THRESH (R378). The Bool says whether the bucket
promoted; what the promotion prunes is `Lane.transient` in Elements.lean. -/
def Lane.transientRaw (L : Lane) (e : Event) (n sub : Nat) : Lane × Bool :=
  let L0 := L.note e n
  let L1 := { L0 with ozl := { L0.ozl with scoreAt := L.now :: L0.ozl.scoreAt } }
  if L1.counts e.blk n sub then
    let L2 := L1.lbAdd e.blk n sub
    if L2.lbThresh e.blk n ≤ L2.tokenCount e.blk n sub then
      let L3 := (L2.estat e.blk n 0x20).note (Ev.LB_PROMOTED e.blk) n
      (L3.lbEmpty e.blk n sub, true)
    else (L2, false)
  else (L1, false)

/-- A source that an event asserts for the cycle in which it occurs (R58, log 9): the gateway passes the request on, unless the source
is claimed and not completed, and the pending bit then stands until it is claimed (R57). -/
def Lane.pulse (L : Lane) (src : Nat) : Lane :=
  if L.ip.contains src || L.claimed.any (fun c => c.1 == src) then L else { L with ip := src :: L.ip }

/-! ### Protected memory (R397, R398) -/

/-- The SRAM bank of an address. -/
def sramOf (a : Nat) : Option Nat := if 0x20000000 ≤ a ∧ a < 0x20400000 then some ((a - 0x20000000) / 0x80000) else none

/-- The bucket of a memory word: its SRAM bank, 8 for any other memory (log 27). -/
def memSub (a : Nat) : Nat := (sramOf a).getD 8

/-- The word that protects a byte address. -/
def wordAt (a : Nat) : Nat := 16 * (a / 16)

/-- The protected word of an address is poisoned (R397). -/
def Lane.poisoned (L : Lane) (a : Nat) : Bool := L.test.poison.any (fun x => x / 16 == a / 16)

/-- A protected word of the bytes from `a` on is poisoned. -/
def Lane.poisonedIn (L : Lane) (a len : Nat) : Bool :=
  L.test.poison.any (fun x => decide (a / 16 ≤ x / 16) && decide (x / 16 ≤ (a + len - 1) / 16) && decide (0 < len))

/-- A write of the bytes from `lo` up to `hi` clears the poison of their words (R397, R398), which POISON counts. -/
def Lane.unpoisonIn (L : Lane) (lo hi : Nat) : Lane :=
  if L.poisonedIn lo (hi - lo) then
    let rest := L.test.poison.filter (fun x => decide (x / 16 < lo / 16 ∨ (hi - 1) / 16 < x / 16))
    ({ L with test := { L.test with poison := rest } }).put F.MSUP_UE_POISON (satU 65535 rest.length)
  else L

/-- A write of a word clears its poison. -/
def Lane.unpoison (L : Lane) (a : Nat) : Lane := L.unpoisonIn a (a + 4)

/-- A word read that cannot be corrected (R397): UE or ADDR_ERR with its token, ADDR, LAST. The Bool says that the bucket promoted. -/
def Lane.memUe (L : Lane) (a : Nat) (address scrub : Bool) : Lane × Bool :=
  let r := L.transientRaw (if address then Ev.MSUP_ADDR_ERR else Ev.MSUP_UE) 0 (memSub a)
  (((r.1.incSat F.MSUP_UE_COUNT).setReg R.MSUP_ADDR a).setReg R.MSUP_LAST (3 + 4 * b2n scrub + 8 * b2n address), r.2)

/-- SYS records BUS_ERR (R46). -/
def Lane.busErr (L : Lane) : Lane := L.note (Ev.BUS_ERR .sys)

end Sys2Proof.Machine
end

