-- ==== Sys2Proof/Machine/Operands.lean ====
section
/-!
DEFINITION. Machine/Operands.lean: the operand forms and number formats the chapters share: bytes of fields in both byte orders,
the three cyclic checks (CRC-16 of the Hedge link R17, CRC-32C of R73 and R150, CRC-8 of PREQ), Q formats and rounding.
-/

namespace Sys2Proof.Machine

/-! ### Bytes of fields -/

/-- The `n` bytes of a number, least significant first (R148). -/
def bytesLE : Nat → Nat → List Byte
  | 0, _ => []
  | n + 1, x => BitVec.ofNat 8 x :: bytesLE n (x / 256)

/-- The `n` bytes of a number, most significant first (R67). -/
def bytesBE (n x : Nat) : List Byte := (bytesLE n x).reverse

/-- The number of bytes given least significant first. -/
def leNat : List Byte → Nat
  | [] => 0
  | b :: t => b.toNat + 256 * leNat t

/-- The little-endian field of `n` bytes at `o` of a byte list. -/
def fieldLE (bs : List Byte) (o n : Nat) : Nat := leNat ((bs.drop o).take n)

/-- The same read as a signed number. -/
def fieldLES (bs : List Byte) (o n : Nat) : Int := toSigned (8 * n) (fieldLE bs o n)

/-- The number of bytes given most significant first (R67). -/
def beNat (bs : List Byte) : Nat := bs.foldl (fun r b => 256 * r + b.toNat) 0

/-- The field of `n` bytes at `o`, most significant byte first. -/
def fieldBE (bs : List Byte) (o n : Nat) : Nat := beNat ((bs.drop o).take n)

/-! ### Cyclic checks -/

/-- One bit step of a reflected 32-bit CRC register. -/
def crc32Bit (r : Nat) : Nat := if r % 2 = 1 then (r / 2) ^^^ 0x82F63B78 else r / 2

/-- One byte into a CRC-32C register (reflected polynomial 0x82F6_3B78, R73). -/
def crc32Byte (r : Nat) (b : Byte) : Nat :=
  crc32Bit (crc32Bit (crc32Bit (crc32Bit (crc32Bit (crc32Bit (crc32Bit (crc32Bit (r ^^^ b.toNat))))))))

/-- CRC-32C: initial value and final XOR 0xFFFF_FFFF (R73, R150). -/
def crc32c (bs : List Byte) : Word := BitVec.ofNat 32 (bs.foldl crc32Byte 0xFFFFFFFF ^^^ 0xFFFFFFFF)

/-- One bit step of the 16-bit CRC register. -/
def crc16Bit (r : Nat) : Nat := if r ≥ 0x8000 then ((r * 2) % 0x10000) ^^^ 0x1021 else r * 2

/-- One beat into the CRC-16 register, most significant bit first (R17). -/
def crc16Beat (r : Nat) (b : Half) : Nat := (List.range 16).foldl (fun x _ => crc16Bit x) (r ^^^ b.toNat)

/-- CRC-16 of the Hedge link: polynomial 0x1021, initial value 0xFFFF (R17). -/
def crc16 (beats : List Half) : Half := BitVec.ofNat 16 (beats.foldl crc16Beat 0xFFFF)

/-- One bit step of the CRC-8 register of PREQ frames. -/
def crc8Bit (r : Nat) : Nat := if r ≥ 0x80 then ((r * 2) % 0x100) ^^^ 0x1D else r * 2

/-- CRC-8 with polynomial 0x1D, initial value and final XOR 0xFF (15_power_domains.md, the PREQ frames). -/
def crc8 (bs : List Byte) : Byte :=
  BitVec.ofNat 8 (bs.foldl (fun r b => (List.range 8).foldl (fun x _ => crc8Bit x) (r ^^^ b.toNat)) 0xFF ^^^ 0xFF)

/-! ### Number formats (R6, R7) -/

/-- A Q1.15 value as a signed integer. -/
def q15 (h : Half) : Int := h.toInt

/-- The Q1.15 pattern of an integer, saturated (R7). -/
def toQ15 (x : Int) : Half := BitVec.ofInt 16 (satS 16 x)

/-- Rounding of a quotient to the nearest integer, halves away from zero. -/
def roundDiv (a b : Int) : Int :=
  if b = 0 then 0
  else
    let n := a.natAbs
    let d := b.natAbs
    let q := (2 * n + d) / (2 * d)
    if (a < 0) = (b < 0) then (q : Int) else -(q : Int)

/-- Floor of a product with a fraction of 2^15. -/
def mulQ15 (a b : Int) : Int := (a * b) / 32768

/-- The median of three values. -/
def median3 (a b c : Int) : Int := max (min a b) (min (max a b) c)

/-- The mean of two values rounded toward zero (R78). -/
def mean2 (a b : Int) : Int := (a + b).tdiv 2

/-- The number of set bits among the low three. -/
def pop3 (m : Nat) : Nat := b2n (bit m 0) + b2n (bit m 1) + b2n (bit m 2)

/-! ### State digest items (R131, R132) -/

/-- h(a, d): CRC-32C over the 4 bytes of a, then the 16 bytes of d, most significant byte first. -/
def wordHash (a : Nat) (d : List Byte) : Word := crc32c (bytesBE 4 a ++ d)

/-- The XOR of h(a, 0) over `n` all-zero words from word address `a` on. -/
def zeroDigest : Nat → Nat → Word
  | 0, _ => 0
  | n + 1, a => wordHash a (List.replicate 16 0) ^^^ zeroDigest n (a + 1)

end Sys2Proof.Machine
end

