-- ==== Sys2Proof/Machine/Codes.lean ====
section
/-!
DEFINITION. Machine/Codes.lean: the Reed-Solomon codes of the module over GF(2^8): RS(80,72) of an Oztin cell (R67, R68) and
RS(20,16) of a protected memory word (R396), one field, one encoder and one decoder for both.
-/

namespace Sys2Proof.Machine

/-! ### The field GF(2^8) with polynomial x^8 + x^4 + x^3 + x^2 + 1 (R67, R396) -/

/-- A field element times α, the class of x. -/
def gfX (a : Nat) : Nat := if a < 128 then 2 * a else (2 * a) ^^^ 0x11D

/-- The product of two field elements, over the low `n` bits of `b`. -/
def gfMulN : Nat → Nat → Nat → Nat
  | 0, _, _ => 0
  | n + 1, a, b => (if b % 2 = 1 then a else 0) ^^^ gfMulN n (gfX a) (b / 2)

/-- The product of two field elements. -/
def gfMul (a b : Nat) : Nat := gfMulN 8 a b

/-- A power of a field element. -/
def gfPow (a : Nat) : Nat → Nat
  | 0 => 1
  | n + 1 => gfMul a (gfPow a n)

/-- The power α^n. -/
def gfAlpha (n : Nat) : Nat := gfPow 2 (n % 255)

/-- The inverse a^254; 0 for 0. -/
def gfInv (a : Nat) : Nat :=
  let a2 := gfMul a a
  let a4 := gfMul a2 a2
  let a8 := gfMul a4 a4
  let a16 := gfMul a8 a8
  let a32 := gfMul a16 a16
  let a64 := gfMul a32 a32
  let a128 := gfMul a64 a64
  gfMul a128 (gfMul a64 (gfMul a32 (gfMul a16 (gfMul a8 (gfMul a4 a2)))))

/-! ### Polynomials, lowest coefficient first -/

/-- The value of a polynomial at a point. -/
def gfEval (p : List Nat) (x : Nat) : Nat := p.foldr (fun c r => c ^^^ gfMul x r) 0

/-- The sum of two polynomials. -/
def gfAddP : List Nat → List Nat → List Nat
  | [], q => q
  | p, [] => p
  | a :: p, b :: q => (a ^^^ b) :: gfAddP p q

/-- A polynomial times a constant. -/
def gfScale (c : Nat) (p : List Nat) : List Nat := p.map (gfMul c)

/-- The formal derivative, in characteristic 2. -/
def gfDeriv : List Nat → List Nat
  | [] => []
  | _ :: p => p.zipIdx.map (fun c => if c.2 % 2 = 0 then c.1 else 0)

/-! ### The codes -/

/-- One symbol into the remainder by a monic generator polynomial, whose coefficients below the leading one are `g`, highest
first. -/
def rsStep (g : List Nat) (r : List Nat) (b : Nat) : List Nat :=
  match r with
  | [] => []
  | h :: t => ((t ++ [0]).zip g).map (fun (p : Nat × Nat) => p.1 ^^^ gfMul (h ^^^ b) p.2)

/-- The generator polynomial with roots α^0 to α^(m-1), lowest coefficient first (R67, R396). -/
def rsGenP : Nat → List Nat
  | 0 => [1]
  | m + 1 => gfAddP (0 :: rsGenP m) (gfScale (gfAlpha m) (rsGenP m))

/-- Its coefficients below the leading one, highest first. -/
def rsGen (m : Nat) : List Nat := (rsGenP m).reverse.drop 1

/-- The `m` check symbols of a message: the remainder, first symbol of the highest power. -/
def rsCheck (m : Nat) (msg : List Nat) : List Nat := msg.foldl (rsStep (rsGen m)) (List.replicate m 0)

/-- The syndromes of a received word, its first symbol of the highest power: its values at α^0 to α^(m-1). -/
def rsSyn (m : Nat) (w : List Nat) : List Nat := (List.range m).map (fun i => w.foldl (fun r c => gfMul r (gfAlpha i) ^^^ c) 0)

/-- What the shortest-register search holds: the error locator, the one before its last change of length, the length, the shift
and the discrepancy since then. -/
structure RsReg where
  c : List Nat
  b : List Nat
  l : Nat
  m : Nat
  d : Nat
  deriving DecidableEq, Repr

/-- One step of the search with syndromes `s`, at index `n`. -/
def rsReg (s : List Nat) (k : RsReg) (n : Nat) : RsReg :=
  let d := (List.range (k.l + 1)).foldl (fun x i => x ^^^ gfMul (k.c.getD i 0) (if i ≤ n then s.getD (n - i) 0 else 0)) 0
  if d = 0 then { k with m := k.m + 1 }
  else
    let t := gfAddP k.c (List.replicate k.m 0 ++ gfScale (gfMul d (gfInv k.d)) k.b)
    if 2 * k.l ≤ n then ⟨t, k.c, n + 1 - k.l, 1, d⟩ else { k with c := t, m := k.m + 1 }

/-- The error locator polynomial of the syndromes. -/
def rsLocator (s : List Nat) : List Nat := ((List.range s.length).foldl (rsReg s) ⟨[1], [1], 0, 1, 1⟩).c

/-- A received word decoded with `m` check symbols: the codeword that differs from it in at most m/2 symbols and the number of
symbols corrected; none where there is no such codeword (R68, R396). -/
def rsDecode (m : Nat) (w : List Nat) : Option (List Nat × Nat) :=
  let s := rsSyn m w
  if s.all (· == 0) then some (w, 0)
  else
    let loc := rsLocator s
    let om := ((List.range m).map (fun n =>
      (List.range (n + 1)).foldl (fun x i => x ^^^ gfMul (loc.getD i 0) (s.getD (n - i) 0)) 0))
    let dl := gfDeriv loc
    let fixed := w.zipIdx.map (fun c =>
      let x := gfAlpha (w.length - 1 - c.2)
      let xi := gfInv x
      if gfEval loc xi = 0 then c.1 ^^^ gfMul x (gfMul (gfEval om xi) (gfInv (gfEval dl xi))) else c.1)
    let n := ((w.zip fixed).filter (fun p => p.1 != p.2)).length
    if (rsSyn m fixed).all (· == 0) && decide (n ≤ m / 2) then some (fixed, n) else none

/-! ### RS(20,16): a protected word of 128 bits and a transfer of the fabric (R396, R397) -/

/-- The four symbols of a word's byte address, the most significant first (log 143). -/
def addrSymbols (a : Nat) : List Nat := [a / 0x1000000 % 256, a / 0x10000 % 256, a / 0x100 % 256, a % 256]

/-- The four check symbols stored with a word's 16 data bytes: the parity of its address and its data (R396). -/
def memCheck (a : Nat) (data : List Nat) : List Nat := rsCheck 4 (addrSymbols a ++ data)

/-- How a read ends (R397): the data as stored, `n` symbols corrected, or not correctable, with the error placed in the address. -/
inductive MemRead where
  | clean
  | fixed (n : Nat) (data : List Nat)
  | bad (address : Bool)
  deriving DecidableEq, Repr

/-- A read of the 20 stored symbols (16 data bytes, 4 check symbols) decoded with the address of the access (R397). -/
def memDecode (a : Nat) (stored : List Nat) : MemRead :=
  match rsDecode 4 (addrSymbols a ++ stored) with
  | none => .bad false
  | some (w, n) => if n = 0 then .clean else if w.take 4 = addrSymbols a then .fixed n ((w.drop 4).take 16) else .bad true

end Sys2Proof.Machine
end

