-- ==== Sys2Proof/Machine/Cell.lean ====
section
/-!
DEFINITION. Machine/Cell.lean: the two frames that carry everything between dies: transfers of the Hedge link (R16, R17, Table 1.2)
and cells of the Oztin links (R67, Tables 2.2 and 2.4), built and taken apart.
-/

namespace Sys2Proof.Machine

/-! ### Transfers of the Hedge link -/

/-- The header beat: TYPE, SEQ, LEN (R16). -/
def hdrBeat (type seq len : Nat) : Half := BitVec.ofNat 16 (type % 16 * 0x1000 + seq % 16 * 0x100 + len % 256)

/-- The CRC beat of a transfer: over the header beat and the payload beats (R17). -/
def crcBeat (hdr : Half) (payload : List Half) : Half := crc16 (hdr :: payload)

/-- A received transfer of a type stands: its header beat names the type and as many payload beats as came, and its CRC beat is that
of its own beats (R17, R20). No rule says how SEQ runs, so every SEQ is taken. -/
def xferOk (type : Nat) (payload : List Half) (hdr crc : Half) : Bool :=
  bits hdr.toNat 12 4 == type && bits hdr.toNat 0 8 == payload.length && crc == crcBeat hdr payload

/-- A 32-bit word as two beats, [31:16] first (Table 1.2). -/
def wordBeats (w : Word) : List Half := [BitVec.ofNat 16 (w.toNat / 0x10000), BitVec.ofNat 16 w.toNat]

/-- Bytes as beats, most significant byte first. -/
def byteBeats : List Byte → List Half
  | a :: b :: t => BitVec.ofNat 16 (a.toNat * 0x100 + b.toNat) :: byteBeats t
  | [a] => [BitVec.ofNat 16 (a.toNat * 0x100)]
  | [] => []

/-! ### Cells of the Oztin links -/

/-- The header of a cell (Table 2.2). -/
structure CellHdr where
  slot : Nat
  kind : Nat
  src : Nat
  dst : Nat
  ext : Bool
  cyc : Nat
  stream : Nat
  offset : Nat
  deriving DecidableEq, Repr

/-- The eight bytes of a cell header. -/
def CellHdr.bytes (h : CellHdr) : List Byte :=
  bytesBE 1 (h.slot * 0x10 + h.kind) ++ bytesBE 1 (h.src + 4 * h.dst + 0x10 * b2n h.ext) ++ bytesBE 2 h.cyc
    ++ bytesBE 2 h.stream ++ bytesBE 2 h.offset

/-- The header that eight bytes spell. -/
def cellHdr (bs : List Byte) : CellHdr where
  slot := fieldBE bs 0 1 / 16
  kind := fieldBE bs 0 1 % 16
  src := fieldBE bs 1 1 % 4
  dst := fieldBE bs 1 1 / 4 % 4
  ext := bit (fieldBE bs 1 1) 4
  cyc := fieldBE bs 2 2
  stream := fieldBE bs 4 2
  offset := fieldBE bs 6 2

/-- Header and payload with their eight check bytes: the 80 bytes of a cell (R67). -/
def sealCell (h : CellHdr) (payload : List Byte) : List Byte :=
  let m := h.bytes ++ payload
  m ++ (rsCheck 8 (m.map (·.toNat))).map (BitVec.ofNat 8)

/-- What the decoder of a link makes of 80 received bytes: clean, up to four bytes corrected, or discarded, with the 72 bytes of
header and payload (R68). -/
def decodeCell (bs : List Byte) : RsOut × List Byte :=
  match rsDecode 8 (bs.map (·.toNat)) with
  | some (w, n) => if bs.length = 80 then (if n = 0 then .clean else .corrected, (w.take 72).map (BitVec.ofNat 8)) else (.failed, [])
  | none => (.failed, [])

/-- Payload bytes 0 to 59 of a vote cell (Table 2.4), most significant byte first in each field (R67). -/
def cellBytes (c : VoteCell) : List Byte :=
  let r := c.refs
  let b4 := c.origin.toNat + 4 * c.lstate.toNat + 0x20 * b2n c.shadow + 0x40 * b2n c.late + 0x80 * b2n c.novote
  let b5 := r.level.toNat + 4 * r.share.toNat + 0x10 * r.member.toNat
  let b6 := r.ena.toNat + 0x10 * r.asc.toNat
  let b7 := r.leave.toNat + 8 * r.join.toNat
  let ref (i : Nat) := bytesBE 2 (r.tq.getD i 0).toNat ++ bytesBE 2 (r.fx.getD i 0).toNat
  bytesBE 4 c.vseq.toNat ++ bytesBE 1 b4 ++ bytesBE 1 b5 ++ bytesBE 1 b6 ++ bytesBE 1 b7 ++ ref 0 ++ ref 1 ++ ref 2 ++ ref 3
    ++ bytesBE 2 c.score.toNat ++ bytesBE 1 c.resolve.toNat ++ [0] ++ bytesBE 4 c.cdig.toNat ++ bytesBE 4 c.sdig.toNat
    ++ List.replicate 24 0

/-- The 64 payload bytes of a vote cell with its E2E. -/
def votePayload (c : VoteCell) : List Byte := cellBytes c ++ bytesBE 4 c.e2e.toNat

/-- The vote cell that 64 payload bytes spell (Table 2.4). -/
def voteOf (p : List Byte) : VoteCell :=
  let b (o : Nat) := fieldBE p o 1
  { vseq := BitVec.ofNat 32 (fieldBE p 0 4)
    origin := BitVec.ofNat 2 (b 4)
    lstate := BitVec.ofNat 3 (b 4 / 4)
    shadow := bit (b 4) 5
    late := bit (b 4) 6
    novote := bit (b 4) 7
    refs :=
      { level := BitVec.ofNat 2 (b 5)
        share := BitVec.ofNat 2 (b 5 / 4)
        member := BitVec.ofNat 3 (b 5 / 0x10)
        ena := BitVec.ofNat 4 (b 6)
        asc := BitVec.ofNat 4 (b 6 / 0x10)
        leave := BitVec.ofNat 3 (b 7)
        join := BitVec.ofNat 3 (b 7 / 8)
        tq := [0, 1, 2, 3].map (fun i => BitVec.ofNat 16 (fieldBE p (8 + 4 * i) 2))
        fx := [0, 1, 2, 3].map (fun i => BitVec.ofNat 16 (fieldBE p (10 + 4 * i) 2)) }
    score := BitVec.ofNat 16 (fieldBE p 24 2)
    resolve := BitVec.ofNat 2 (b 26)
    cdig := BitVec.ofNat 32 (fieldBE p 28 4)
    sdig := BitVec.ofNat 32 (fieldBE p 32 4)
    e2e := BitVec.ofNat 32 (fieldBE p 60 4) }

/-- The 8-byte key of R73: the lane, three bytes 0, the sequence number. -/
def e2eKey (lane seq : Nat) : List Byte := bytesBE 1 lane ++ [0, 0, 0] ++ bytesBE 4 seq

/-- E2E over payload bytes 0 to 59 under a key (R73). -/
def e2eOf (lane seq : Nat) (p : List Byte) : Word := crc32c (e2eKey lane seq ++ p.take 60)

/-- E2E of a vote cell under a key (R73). -/
def cellE2E (c : VoteCell) (seq : Nat) : Word := e2eOf c.origin.toNat seq (cellBytes c)

/-- A payload carries the E2E of its own bytes under a key (R74). -/
def e2eOk (lane seq : Nat) (p : List Byte) : Bool := fieldBE p 60 4 == (e2eOf lane seq p).toNat

/-- The 64 payload bytes of a heartbeat cell, its E2E keyed with CYC in place of the vote sequence number. -/
def heartPayload (h : Heartbeat) : List Byte :=
  let p := bytesBE 8 h.mt.toNat ++ [h.state, h.flags] ++ List.replicate 50 0
  p ++ bytesBE 4 (e2eOf h.src.idx h.cyc.toNat p).toNat

/-- The heartbeat that header and payload bytes spell. -/
def heartOf (h : CellHdr) (p : List Byte) : Heartbeat where
  src := LaneId.ofIdx h.src
  cyc := BitVec.ofNat 16 h.cyc
  mt := BitVec.ofNat 64 (fieldBE p 0 8)
  state := BitVec.ofNat 8 (fieldBE p 8 1)
  flags := BitVec.ofNat 8 (fieldBE p 9 1)
  e2e := BitVec.ofNat 32 (fieldBE p 60 4)

end Sys2Proof.Machine
end

