-- ==== Sys2Proof/Machine/Cores.lean ====
section
/-!
DEFINITION. Machine/Cores.lean: the cores of the trio as the spec names their state (R126, R131, R138, R145): registers, CSRs, predictor
tables and architectural digest, the PMP; and who may make an access (Tables 3.7 and 3.8, R136, R141, R144, R146).
-/

namespace Sys2Proof.Machine

/-! ### Registers of a core and their digest -/

/-- The CSR numbers of the RISC-V privileged architecture that R117, R138 and R46 name. -/
def csrMstatus : BitVec 12 := 0x300
def csrMtvec : BitVec 12 := 0x305
def csrMepc : BitVec 12 := 0x341
def csrMcause : BitVec 12 := 0x342
def csrMtval : BitVec 12 := 0x343
def csrMhartid : BitVec 12 := 0xF14

/-- The item of R131 a register is digested under; none for what ADIG does not cover. A machine CSR has 3 in bits [9:8] of its number
(log 132). -/
def coreItem : CoreReg → Option Nat
  | .x n => if n.val = 0 then none else some n.val
  | .f n => some (32 + n.val)
  | .csr n => if n.toNat / 256 % 4 = 3 then some (0x1000 + n.toNat) else none
  | .pc | .pred _ => none

/-- A register as a core reads it; x0 reads 0. -/
def CoreSt.read (c : CoreSt) : CoreReg → Word
  | .x n => if n.val = 0 then 0 else c.x.getD n.val 0
  | .f n => c.f.getD n.val 0
  | .csr n => sget 0 n.toNat c.csrs
  | .pc => c.pc
  | .pred k => (sget 0 k.val c.pred).setWidth 32

/-- A register replaced; a write of x0 is discarded. -/
def CoreSt.put (c : CoreSt) (r : CoreReg) (v : Word) : CoreSt :=
  match r with
  | .x n => if n.val = 0 then c else { c with x := c.x.set n.val v }
  | .f n => { c with f := c.f.set n.val v }
  | .csr n => { c with csrs := sput 0 n.toNat v c.csrs }
  | .pc => { c with pc := v }
  | .pred k => { c with pred := sput 0 k.val (v.setWidth 8) c.pred }

/-- h(a, d) of a register's value: the last 4 bytes of d, the first 12 being 0 (R131). -/
def regHash (a : Nat) (v : Word) : Word := wordHash a (List.replicate 12 0 ++ bytesBE 4 v.toNat)

/-- A register write: ADIG changes by h(a, old) and h(a, new) (R131). -/
def CoreSt.write (c : CoreSt) (r : CoreReg) (v : Word) : CoreSt :=
  match coreItem r with
  | some a => { c.put r v with adig := c.adig ^^^ regHash a (c.read r) ^^^ regHash a v }
  | none => c.put r v

/-- ADIG of a core: what the register writes since its reset made of the digest the reset left (log 132). -/
def CoreSt.digest (c : CoreSt) : Word := Config.coreDigest ^^^ c.adig

/-- The core takes an access fault (R46): the machine trap entry of the RISC-V privileged architecture, which the spec gives the cores
(PRESUMED from that architecture, log 133). -/
def CoreSt.trap (c : CoreSt) (cause : Nat) (tval : Word) : CoreSt :=
  let m := (c.read (.csr csrMstatus)).toNat
  let m1 := putBits (putBits (putBits m 7 1 (bits m 3 1)) 3 1 0) 11 2 c.priv.toNat
  let c1 := (((c.write (.csr csrMepc) c.pc).write (.csr csrMcause) (BitVec.ofNat 32 cause)).write (.csr csrMtval) tval).write
    (.csr csrMstatus) (BitVec.ofNat 32 m1)
  { c1 with priv := 3, pc := (c1.read (.csr csrMtvec)) &&& 0xFFFFFFFC }

/-- The PMP registers of a core, pmpcfg and pmpaddr. -/
def isPmpCsr (n : Nat) : Bool := decide (0x3A0 ≤ n) && decide (n < 0x3F0)

/-- A core started free (R135, R138): machine mode, at TRIO_FREE_PC, its own PMP registers cleared, its index in mhartid. -/
def CoreSt.start (c : CoreSt) (index : Nat) (pc : Word) : CoreSt :=
  let c1 := (c.csrs.filter (fun e => isPmpCsr e.1)).foldl (fun k e => k.write (.csr (BitVec.ofNat 12 e.1)) 0) c
  { c1.write (.csr csrMhartid) (BitVec.ofNat 32 index) with pc := pc, priv := 3 }

/-! ### The cores of a lane -/

/-- A core of the trio. -/
def Lane.core (L : Lane) (c : Nat) : CoreSt := L.trio.cores.getD c {}

/-- The cores of a mask changed by a function of the core and its index. -/
def Lane.onCores (L : Lane) (m : Nat) (f : Nat → CoreSt → CoreSt) : Lane :=
  { L with trio := { L.trio with cores := L.trio.cores.zipIdx.map (fun p => if bit m p.2 then f p.2 p.1 else p.1) } }

/-- One register write of a core. -/
def Lane.coreWrite (L : Lane) (w : CoreWrite) : Lane := L.onCores (2 ^ w.core.val) (fun _ c => c.write w.reg w.val)

/-- TRIO_MODE.MODE. -/
def Lane.trioMode (L : Lane) : Nat := L.get F.TRIO_MODE_MODE

/-- Cores that are not pruned, as a mask. -/
def Lane.soundCores (L : Lane) : Nat := 7 - L.get F.TRIO_MODE_PRUNED

/-- The lock-step cores of the present mode, as a mask (Table 3.3). -/
def Lane.lockStep (L : Lane) : Nat :=
  match L.trioMode with
  | 0 | 2 | 3 => L.soundCores
  | 1 => L.get F.TRIO_MODE_LIVE
  | 4 => putBits L.soundCores (L.get F.TRIO_MODE_FREE) 1 0
  | _ => 0

/-- The free cores of the present mode, as a mask (R135, R138). -/
def Lane.freeCores (L : Lane) : Nat :=
  match L.trioMode with
  | 4 => 2 ^ L.get F.TRIO_MODE_FREE
  | 5 => L.soundCores
  | _ => 0

/-- The service pair runs in lock-step and is not halted. -/
def Lane.svcRuns (L : Lane) : Bool := L.is F.TRIO_SVC_LIVE && !L.is F.TRIO_SVC_HALTED

/-- A master makes accesses now: the trio while it runs in lock-step, halted in debug through its debug module, and in RESYNC until the
drain is over (R127, R129); user mode once the application has been started (R145); the service pair while it runs (R141, R144); a free
core while there is one (R136). -/
def Lane.masterRuns (L : Lane) (m : Master) : Bool :=
  let trio := match L.trioMode with
    | 1 => L.trio.copying.isNone
    | 5 | 6 => false
    | _ => true
  match m with
  | .trioM => trio
  | .trioU => trio && L.trio.appRuns
  | .svc => L.svcRuns
  | .free => L.freeCores != 0

/-! ### PMP (R145, Table 3.7) -/

/-- The locked entries 0 to 7 of Table 3.7. Entry 2 is the replicated region. -/
def Lane.lockedPmp (L : Lane) : List PmpEntry :=
  let b := 0x10000000 + 16 * L.get F.TRIO_DIG_BASE_BASE
  let n := 16 * min 0x1000 (L.get F.TRIO_DIG_SIZE_SIZE)
  [⟨0, 0x00200000, true, false, true, false, false, false⟩,
   ⟨0x10000000, 0x10020000, true, true, false, false, false, false⟩,
   ⟨b, min (b + n) 0x10040000, true, true, false, false, false, false⟩,
   ⟨0x10020000, 0x10030000, true, true, false, true, true, false⟩,
   ⟨0x40000000, 0x40047000, true, true, false, false, false, false⟩,
   ⟨0x40050000, 0x401C0000, true, true, false, false, false, false⟩,
   ⟨0x4C000000, 0x50007000, true, true, false, false, false, false⟩,
   ⟨0x60000000, 0x63000000, true, false, false, true, false, false⟩]

/-- Two ranges have an address in common. -/
def pmpMeets (e : PmpEntry) (lo hi : Nat) : Bool := decide (e.lo < hi) && decide (lo < e.hi)

/-- The kernel refuses an entry 8 to 15 that would grant user access to a range of entries 0 to 7 (R145) or to SRAM bank 5 (R400). -/
def Lane.pmpRefused (L : Lane) (e : PmpEntry) : Bool :=
  (e.uR || e.uW || e.uX) && (L.lockedPmp.any (fun k => pmpMeets e k.lo k.hi) || pmpMeets e 0x20280000 0x20300000)

/-- The PMP programmed by the kernel: entries 8 to 15 from the application image header; with a refused one the application is not
started. -/
def Lane.pmpBoot (L : Lane) (app : List PmpEntry) : Lane :=
  let ok := decide (app.length ≤ 8) && !app.any L.pmpRefused
  { L with trio := { L.trio with pmp := L.lockedPmp ++ (if ok then app else []), appRuns := ok } }

/-- The PMP lets an access of the trio pass: the lowest-numbered matching entry decides; with none, machine mode only. An entry 8 to 15
has no L and binds user mode only. -/
def Lane.pmpOk (L : Lane) (m : Master) (w : Bool) (a : Nat) : Bool :=
  match m with
  | .svc | .free => true
  | .trioU => match L.trio.pmp.find? (fun e => decide (e.lo ≤ a) && decide (a < e.hi)) with
    | some e => if w then e.uW else e.uR
    | none => false
  | .trioM => match (L.trio.pmp.take 8).find? (fun e => decide (e.lo ≤ a) && decide (a < e.hi)) with
    | some e => if w then e.mW else e.mR
    | none => true

/-! ### The firewall of the fabric (Table 3.8) -/

/-- The fabric's permission of a master on an address; `w` for a write. -/
def permits (m : Master) (w : Bool) (a : Nat) : Bool :=
  if a < 0x01000000 then !w && (match m with
      | .trioM => true
      | .trioU | .free => decide (0x00200000 ≤ a) && decide (a < 0x00800000)
      | .svc => decide (0x00800000 ≤ a) && decide (a < 0x00900000))
  else if 0x10000000 ≤ a ∧ a < 0x10040000 then (match m with
      | .trioM | .trioU => true
      | .svc => false
      | .free => !w)
  else if 0x10100000 ≤ a ∧ a < 0x10120000 then (match m with
      | .trioM => !w
      | .svc => true
      | _ => false)
  else if 0x20000000 ≤ a ∧ a < 0x20300000 then m == .trioM || m == .trioU
  else if 0x20300000 ≤ a ∧ a < 0x20380000 then m == .trioM || m == .svc
  else if 0x20380000 ≤ a ∧ a < 0x20400000 then m != .svc
  else if 0x30000000 ≤ a ∧ a < 0x30040000 then m == .trioM || (m == .svc && !w)
  else if 0x4C000000 ≤ a ∧ a < 0x50000000 then m == .trioM || ((m == .svc || m == .free) && !w)
  else if 0x60000000 ≤ a ∧ a < 0x63000000 then !w
  else match blockAt a with
    | none => false
    | some (b, _, off) =>
      match b with
      | .drv | .loop | .ozl | .saf | .cnv | .cnvSq | .pos => m == .trioM || (m == .svc && !w)
      | .pwr | .bist | .alm | .nvmc | .hk | .msup => m == .trioM || m == .svc || (m == .free && !w)
      | .can | .flx | .eth | .twp => m == .trioM || m == .svc
      | .cmdq => m == .trioM || m == .svc || (m == .trioU && decide (0x7000 ≤ off))
      | .sys | .clk | .preq | .trio | .dbg => m == .trioM || ((m == .svc || m == .free) && !w)
      | _ => m == .trioM || (m == .svc && !w)

/-- The cores behind a master take an access fault; the spec gives no registers of the service pair. -/
def Lane.accessFault (L : Lane) (m : Master) (w : Bool) (a : Nat) : Lane :=
  let t (_ : Nat) (c : CoreSt) := c.trap (if w then 7 else 5) (BitVec.ofNat 32 a)
  match m with
  | .trioM | .trioU => L.onCores L.lockStep t
  | .free => L.onCores L.freeCores t
  | .svc => L

/-- An access that ends in a bus error (R46): recorded in SYS, an access fault at the core. -/
def Lane.busFault (L : Lane) (m : Master) (w : Bool) (a : Nat) : Lane := L.busErr.accessFault m w a

/-- An access of a master judged before it reaches its target: a PMP refusal stays in the core (R145), one of the firewall is a bus error
(R146); a master that does not run makes none. -/
def State.gate (s : State) (l : LaneId) (m : Master) (w : Bool) (a : Nat) (f : State → Out) : Out :=
  let L := s.lane l
  if !L.masterRuns m then .next s
  else if !L.pmpOk m w a then .next (s.upd l (fun K => K.accessFault m w a))
  else if !permits m w a then .next (s.upd l (fun K => K.busFault m w a))
  else f s

end Sys2Proof.Machine
end

