-- ==== Sys2Proof/Machine/PosOps.lean ====
section
/-!
DEFINITION. Machine/PosOps.lean: position quantities as other blocks reach them (R317 to R321), the rounding of quotients where
the spec states none, and the compare units, which every change of a value passes (R334).
-/

namespace Sys2Proof.Machine

/-- A quotient: exact where it is, else the integer below or above it (log 17). -/
def divR (a b : Int) : Int :=
  if b = 0 then Config.divZero a else if a % b = 0 then a / b else (if b < 0 then (-a) / (-b) else a / b) + (if Config.roundUp a b then 1 else 0)

/-- Bits of an integer square root, from bit `n - 1` down. -/
def isqrtFrom (x : Nat) : Nat → Nat → Nat
  | 0, r => r
  | n + 1, r =>
    let c := r + 2 ^ n
    isqrtFrom x n (if c * c ≤ x then c else r)

/-- Integer square root below 2^32. -/
def isqrt (x : Nat) : Nat := isqrtFrom x 32 0

/-- The square root of a sum of squares: exact where it is, else the integer below or above it (log 17). -/
def rootR (x : Nat) : Nat :=
  let r := isqrt x
  if r * r = x then r else r + b2n (Config.roundUp x 2)

/-- Angle of a vector as a fraction of 2^32 of a turn: exact on an axis, elsewhere free (log 17). -/
def angle32 (x y : Int) : Nat :=
  if y = 0 then (if x < 0 then 2 ^ 31 else 0)
  else if x = 0 then (if y < 0 then 3 * 2 ^ 30 else 2 ^ 30)
  else Config.atan32 x y % 2 ^ 32

/-- The POS state changed by a function. -/
def Lane.onPos (L : Lane) (f : PosSt → PosSt) : Lane := { L with pos := f L.pos }

/-- A position quantity. -/
def Lane.quant (L : Lane) (q : Nat) : Quant := L.pos.q.getD q {}

/-- A position quantity changed by a function. -/
def Lane.onQuant (L : Lane) (q : Nat) (f : Quant → Quant) : Lane :=
  L.onPos (fun p => { p with q := p.q.set q (f (p.q.getD q {})) })

/-- UNCERT of a quantity. -/
def Quant.uncert (q : Quant) : Bool := q.uDec || q.hdif

/-- SVALID of a quantity (R337). -/
def Quant.svalid (q : Quant) : Bool := q.sUpd && q.valid

/-- The channel of a quantity: ENC 0 to 3, resolver 4 and 5, SENT 6 to 9. -/
def chanOf (q : Nat) : Nat := if q < 10 then q else q - 4

/-- The quantities of a channel (Table 9.1). -/
def quantsOf (c : Nat) : List Nat := if c < 6 then [c] else [c, c + 4]

/-- The EN bit of a channel. -/
def Lane.chanOn (L : Lane) (c : Nat) : Bool :=
  if c < 4 then L.is F.POS_ENC_CFG_EN 0 c
  else if c < 6 then L.is F.POS_RES_CFG_EN 0 (c - 4)
  else L.is F.POS_SENT_CFG_EN 0 (c - 6)

/-- The timestamp of a quantity as a consumer takes it now (R318): the present cycle for an ENC channel. -/
def Lane.quantT (L : Lane) (q : Nat) : Word := if q < 4 then L.mtLo else (L.quant q).t

/-- VAL from a count or data (R317). -/
def Lane.valOf (L : Lane) (q : Nat) (c : Int) : Int :=
  satS 32 ((L.quant q).ofs + (c * L.getS F.POS_Q_SCL_PSCL 0 q) / 65536)

/-- A register of compare unit `u`: the units of a quantity lie 0x10 apart. -/
def cmpFld (f : Fld) (u : Nat) : Fld := { f with reg := { f.reg with off := f.reg.off + 0x10 * u } }

/-- Firing of a compare unit (R334). -/
def Lane.cmpFire (L : Lane) (q u : Nat) : Lane :=
  let f := fun x => cmpFld x u
  let L1 := (L.put (f F.POS_CMP_CTL_HIT) 1 0 q).put (f F.POS_CMP_HTIME_TIME) (L.quantT q).toNat 0 q
  let L2 := (L1.incMod (f F.POS_CMP_CTL_COUNT) 0 q).put (f F.POS_CMP_CTL_BEHIND) 0 0 q
  if L.is (f F.POS_CMP_CTL_AUTO) 0 q then L2 else L2.put (f F.POS_CMP_CTL_ARM) 0 0 q

/-- Whether a change of VAL crosses the unit's target in an allowed direction (R334, R335). -/
def Lane.cmpCrosses (L : Lane) (q u : Nat) (old new : Int) : Bool :=
  let t := L.getS (cmpFld F.POS_CMP_TGT_TGT u) 0 q
  let d := L.get (cmpFld F.POS_CMP_CTL_DIRSEL u) 0 q
  let any := d == 0 || d == 3 || L.is (cmpFld F.POS_CMP_CTL_BEHIND u) 0 q
  L.is (cmpFld F.POS_CMP_CTL_ARM u) 0 q &&
    ((decide (old < t) && decide (t ≤ new) && (any || d == 1)) || (decide (t < old) && decide (new ≤ t) && (any || d == 2)))

/-- The judgement of a target at its write or at the rise of ARM (R335). -/
def Lane.cmpJudge (L : Lane) (q u : Nat) : Lane :=
  let f := fun x => cmpFld x u
  let x := L.quant q
  let t := L.getS (f F.POS_CMP_TGT_TGT) 0 q
  let moving := x.svalid && x.spd != 0
  let behind := moving && (if x.dirn then decide (x.val < t) else decide (t < x.val))
  if !L.is (f F.POS_CMP_CTL_ARM) 0 q then L
  else if t = x.val then L.cmpFire q u
  else if behind then
    if L.is (f F.POS_CMP_CTL_CATCHUP) 0 q then (L.cmpFire q u).put (f F.POS_CMP_CTL_CAUGHT) 1 0 q
    else L.put (f F.POS_CMP_CTL_BEHIND) 1 0 q
  else L.put (f F.POS_CMP_CTL_BEHIND) 0 0 q

/-- What a change of VAL does to a unit: a unit whose target was written in this same cycle is judged against the changed value,
which is no crossing of the new target (R335). -/
def Lane.cmpChange (L : Lane) (q u : Nat) (old new : Int) : Lane :=
  if L.pos.judged.contains (q, u, L.now) then L.cmpJudge q u
  else if L.cmpCrosses q u old new then L.cmpFire q u else L

/-- VAL of a quantity set, its compare units judged, DIRN kept (R317, R334). -/
def Lane.setVal (L : Lane) (q : Nat) (v : Int) : Lane :=
  let old := (L.quant q).val
  if v = old then L
  else
    let L1 := (L.onQuant q (fun x => { x with val := v, dirn := decide (v < old) })).putS F.POS_Q_VAL_VAL v 0 q
    if q < 10 then (L1.cmpChange q 0 old v).cmpChange q 1 old v else L1

/-- Every quantity of a faulted or pruned channel: VALID, AVALID and SVALID 0, FAULT 1 (R341). -/
def Lane.chanDown (L : Lane) (c : Nat) : Lane :=
  (quantsOf c).foldl (fun K q => K.onQuant q (fun x => { x with valid := false, avalid := false, sUpd := false, fault := true })) L

/-- A channel returned to service: FAULT 0; its decoder starts as after enable. -/
def Lane.chanUp (L : Lane) (c : Nat) : Lane :=
  let L1 := (quantsOf c).foldl (fun K q => K.onQuant q (fun x =>
    { x with fault := false, valid := decide (c < 4) && L.chanOn c })) L
  L1.onPos (fun p => { p with
    enc := p.enc.set c {}
    res := if 4 ≤ c then p.res.set (c - 4) {} else p.res
    sent := if 6 ≤ c then p.sent.set (c - 6) { tmoAt := L.now } else p.sent })

/-- The fault event of a channel (Table 9.5). -/
def chanFaultEv (c : Nat) : Event := if c < 4 then Ev.POS_ENC_FAULT else if c < 6 then Ev.POS_RES_FAULT else Ev.POS_SENT_FAULT

end Sys2Proof.Machine
end

