-- ==== Sys2Proof/Machine/ConvOps.lean ====
section
/-!
DEFINITION. Machine/ConvOps.lean: what other blocks reach of the converters and what they need of the drive engines' settings:
registers in effect (R248), triggers of the sequences (R298, R300), calibration start (R303), the stop of a pruned converter.
-/

namespace Sys2Proof.Machine

/-! Block-specific bits of CNV_n_STAT. -/
def F.CNV_STAT_RBUSY : Fld := ⟨H.STAT .cnv, 8, 1⟩
def F.CNV_STAT_IBUSY : Fld := ⟨H.STAT .cnv, 9, 1⟩
def F.CNV_STAT_CAL : Fld := ⟨H.STAT .cnv, 10, 1⟩
def F.CNV_STAT_COVER : Fld := ⟨H.STAT .cnv, 11, 1⟩
def F.CNV_STAT_FRAME : Fld := ⟨H.STAT .cnv, 12, 1⟩
def F.CNV_STAT_SUSPECT : Fld := ⟨H.STAT .cnv, 13, 1⟩

/-- A field of DRV_k as it is in effect: the value of the last vote boundary (R248, log 16). -/
def Lane.dget (L : Lane) (f : Fld) (k : Nat) : Nat :=
  bits (sget (resetWord L.strap (f.reg.addr k 0)) (f.reg.addr k 0) L.drive.eff).toNat f.lo f.w

/-- A one-bit field of DRV_k in effect. -/
def Lane.dis (L : Lane) (f : Fld) (k : Nat) : Bool := L.dget f k != 0

/-- Decision period in ticks (DRV_n_DPER). -/
def Lane.drvPeriod (L : Lane) (k : Nat) : Nat := max 100 (min 2000 (L.dget F.DRV_DPER_PERIOD k))

/-- Module time is a decision instant of DRV_k (R213). -/
def Lane.atDecision (L : Lane) (k : Nat) : Bool := L.mtN % L.drvPeriod k == L.dget F.DRV_DPER_PHASE k

/-- STATE of a drive engine: 0 OFF, 1 PRECHARGE, 2 MAGNETISE, 3 RUN, 4 RAMPDOWN, 5 ASC, 6 CATCH, 7 HOFF, 8 FAULT. -/
def Lane.drvState (L : Lane) (k : Nat) : Nat := L.get F.DRV_STATE_STATE k

/-- The drive engine is OFF or in FAULT. -/
def Lane.drvIdle (L : Lane) (k : Nat) : Bool := L.drvState k == 0 || L.drvState k == 8

/-- The hidden state of a converter. -/
def Lane.cnv (L : Lane) (n : Nat) : CnvSt := L.cnvs.getD n {}

/-- The hidden state of a converter changed by a function. -/
def Lane.onCnv (L : Lane) (n : Nat) (f : CnvSt → CnvSt) : Lane := { L with cnvs := L.cnvs.set n (f (L.cnv n)) }

/-- The partner of a converter. -/
def partner (n : Nat) : Nat := if n % 2 = 0 then n + 1 else n - 1

/-- The converter is calibrating, isolated or pruned (R305). -/
def Lane.cnvAway (L : Lane) (n : Nat) : Bool := (L.cnv n).calAt.isSome || L.outOfService (.cnv n)

/-- CNV_2k+1's injected sequence is taken by its partner's interleaving (R302). -/
def Lane.ilvTaken (L : Lane) (n : Nat) : Bool := n % 2 == 1 && L.is F.CNV_ISEQ_ILV (n - 1)

/-- A dropped trigger (R300). -/
def Lane.seqMiss (L : Lane) (n : Nat) (inj : Bool) : Lane :=
  if inj then (L.incSat F.CNV_MISS_IMISS n).note Ev.CNV_IMISS n else (L.incSat F.CNV_MISS_RMISS n).note Ev.CNV_RMISS n

/-- An accepted trigger of a sequence, from its divided source or from GO: the run starts, or is dropped while a run of the
same sequence is in progress (R300) and while the converter calibrates or is isolated (R306). -/
def Lane.seqAccept (L : Lane) (n : Nat) (inj : Bool) : Lane :=
  if L.pruned (.cnv n) || (inj && L.ilvTaken n) then L
  else if L.cnvAway n then L.seqMiss n inj
  else if inj then
    if (L.cnv n).iNext.isSome then L.seqMiss n true
    else (L.onCnv n (fun c => { c with iNext := some 0 })).put F.CNV_STAT_IBUSY 1 n
  else
    if (L.cnv n).rNext.isSome then L.seqMiss n false
    else (L.onCnv n (fun c => { c with rNext := some 0 })).put F.CNV_STAT_RBUSY 1 n

/-- A sequence is enabled. -/
def Lane.seqOn (L : Lane) (n : Nat) (inj : Bool) : Bool := L.is (if inj then F.CNV_ISEQ_EN else F.CNV_RSEQ_EN) n

/-- The trigger source of a sequence (Table 8.4). -/
def Lane.seqTrig (L : Lane) (n : Nat) (inj : Bool) : Nat := L.get (if inj then F.CNV_ISEQ_TRIG else F.CNV_RSEQ_TRIG) n

/-- A trigger of an enabled sequence's source: every (TDIV + 1)-th is accepted (R298). -/
def Lane.seqSource (L : Lane) (n : Nat) (inj : Bool) : Lane :=
  if !L.seqOn n inj then L
  else
    let d := L.get (if inj then F.CNV_ISEQ_TDIV else F.CNV_RSEQ_TDIV) n
    let c := (if inj then (L.cnv n).iTrig else (L.cnv n).rTrig) + 1
    let due := d < c
    let c' := if due then 0 else c
    let L1 := L.onCnv n (fun x => if inj then { x with iTrig := c', iSrc := some L.now } else { x with rTrig := c', rSrc := some L.now })
    if due then L1.seqAccept n inj else L1

/-- The trigger source `t` of Table 8.4 reaches both sequences of a converter, the injected one first (R300). -/
def Lane.cnvTrigger (L : Lane) (n t : Nat) : Lane :=
  let L1 := if L.seqTrig n true == t then L.seqSource n true else L
  if L1.seqTrig n false == t then L1.seqSource n false else L1

/-- Runs and conversions of a converter abandoned. -/
def Lane.cnvAbandon (L : Lane) (n : Nat) : Lane :=
  ((L.onCnv n (fun c => { c with rNext := none, iNext := none, conv := none })).put F.CNV_STAT_RBUSY 0 n).put F.CNV_STAT_IBUSY 0 n

/-- A request for a self-calibration (R303): started, refused, or ignored while this converter calibrates. The Bool says
whether it started. -/
def Lane.calStart (L : Lane) (n : Nat) : Lane × Bool :=
  if (L.cnv n).calAt.isSome then (L, false)
  else if (L.cnv (partner n)).calAt.isSome || (!L.drvIdle (n / 2) && decide (L.drvPeriod (n / 2) < 120)) then
    ((L.put F.CNV_CAL_STAT_RESULT 3 n).note Ev.CNV_CAL_REFUSED n, false)
  else
    let wait := match (L.cnv n).conv with
      | some c => (c.start + 81 - 2 * L.mtN) / 2
      | none => 0
    (((L.cnvAbandon n).onCnv n (fun c => { c with calAt := some (L.now + wait) })).put F.CNV_STAT_CAL 1 n).put
      F.CNV_CAL_STAT_BUSY 1 n |> fun K => (K, true)

/-- SUSPECT of a channel cleared (R313). -/
def Lane.suspectClear (L : Lane) (n : Nat) : Lane :=
  ((L.onCnv n (fun c => { c with suspectAt := none, fallback := false, checks := [], fails := 0 })).put F.CNV_STAT_SUSPECT 0 n).putBit
    F.CNV_SQ_XSTAT_SUSPECT n false

/-- A converter pruned: its runs, its calibration and its self-check stop. -/
def Lane.stopCnv (L : Lane) (n : Nat) : Lane :=
  let L1 := if (L.cnv n).calAt.isSome then (L.put F.CNV_STAT_CAL 0 n).put F.CNV_CAL_STAT_BUSY 0 n else L
  ((L1.cnvAbandon n).onCnv n (fun c => { c with calAt := none })).suspectClear n

/-- Every converter in service has passed its reference check for forming or graft (R100, Table 2.11). -/
def Lane.refDone (L : Lane) : Bool := (List.range 8).all (fun n => bit L.ozl.refPass n || L.pruned (.cnv n))

/-- Puts a reference check at the end of the queue (R314). -/
def Lane.refAsk (L : Lane) (mask win : Nat) (by_ : RefBy) : Lane :=
  let w := max 100 (min 20000 win)
  ({ L with icv := { L.icv with queue := L.icv.queue ++ [({ mask := mask % 256, win := w, by_ := by_, askedAt := L.mtN } : RefReq)] } }).put F.CNV_SQ_REFCHK_BUSY 1

end Sys2Proof.Machine
end

