-- ==== Sys2Proof/Machine/DrvOps.lean ====
section
/-!
DEFINITION. Machine/DrvOps.lean: the arithmetic of a drive engine (R211, R212) and the parts of it that other blocks reach: its
state (Table 6.5), voted ENA and ASC (R215), Hedge overrides (R236), NOREG (R231), the stop of a pruned engine (R555).
-/

namespace Sys2Proof.Machine

/-! ### Q3.21 (R211, log 17) -/

/-- 1.0 in Q3.21. -/
def qOne : Int := 2097152

/-- Saturation to Q3.21. -/
def sat24 (x : Int) : Int := satS 24 x

/-- A product. -/
def qmul (a b : Int) : Int := sat24 (divR (a * b) qOne)

/-- A quotient. -/
def qdiv (a b : Int) : Int := sat24 (divR (a * qOne) b)

/-- A Q1.15 register value at internal precision. -/
def ofQ15 (x : Int) : Int := x * 64

/-- The Q1.15 register value of an internal value: to nearest, ties away from zero, saturated. -/
def toReg (x : Int) : Int := satS 16 (roundDiv x 64)

/-- x / √3: exact at 0, else one of the two neighbours (log 17). -/
def divSqrt3 (x : Int) : Int :=
  let r := isqrt (x.natAbs * x.natAbs / 3)
  let m : Int := if x = 0 then 0 else (r : Int) + (if Config.roundUp x 3 then 1 else 0)
  if x < 0 then -m else m

/-- Magnitude of a vector. -/
def vmag (v : Int × Int) : Int := rootR (v.1 * v.1 + v.2 * v.2).toNat

/-- A vector is at least `m` long. -/
def vAtLeast (v : Int × Int) (m : Int) : Bool := decide (m * m ≤ v.1 * v.1 + v.2 * v.2)

/-- Sine of a fraction a / 2^32 of a turn: exact at the quarters. -/
def sin32 (a : Nat) : Int :=
  let t := a % 2 ^ 32
  if t = 0 ∨ t = 2 ^ 31 then 0 else if t = 2 ^ 30 then qOne else if t = 3 * 2 ^ 30 then -qOne
  else clampI (-qOne) qOne (Config.sinTurn t (2 ^ 32))

/-- Cosine. -/
def cos32 (a : Nat) : Int := sin32 (a + 2 ^ 30)

/-- A vector turned by an angle. -/
def rot (a : Nat) (v : Int × Int) : Int × Int :=
  (sat24 (qmul v.1 (cos32 a) - qmul v.2 (sin32 a)), sat24 (qmul v.1 (sin32 a) + qmul v.2 (cos32 a)))

/-- 2π as a fraction, for the conversions between turns and radians. -/
def twoPiNum : Int := 6283185307179586476925286766559
def twoPiDen : Int := 1000000000000000000000000000000

/-- Electrical turns, in 2^-32, that per-unit speed `w` covers in `dt` ticks. -/
def Lane.turnStep (L : Lane) (k : Nat) (w : Int) (dt : Nat) : Int :=
  divR (w * L.get F.DRV_WBASE_WBASE k * dt * 2 ^ 32 * twoPiDen) (qOne * 2000000000 * twoPiNum)

/-- KT = W_BASE × T_D (Table 6.1). -/
def Lane.drvKT (L : Lane) (k : Nat) : Int := sat24 (divR (L.get F.DRV_WBASE_WBASE k * L.drvPeriod k * qOne) 2000000000)

/-- A signed Q1.15 field of DRV_k in effect, at internal precision. -/
def Lane.dq (L : Lane) (f : Fld) (k : Nat) : Int := ofQ15 (toSigned 16 (L.dget f k))

/-- A current code scaled (R212). -/
def Lane.scaleI (L : Lane) (k : Nat) (c : Int) : Int := sat24 (divR (c * L.get F.DRV_GAIN_IGAIN k) 4)

/-- A VM code scaled (R212). -/
def Lane.scaleV (L : Lane) (k : Nat) (u : Int) : Int := sat24 (divR (u * L.get F.DRV_GAIN_VGAIN k) 8)

/-! ### State -/

/-- The hidden state of a drive engine. -/
def Lane.drv (L : Lane) (k : Nat) : DrvSt := L.drive.eng.getD k {}

/-- The hidden state of a drive engine changed by a function. -/
def Lane.onDrv (L : Lane) (k : Nat) (f : DrvSt → DrvSt) : Lane :=
  { L with drive := { L.drive with eng := L.drive.eng.set k (f (L.drv k)) } }

/-- A leg's bits in a LEG transfer: four bridges, three legs each (R216). -/
def Lane.legsNow (L : Lane) : List (BitVec 2) := [0, 1, 2, 3].flatMap (fun k => (L.drv k).legs)

/-- The logic die sends a LEG transfer with the registered leg states (R19, R216). -/
def Lane.sendLeg (L : Lane) : Lane := { L with link := { L.link with lastLegSent := L.now, legOut := L.legsNow } }

/-- How many legs differ. -/
def legDiff : List (BitVec 2) → List (BitVec 2) → Nat
  | a :: s, b :: t => b2n (a != b) + legDiff s t
  | _, _ => 0

/-- SWCNT counts `n` leg changes (R228, R250). -/
def Lane.swAdd (L : Lane) (k n : Nat) : Lane :=
  let c := ((L.drv k).swcnt + n) % 2 ^ 64
  (L.onDrv k (fun d => { d with swcnt := c })).put F.DRV_SWCNT_LO_CNT_LO c k

/-- The index of the vector the legs apply, 0 with any leg OFF (Table 6.3). -/
def vecOf (legs : List (BitVec 2)) : Nat :=
  match legs with
  | [2, 1, 1] => 1
  | [2, 2, 1] => 2
  | [1, 2, 1] => 3
  | [1, 2, 2] => 4
  | [1, 1, 2] => 5
  | [2, 1, 2] => 6
  | [2, 2, 2] => 7
  | _ => 0

/-- Legs set past both filters (R228): entry into ASC, OFF, a probe, FAULT. -/
def Lane.forceLegs (L : Lane) (k : Nat) (legs : List (BitVec 2)) : Lane :=
  let n := legDiff (L.drv k).legs legs
  let m := max 1 (L.dget F.DRV_SWLIM_MINP k)
  let L1 := L.onDrv k (fun d => { d with
    freeAt := (d.freeAt.zip (d.legs.zip legs)).map (fun h => if h.2.1 = h.2.2 then h.1 else d.decN + m), legs := legs })
  (L1.swAdd k n).put F.DRV_STATE_VEC (vecOf legs) k

/-- STATE changed; EVT.STCHG set on a change (Table 6.5); drive frames end with OFF and FAULT (R296). -/
def Lane.setDrv (L : Lane) (k st : Nat) : Lane :=
  let L1 := L.onDrv k (fun d => { d with stAt := L.now, magRun := 0, lateRun := if st = 0 ∨ st = 8 then 0 else d.lateRun })
  let L2 := if st = 0 ∨ st = 8 then [2 * k, 2 * k + 1].foldl (fun K n => (K.put F.CNV_STAT_FRAME 0 n).put F.CNV_STAT_COVER 0 n) L1
    else L1
  if L.drvState k = st then L2 else (L2.put F.DRV_STATE_STATE st k).flag F.DRV_EVT_STCHG k

/-- STATE changed with every leg OFF in the next transfer. -/
def Lane.drvOff (L : Lane) (k st : Nat) : Lane := ((L.setDrv k st).forceLegs k [0, 0, 0]).sendLeg

/-- FAULT: every leg OFF, not ASC. -/
def Lane.drvFault (L : Lane) (k : Nat) : Lane := L.drvOff k 8

/-- The engine is pruned (R555): FAULT at once from any state, every leg OFF. -/
def Lane.stopDrv (L : Lane) (k : Nat) : Lane := L.drvFault k

/-- A pruned engine returns: FAULT to OFF (Table 6.5). -/
def Lane.drvReturn (L : Lane) (k : Nat) : Lane := if L.drvState k = 8 then L.drvOff k 0 else L

/-- CONF is at or above CTH. -/
def Lane.confOk (L : Lane) (k : Nat) : Bool := decide (L.dget F.DRV_CONF_CTH k ≤ L.get F.DRV_SPD_CONF k)

/-- The conditions under which the estimate takes command from the sensor hold at this decision (R242). -/
def Lane.takeoverDue (L : Lane) (k : Nat) : Bool :=
  !L.drvIdle k && !L.is F.DRV_STATE_ASRC k && L.confOk k && (!(L.drv k).sensorOk || decide (16 ≤ (L.drv k).sdiffRun))

/-- The estimate is in command, from the very decision at which it takes it (R242). -/
def Lane.estCmd (L : Lane) (k : Nat) : Bool := L.is F.DRV_STATE_ASRC k || L.takeoverDue k

/-- An angle is in command: the valid sensor, or the estimate with CONF at CTH. -/
def Lane.angleIn (L : Lane) (k : Nat) : Bool := if L.estCmd k then L.confOk k else (L.drv k).sensorOk

/-- The angle the engine uses: the estimate, or the sensor angle. -/
def Lane.angleCmd (L : Lane) (k : Nat) : Nat :=
  if L.estCmd k then L.get F.DRV_ANG_E_THETA_E k else L.get F.DRV_ANG_S_THETA_S k

/-- The current model of R219 at an angle. -/
def Lane.psiC (L : Lane) (k : Nat) (theta : Nat) : Int × Int :=
  let dq := rot (2 ^ 32 - theta % 2 ^ 32) (L.drv k).i
  rot theta (sat24 (qmul (L.dq F.DRV_MOT_1_LD k) dq.1 + L.dq F.DRV_MOT_0_PSIPM k), qmul (L.dq F.DRV_MOT_1_LQ k) dq.2)

/-- Entry into HOFF: legs OFF, HEDGE_OVR recorded (Table 6.5). -/
def Lane.enterHoff (L : Lane) (k : Nat) : Lane := ((L.drvOff k 7).note Ev.DRV_HEDGE_OVR k).flag F.DRV_EVT_OVR k

/-- Entry into PRECHARGE; into HOFF instead while a Hedge override is reported (Table 6.5). -/
def Lane.enterPre (L : Lane) (k : Nat) : Lane := if (L.drv k).ovr then L.enterHoff k else L.setDrv k 1

/-- Entry into MAGNETISE, the flux estimate set from the current model when an angle is in command, the polarity to be resolved;
into HOFF instead while a Hedge override is reported. After ASC the estimate serves as the angle (Table 6.5). -/
def Lane.enterMag (L : Lane) (k : Nat) (fromAsc : Bool) : Lane :=
  if (L.drv k).ovr then L.enterHoff k
  else
    let est := fromAsc && !(!L.is F.DRV_STATE_ASRC k && (L.drv k).sensorOk) && L.confOk k
    let th := if est then L.get F.DRV_ANG_E_THETA_E k else L.angleCmd k
    let L1 := L.setDrv k 2
    let L2 := if est || L.angleIn k then L1.onDrv k (fun d => { d with psi := L.psiC k th, psiDue := false }) else L1
    let L3 := L2.onDrv k (fun d => { d with
      winAt := L.now, cycAt := L.now, winFail := false, probe := none, caught := none, v0Run := 0, cHfiRun := 0
      polOk := false, polStep := 0 })
    { L3 with drive := { L3.drive with fxTaken := L3.drive.fxTaken.set k (vmag (L3.drv k).psi) } }

/-- A valid configuration (R247). -/
def Lane.drvConfigOk (L : Lane) (k : Nat) : Bool :=
  let p := L.get F.DRV_WBASE_POLES k
  let a := L.dget F.DRV_PSRC_ASEL k
  L.is F.DRV_IBASE_IBASE k && L.is F.DRV_VBASE_VBASE k && L.is F.DRV_WBASE_WBASE k && decide (1 ≤ p) && decide (p ≤ 31)
    && decide (L.dget F.DRV_DPER_PHASE k < L.drvPeriod k) && L.is F.DRV_GAIN_IGAIN k && L.is F.DRV_GAIN_VGAIN k
    && (decide (a ≤ 9) || (a == 0xFF && (L.dis F.DRV_MODE_HFIEN k || L.dis F.DRV_MODE_EMFEN k)))

/-- Active short circuit: LOW on all three legs, past the filters (R234). -/
def Lane.enterAsc (L : Lane) (k : Nat) : Lane := ((L.setDrv k 5).forceLegs k [1, 1, 1]).sendLeg

/-- The voted ENA and ASC of a bridge take effect at a boundary (R215, Table 6.5). In HOFF they are remembered; in FAULT and
while pruned they change nothing. -/
def Lane.drvVoted (L : Lane) (k : Nat) (ena asc : Bool) : Lane :=
  let d := L.drv k
  let L1 := L.onDrv k (fun d => { d with ena := ena, asc := asc, heldTq := false })
  let st := L.drvState k
  if st = 8 ∨ st = 7 then L1
  else if asc && !d.asc then L1.enterAsc k
  else if st = 5 then
    if !asc && d.asc then (if ena then L1.enterMag k true else L1.drvOff k 0) else L1
  else if ena && !d.ena then
    if st = 0 then (if L.drvConfigOk k then L1.enterPre k else L1.note Ev.DRV_CFG_ERR k) else L1
  else if !ena && d.ena then
    if st = 2 ∨ st = 3 ∨ st = 6 then L1.setDrv k 4
    else if st = 1 ∧ !asc then L1.drvOff k 0
    else L1
  else L1

/-- A Hedge override of a bridge as reported by an IRQ transfer (R236, Table 6.5). -/
def Lane.drvOverride (L : Lane) (k : Nat) (on : Bool) : Lane :=
  let was := (L.drv k).ovr
  let L1 := L.onDrv k (fun d => { d with ovr := on })
  let st := L.drvState k
  if on && !was then
    if st = 1 ∨ st = 2 ∨ st = 3 ∨ st = 4 ∨ st = 6 then L1.enterHoff k else L1
  else if !on && st = 7 then
    if (L.drv k).asc then L1.enterAsc k else if (L.drv k).ena then L1.enterMag k false else L1.drvOff k 0
  else L1

/-- Gate supplies ready, reported by an IRQ transfer: PRECHARGE to MAGNETISE within 5 ms (Table 6.5). -/
def Lane.drvReady (L : Lane) (k : Nat) : Lane :=
  if L.drvState k = 1 ∧ L.now < (L.drv k).stAt + ms 5 then L.enterMag k false else L

/-- An over-voltage report, the own Hedge's or a peer's (R231): NOREG rises. -/
def Lane.noregReport (L : Lane) : Lane :=
  [0, 1, 2, 3].foldl (fun K k =>
    let K1 := K.onDrv k (fun d => { d with noregAt := K.now })
    if K.is F.DRV_STATE_NOREG k then K1 else ((K1.put F.DRV_STATE_NOREG 1 k).note Ev.DRV_NOREGEN k).flag F.DRV_EVT_NOREG k) L

/-- The heartbeat of peer `i` (0 next, 1 previous) shows flag bit `b`; a link that is down brings none (R231). -/
def Lane.peerFlag (L : Lane) (i b : Nat) : Bool :=
  L.linkUp i && bit ((L.ozl.peerFlags.getD i 0).toNat) b

/-- An over-voltage report is present. -/
def Lane.ovReported (L : Lane) : Bool := bit L.link.gateWord.toNat 3 || L.peerFlag 0 2 || L.peerFlag 1 2

end Sys2Proof.Machine
end

