-- ==== Sys2Proof/Machine/GateOps.lean ====
section
/-!
DEFINITION. Machine/GateOps.lean: the gate-mode ranking of Table 7.5 and the one operation that brings the gates of a lane to
what their modes and leg states command (R258, R259, R262), the lane stop (R264), and the latch of a bridge (R271).
-/

namespace Sys2Proof.Machine

/-- A member of a list of truth values, false beyond its end. -/
def nthB (l : List Bool) (i : Nat) : Bool := l.getD i false

/-- A member of a list of numbers, 0 beyond its end. -/
def nthN (l : List Nat) (i : Nat) : Nat := l.getD i 0

/-- Nominal dead time of a bridge in ticks (Table 7.3). -/
def Lane.deadTime (L : Lane) (b : Nat) : Nat :=
  match L.get (F.GD_DT_DT_0.nth 2 b) with
  | 0 => 30
  | 1 => 60
  | 2 => 120
  | _ => 240

/-- A thermal stop holds bridge `b` (R508, R509, R511: REFSD stops the bridges with a fused input). -/
def Lane.thermStop (L : Lane) (b : Nat) : Bool :=
  L.is F.THS_STAT_DIESD || L.fbit F.THS_STAT_TDSD b || (L.is F.THS_STAT_REFSD && L.fbit F.THS_TDK_FUSED b)

/-- Any lane stop cause of Table 7.6. -/
def Lane.anyStop (L : Lane) : Bool := bits (L.reg R.GD_LSTOP) 0 7 != 0

/-- A high-side or charge-pump lock-out concerns bridge `b` (R253). A lock-out is a cause of Table 7.5 from the falling crossing of
Table 7.2 on; a supply not charged since power-on is none: GD_GMODE resets to OFF_CMD beside a GD_UVLO of all ones (log 140). -/
def Lane.hsLocked (L : Lane) (b : Nat) : Bool := bit L.gate.uvFell 16 || bits L.gate.uvFell (3 * b) 3 != 0

/-- VGL of bridge `b` is locked out by a falling crossing. -/
def Lane.lsLocked (L : Lane) (b : Nat) : Bool := bit L.gate.uvFell (12 + b)

/-- The highest-ranked gate mode whose cause is present (Table 7.5), by its GMODE code. -/
def Lane.modeOf (L : Lane) (b : Nat) : Nat :=
  if L.fbit F.PROT_LATCH_LATCH b || L.fbit F.GD_STO_ILK b then 6
  else if L.anyStop || L.fbit F.GD_STO_HSF b || L.thermStop b || L.lsLocked b then 5
  else if L.fbit F.GD_GMODE_HASC b then 4
  else if L.fbit F.GD_VCMD_ASC b then 3
  else if (L.gate.holdEnd.getD b none).isSome || L.hsLocked b then 2
  else if nthB L.gate.offCmd b || !L.fbit F.GD_GMODE_GRDY b then 1
  else 0

/-- A gate mode is a Hedge override (last column of Table 7.5). -/
def overrideMode (m : Nat) : Bool := m == 6 || m == 5 || m == 4 || m == 2

/-- The leg state a mode commands: both off, low side on in active short circuit, the kept LEG state in FOLLOW; off while a
trip holds the leg (R262, R268). -/
def legWanted (mode : Nat) (kept : BitVec 2) (tripped : Bool) : BitVec 2 :=
  if tripped then 0
  else if mode = 4 ∨ mode = 3 then 1
  else if mode = 0 then kept
  else 0

/-- One switch turned off, the instant of the command kept. -/
def GateSt.turnOff (g : GateSt) (now s : Nat) : GateSt :=
  if nthB g.on s then
    { g with on := g.on.set s false, offAt := g.offAt.set s now, edgeAt := g.edgeAt.set (s / 2) now }
  else g

/-- One switch turned on, only once its complement has been commanded off for the dead time (R259). -/
def GateSt.turnOn (g : GateSt) (now dt s : Nat) : GateSt :=
  let c := if s % 2 = 0 then s + 1 else s - 1
  if nthB g.on s || nthB g.on c then g
  else if nthN g.offAt c + dt ≤ now then { g with on := g.on.set s true, edgeAt := g.edgeAt.set (s / 2) now }
  else g

/-- A leg brought to a state: what must be off is turned off at once, what must be on after the dead time (R258, R259). -/
def GateSt.applyLeg (g : GateSt) (now dt leg : Nat) (want : BitVec 2) : GateSt :=
  let lo := 2 * leg
  let hi := 2 * leg + 1
  let g1 := if want = 1 then g else g.turnOff now lo
  let g2 := if want = 2 then g1 else g1.turnOff now hi
  if want = 1 then g2.turnOn now dt lo
  else if want = 2 then g2.turnOn now dt hi
  else g2

/-- A leg's short-circuit trip holds it off. -/
def GateSt.tripped (g : GateSt) (leg : Nat) : Bool := nthB g.scOff leg

/-- The twelve legs brought to what the four modes command. -/
def Lane.driveLegs (L : Lane) : Nat → GateSt → GateSt
  | 0, g => g
  | n + 1, g =>
    let leg := 11 - n
    let b := leg / 3
    L.driveLegs n (g.applyLeg L.now (L.deadTime b) leg (legWanted (L.modeOf b) (g.kept.getD leg 0) (g.tripped leg)))

/-- The word GD_GMODE shows, GRDY and HASC kept. -/
def Lane.gmodeWord (L : Lane) : Nat :=
  let m := [0, 1, 2, 3].map L.modeOf
  let modes := nthN m 0 + nthN m 1 * 0x10 + nthN m 2 * 0x100 + nthN m 3 * 0x1000
  let hoff := b2n (overrideMode (nthN m 0)) + 2 * b2n (overrideMode (nthN m 1)) + 4 * b2n (overrideMode (nthN m 2))
    + 8 * b2n (overrideMode (nthN m 3))
  modes + L.get F.GD_GMODE_GRDY * 0x10000 + L.get F.GD_GMODE_HASC * 0x100000 + hoff * 0x1000000

/-- GD_STO.ACT: bridges held off by STO_x, by the hard-wired safety functions or by the interlock latch. -/
def Lane.stoAct (L : Lane) : Nat :=
  let all := if L.is F.GD_LSTOP_STOPIN then 0xF else 0
  all ||| L.get F.GD_STO_HSF ||| L.get F.GD_STO_ILK

/-- A switch-off path test whose switch has been commanded on is aborted: demand wins (R283). -/
def GateSt.sopYield (g : GateSt) : GateSt :=
  match g.sopRun with
  | some s => if s < 24 && nthB g.on s then { g with sopRun := none } else g
  | none => g

/-- The gates re-evaluated: lane-stop summary, gate modes, switches, STO summary. Every change of a cause ends in this. -/
def Lane.gates (L : Lane) : Lane :=
  let L1 := L.putB F.GD_LSTOP_HSTOP L.anyStop
  let L2 := { L1 with gate := (L1.driveLegs 12 L1.gate).sopYield }
  (L2.setReg R.GD_GMODE L2.gmodeWord).put F.GD_STO_ACT L2.stoAct

/-- A lane stop cause set: every gate off; LANE_STOP recorded unless the cause is STOPIN (R264). -/
def Lane.laneStop (L : Lane) (cause : Fld) : Lane :=
  if L.is cause then L
  else
    let L1 := L.put cause 1
    let L2 := if cause = F.GD_LSTOP_STOPIN then L1 else L1.note Ev.GD_LANE_STOP
    L2.gates

/-- A lane stop cause cleared. -/
def Lane.laneStopEnd (L : Lane) (cause : Fld) : Lane := if L.is cause then (L.put cause 0).gates else L

/-- A bridge latched with its first cause: 1 SC_MULTI, 2 LB, 3 SOP_FAIL, 4 ODIAG (R271). -/
def Lane.latch (L : Lane) (b cause : Nat) : Lane :=
  if L.fbit F.PROT_LATCH_LATCH b then L
  else
    let L1 := (L.putBit F.PROT_LATCH_LATCH b true).put (F.PROT_LATCH_CAUSE_0.nth 4 b) cause
    let L2 := { L1 with gate := { L1.gate with odPass := BitVec.ofNat 4 (putBits L1.gate.odPass.toNat b 1 0) } }
    L2.gates

/-- A bridge's latch released. -/
def Lane.unlatch (L : Lane) (b : Nat) : Lane :=
  ((L.putBit F.PROT_LATCH_LATCH b false).put (F.PROT_LATCH_CAUSE_0.nth 4 b) 0).gates

end Sys2Proof.Machine
end

