-- ==== Sys2Proof/Machine/LoopOps.lean ====
section
/-!
DEFINITION. Machine/LoopOps.lean: the parts of a loop engine that other blocks reach: its memories (R180), its ports (R195), the
states and actions of its programs (R205, Table 5.9), and what pruning or isolating the engine does.
-/

namespace Sys2Proof.Machine

/-- The hidden state of engine `n`. -/
def Lane.eng (L : Lane) (n : Nat) : LoopEng := L.loops.getD n {}

/-- The hidden state of engine `n` changed by a function. -/
def Lane.onEng (L : Lane) (n : Nat) (f : LoopEng → LoopEng) : Lane := { L with loops := L.loops.set n (f (L.eng n)) }

/-- Address of a word of program memory (R180). -/
def pmemA (n pc : Nat) : Nat := 0x30000000 + 0x10000 * n + 4 * pc

/-- Address of a word of data memory (R180): the 16-bit word stands in the two lower bytes of its 32-bit address. -/
def dmemA (n a : Nat) : Nat := 0x30008000 + 0x10000 * n + 4 * a

/-- A data word, signed Q1.15. -/
def Lane.dm (L : Lane) (n a : Nat) : Int :=
  toSigned 16 ((L.byte (dmemA n a)).toNat + 256 * (L.byte (dmemA n a + 1)).toNat)

/-- A data word written. -/
def Lane.setDm (L : Lane) (n a : Nat) (v : Int) : Lane :=
  let w := ofSigned 16 v
  (L.setByte (dmemA n a) (BitVec.ofNat 8 w)).setByte (dmemA n a + 1) (BitVec.ofNat 8 (w / 256))

/-- STATE of a program: 0 OFF, 1 RUN, 2 HOLD, 3 RAMPZ, 4 HANDOVER. -/
def Lane.prgState (L : Lane) (n m : Nat) : Nat := L.get F.LOOP_PRG_STAT_STATE n m

/-- STATE set; a change sets the program's flag in ESTAT [23:16]. -/
def Lane.setPrgState (L : Lane) (n m st : Nat) : Lane :=
  if L.prgState n m = st then L else (L.put F.LOOP_PRG_STAT_STATE st n m).estat .loop n (2 ^ (16 + m))

/-- The ports a program owns, lowest first (R195). -/
def Lane.ownedPorts (L : Lane) (n m : Nat) : List Nat :=
  (List.range 8).filter (fun p => L.get F.LOOP_OUT_OWNER n p == m)

/-- A port's shadow. -/
def Lane.shadow (L : Lane) (n p : Nat) : Int := L.getS F.LOOP_OUT_VALUE n p

/-- A port's shadow set. -/
def Lane.setShadow (L : Lane) (n p : Nat) (v : Int) : Lane := L.putS F.LOOP_OUT_VALUE v n p

/-- The shadow routed to TQREF (`dest` 1) or FXREF (2) of a bridge by a port of an enabled program; 0 where none is (R195). -/
def Lane.portRef (L : Lane) (dest b : Nat) : Half :=
  let hit := [0, 1, 2, 3].flatMap (fun n => ((List.range 8).filter (fun p =>
    L.get F.LOOP_OUT_DEST n p == dest && L.get F.LOOP_OUT_BRIDGE n p == b && L.prgState n (L.get F.LOOP_OUT_OWNER n p) != 0)).map
      (fun p => (n, p)))
  match hit with
  | (n, p) :: _ => BitVec.ofInt 16 (L.shadow n p)
  | [] => 0

/-- A program's ACT names an actuator of kind STEER (R206). -/
def Lane.prgSteer (L : Lane) (n m : Nat) : Bool :=
  let a := L.get F.LOOP_PRG_CTL_ACT n m
  decide (1 ≤ a) && decide (a ≤ 4) && bits (L.reg R.CMDQ_ACTKIND) (4 * (a - 1)) 4 == 1

/-- ACTION as it acts: HANDOVER for a steering program, 3 behaves as 2 (R206). -/
def Lane.prgAction (L : Lane) (n m : Nat) : Nat :=
  if L.prgSteer n m then 2 else min 2 (L.get F.LOOP_PRG_CTL_ACTION n m)

/-- Lanes in the membership. -/
def Lane.memberCount (L : Lane) : Nat :=
  let m := L.members
  b2n (bit m 0) + b2n (bit m 1) + b2n (bit m 2)

/-- SHARE of the lane's next cell: the membership less the lanes that leave, with those that join (R96, R196). -/
def Lane.shareNext (L : Lane) : Nat :=
  let stays (k : Nat) := (bit L.members k && !bit L.ozl.leavePend.toNat k) || bit L.ozl.joinPend.toNat k
  b2n (stays 0) + b2n (stays 1) + b2n (stays 2)

/-- A raw value scaled: arithmetic shift, then saturation to Q1.15 (R198). -/
def scaleSrc (raw : Int) (shift : Nat) : Int := satS 16 (raw / 2 ^ shift)

/-- SHIFT of the selected entry of a program's list, in whose units FB and SPT stand (R198). -/
def Lane.shiftNow (L : Lane) (n m : Nat) : Nat :=
  L.get (([F.LOOP_PRG_SCL_SHIFT_0, F.LOOP_PRG_SCL_SHIFT_1, F.LOOP_PRG_SCL_SHIFT_2]).getD (L.get F.LOOP_PRG_SRC_ACTIVE n m)
    F.LOOP_PRG_SCL_SHIFT_0) n m

/-- A set-point in the unit of the feedback written to PRG_m_SP of every enabled program of an actuator (Table 4.6, R204). -/
def Lane.feedLoops (L : Lane) (a : Nat) (raw : Int) : Lane :=
  [0, 1, 2, 3].foldl (fun J n => (List.range 8).foldl (fun K m =>
    if K.is F.LOOP_PRG_CTL_EN n m && K.get F.LOOP_PRG_CTL_ACT n m == a + 1
    then K.putS F.LOOP_PRG_SP_SP (scaleSrc raw (K.shiftNow n m)) n m else K) J) L

/-- A loop engine's data word written by the trio (R182): with RUN set through the write buffer, in order; on a full one its master
waits. -/
def Lane.dmWrite (L : Lane) (n k : Nat) (val : Half) : Lane :=
  if !L.is F.LOOP_ECTL_RUN n && (L.eng n).wbuf.isEmpty then L.setDm n k val.toInt
  else if (L.eng n).wbuf.length < 16 && (L.eng n).stalled.isEmpty then L.onEng n (fun e => { e with wbuf := e.wbuf ++ [(k, val)] })
  else (L.onEng n (fun e => { e with stalled := e.stalled ++ [(k, val)] })).note Ev.LOOP_WBUF_STALL n

/-- The programs that run, remembered as the engine leaves service or loses its code (R210, R402). -/
def Lane.keepRun (L : Lane) (n : Nat) : Lane :=
  L.onEng n (fun e => { e with wasRun := (List.range 8).map (fun m => e.wasRun.getD m false || L.prgState n m == 1) })

/-- What a program that does not run does to one of its ports at an activation (R205). -/
def Lane.portAction (L : Lane) (n m st p : Nat) : Lane :=
  if st = 3 then
    let z : Int := max 1 (L.get F.LOOP_PRG_RAMP_RAMPZ n m)
    let v := L.shadow n p
    L.setShadow n p (if v < 0 then min 0 (v + z) else max 0 (v - z))
  else if st = 4 then
    let b := L.get F.LOOP_OUT_BRIDGE n p
    match L.get F.LOOP_OUT_DEST n p with
    | 1 => L.setShadow n p ((L.eng n).vrefT.getD b 0)
    | 2 => L.setShadow n p ((L.eng n).vrefF.getD b 0)
    | _ => L
  else L

/-- The same for every port of the program. -/
def Lane.portActions (L : Lane) (n m st : Nat) : Lane := (L.ownedPorts n m).foldl (fun K p => K.portAction n m st p) L

/-- The state an ACTION leads to; HANDOVER acts as RAMP_ZERO while the membership holds one lane (R205). -/
def Lane.actionState (L : Lane) (n m : Nat) : Nat :=
  match L.prgAction n m with
  | 0 => 2
  | 1 => 3
  | _ => if L.memberCount ≤ 1 then 3 else 4

/-- A program takes its ACTION at once; NO_SOURCE recorded (R205). -/
def Lane.takeAction (L : Lane) (n m : Nat) : Lane :=
  let st := L.actionState n m
  ((L.setPrgState n m st).note Ev.LOOP_NO_SOURCE n).portActions n m st

/-- The engine pruned or isolated: no activation, every enabled program in HANDOVER, or RAMPZ with a membership of one
(Table 5.9); the write buffer drains. -/
def Lane.stopLoop (L : Lane) (n : Nat) : Lane :=
  let st := if L.memberCount ≤ 1 then 3 else 4
  let L1 := ((L.eng n).wbuf ++ (L.eng n).stalled).foldl (fun K e => K.setDm n e.1 e.2.toInt) (L.keepRun n)
  let L2 := L1.onEng n (fun e => { e with act := none, due := [], hold := false, wbuf := [], stalled := [] })
  (List.range 8).foldl (fun K m => if K.prgState n m = 0 then K else (K.setPrgState n m st).portActions n m st) L2

end Sys2Proof.Machine
end

