-- ==== Sys2Proof/Machine/Elements.lean ====
section
/-!
DEFINITION. Machine/Elements.lean: pruning an element (R380), its return (R381), and the consequence of an event by its class
(R376): what a leaky-bucket promotion does in each block (R378, R289).
-/

namespace Sys2Proof.Machine

/-- CAN_n stopped: nothing on the bus, the bus not taken part in until it integrates again (R380, R417). -/
def Lane.stopCan (L : Lane) (n : Nat) : Lane :=
  { L with can := L.can.set n { L.can.getD n {} with tx := none, intg := false } }

/-- FLX stopped: the schedule stops, it listens, and the next integration is cautious (R429, R440). -/
def Lane.stopFlx (L : Lane) : Lane :=
  if L.is F.FLX_CTL_EN && decide (3 ≤ L.get F.FLX_POC_STATE) then
    let L1 := ((L.put F.FLX_POC_CAUTHOLD 0).put F.FLX_POC_TXINH 0).put F.FLX_POC_PCAUSE 0
    let L2 := { L1 with flx := { L1.flx with
      listenAt := L.now, holdFull := false, fails := 0, inLim := 0, passive := 0, cautNext := true } }
    if L.get F.FLX_POC_STATE = 3 then L2 else (L2.put F.FLX_POC_STATE 3).flag F.FLX_EVT_POCCHG
  else { L with flx := { L.flx with cautNext := true } }

/-- An Ethernet port stopped: its link is held down (R465). -/
def Lane.stopPort (L : Lane) (p : Nat) : Lane :=
  if L.is F.ETH_PORT_STAT_LINK 0 p then (L.put F.ETH_PORT_STAT_LINK 0 0 p).put F.ETH_PORT_STAT_LCHG 1 0 p else L

/-- A pruned SRAM bank shown in MSUP_SRAM; with the reserve free its copy into bank 5 begins (R400). Bank 5 itself is the
reserve: pruned, it is not free. -/
def Lane.stopBank (L : Lane) (k : Nat) : Lane :=
  let L1 := L.putBit F.MSUP_SRAM_PRUNED k true
  if k = 5 then L1.put F.MSUP_SRAM_RESERVE 0
  else if L1.is F.MSUP_SRAM_RESERVE then
    { L1.put F.MSUP_SRAM_RESERVE 0 with test := { L1.test with remap := some (k, L1.now) } }
  else L1

/-- What the block does in the cycle its element is pruned: the element's operations stop (R380). -/
def Lane.stopElem (L : Lane) (e : Elem) : Lane :=
  match e with
  | .loop n => L.stopLoop n
  | .cnv n => L.stopCnv n
  | .drv k => L.stopDrv k
  | .pos c => L.chanDown c
  | .icv => { L with icv := { L.icv with winK := none, due := none, results := false } }
  | .can n => L.stopCan n
  | .flx => L.stopFlx
  | .eth p => L.stopPort p
  | .sram k => L.stopBank k
  | .core _ | .svc => L

/-- What the block does when its element returns to service (R381). -/
def Lane.returnElem (L : Lane) (e : Elem) : Lane :=
  match e with
  | .drv k => L.drvReturn k
  | .pos c => L.chanUp c
  | _ => L

/-- A PERMANENT event of the element in a weeding slice makes the slice fail (R379). -/
def Lane.spoilSlice (L : Lane) (e : Elem) : Lane :=
  if L.isolated = some e then { L with test := { L.test with sliceBad := true } } else L

/-- An element pruned: marked in BIST_PRUNE, its operations stopped, ELEM_PRUNED recorded, source 83 pulsed; NO_RETURN as
well where the element had returned before (R380, R381). An element already pruned stays as it is. -/
def Lane.prune (L : Lane) (e : Elem) : Lane :=
  if L.pruned e then L
  else
    let (w, k) := elemBit e
    let L1 := ((L.setRegBit (pruneReg w) k true).stopElem e).spoilSlice e
    let L2 := (L1.note Ev.BIST_ELEM_PRUNED).pulse 83
    if bit (L2.reg (heldReg w)) k then L2.note Ev.BIST_NO_RETURN else L2

/-- The elements that a passing slice returns: classes 0x01 to 0x07 and 0x09 (R381). -/
def sliceReturns : Elem → Bool
  | .sram _ | .core _ | .svc => false
  | .cnv _ | .loop _ | .drv _ | .pos _ | .icv | .can _ | .flx | .eth _ => true

/-- A pruned element returned by a passing slice: ELEM_RETURNED, and its HELD bit (R381). An element whose HELD bit is set
stays pruned. -/
def Lane.unprune (L : Lane) (e : Elem) : Lane :=
  let (w, k) := elemBit e
  if L.pruned e && !bit (L.reg (heldReg w)) k then
    ((((L.setRegBit (pruneReg w) k false).setRegBit (heldReg w) k true).returnElem e).note Ev.BIST_ELEM_RETURNED).pulse 83
  else L

/-- A TRANSIENT event of an element: recorded and put into its bucket; a promotion latches the bridge in GD and PROT (R289)
and prunes the element elsewhere (R376, R378). -/
def Lane.transient (L : Lane) (e : Event) (n : Nat := 0) (sub : Nat := 0) : Lane :=
  let r := L.transientRaw e n sub
  if r.2 then
    match e.blk with
    | .gd | .prot => r.1.latch sub 2
    | .pos => (r.1.note (chanFaultEv sub)).prune (.pos sub)
    | b =>
      match elemOf b n sub with
      | some el => r.1.prune el
      | none => r.1
  else r.1

/-- A PERMANENT event that prunes the element it concerns (R376, R379): the element is pruned once. -/
def Lane.permanent (L : Lane) (e : Event) (el : Elem) (n : Nat := 0) : Lane := (L.note e n).prune el

end Sys2Proof.Machine
end

