-- ==== Sys2Proof/Machine/CmdOps.lean ====
section
/-!
DEFINITION. Machine/CmdOps.lean: the operations on a lane's command queue that every chapter shares: composing and posting a
reply (R149, R156, R157), ending a command, ending every command of a lane (R166).
-/

namespace Sys2Proof.Machine

/-- Status codes of Table 4.8. -/
def St.DONE : Nat := 0x0000
def St.ACCEPTED : Nat := 0x0001
def St.DEFERRED : Nat := 0x0002
def St.PARTIAL : Nat := 0x0003
def St.BAD_OPCODE : Nat := 0x0100
def St.BAD_PARAM : Nat := 0x0101
def St.BAD_CRC : Nat := 0x0102
def St.TAG_BUSY : Nat := 0x0103
def St.QUEUE_FULL : Nat := 0x0104
def St.LOCKED : Nat := 0x0105
def St.NOT_IN_STATE : Nat := 0x0106
def St.ABORTED : Nat := 0x0200
def St.SUPERSEDED : Nat := 0x0201
def St.TIMEOUT : Nat := 0x0202
def St.VOTE_FAIL : Nat := 0x0300
def St.SAFETY_LIMIT : Nat := 0x0301
def St.RESOURCE_PRUNED : Nat := 0x0302

/-- The command queue changed by a function. -/
def Lane.onCmdq (L : Lane) (f : CmdqSt → CmdqSt) : Lane := { L with cmdq := f L.cmdq }

/-- Module time in us, low 32 bits (Table 4.1, Table 4.2). -/
def Lane.mtUs (L : Lane) : Nat := L.mtN / 200 % 2 ^ 32

/-- Pair time in ticks: module time plus TWP_PAIROFS.OFS, which is 0 outside a pair (R445, R459). -/
def Lane.pairTime (L : Lane) : Nat := (((L.mtN : Int) + L.getS F.TWP_PAIROFS_OFS) % (2 : Int) ^ 64).toNat

/-- Pair time in us, low 32 bits (R449): what a STANDBY module uses for module time in R154 and R158 (R459). -/
def Lane.pairUs (L : Lane) : Nat := L.pairTime / 200 % 2 ^ 32

/-- The bytes of a reply (Table 4.2, R149, R150). -/
def replyBytes (c : TCmd) (status : Nat) (res : List Byte) (t : Nat) : List Byte :=
  let flags := b2n c.rreq + 4 * b2n c.net + 8 + 0x10
  let h := bytesLE 1 c.op ++ bytesLE 1 flags ++ bytesLE 2 c.tag.toNat ++ bytesLE 2 status ++ bytesLE 2 res.length ++ bytesLE 4 t
  h ++ bytesLE 4 (crc32c (h ++ res)).toNat ++ res

/-- The completion ring is full: TAIL + 1 equals HEAD modulo 256. -/
def Lane.cplFull (L : Lane) : Bool := (L.get F.CMDQ_CPL_TAIL_TAIL + 1) % 256 == L.get F.CMDQ_CPL_HEAD_HEAD

/-- Address of a completion slot (Table 4.4). -/
def cplSlot (i : Nat) : Nat := 0x4004C000 + 64 * i

/-- Bytes written into the slot at TAIL, and TAIL advanced (R156). -/
def Lane.cplPut (L : Lane) (bs : List Byte) : Lane :=
  (L.setMemBytes (cplSlot (L.get F.CMDQ_CPL_TAIL_TAIL)) bs).incMod F.CMDQ_CPL_TAIL_TAIL

/-- CMDQ_OUTST brought up to date. -/
def Lane.outst (L : Lane) : Lane :=
  (L.put F.CMDQ_OUTST_ALL L.cmdq.queue.length).put F.CMDQ_OUTST_NET (L.cmdq.queue.filter (fun c => c.net)).length

/-- The command of a tag, local or network. -/
def Lane.cmd (L : Lane) (tag : Half) (net : Bool) : Option TCmd := L.cmdq.queue.find? (fun c => c.tag == tag && c.net == net)

/-- A command's entry replaced. -/
def Lane.setCmd (L : Lane) (c : TCmd) : Lane :=
  L.onCmdq (fun q => { q with queue := q.queue.map (fun d => if d.tag == c.tag && d.net == c.net then c else d) })

/-- A command's entry taken off the queue: its tag is free again (R155). -/
def Lane.dropCmd (L : Lane) (c : TCmd) : Lane :=
  (L.onCmdq (fun q => { q with queue := q.queue.filter (fun d => !(d.tag == c.tag && d.net == c.net)) })).outst

/-- Whether a reply is posted at all: interim replies and DONE only with RREQ (R156). -/
def replyPosted (c : TCmd) (status : Nat) : Bool := c.rreq || !(status == St.DONE || status == St.ACCEPTED || status == St.DEFERRED)

/-- A reply posted. A full ring makes a local reply wait and drops the ring copy of a network reply, which is handed to the
service pair either way while the lane is a member (R156, R157, R167). `final` frees the tag. -/
def Lane.postReply (L : Lane) (c : TCmd) (status : Nat) (res : List Byte) (final : Bool) : Lane :=
  let bs := replyBytes c status res L.mtUs
  if !replyPosted c status then (if final then L.dropCmd c else L)
  else if c.net then
    let L1 := if L.isMember L.strap then L.onCmdq (fun q => { q with netOut := q.netOut ++ [bs] }) else L
    let L2 := if L.cplFull then (L1.incSat F.CMDQ_CNT_CPL_DROP).note Ev.CMDQ_CPL_DROP else L1.cplPut bs
    if final then L2.dropCmd c else L2
  else if L.cplFull || !L.cmdq.waiting.isEmpty then
    let L1 := L.onCmdq (fun q => { q with waiting := q.waiting ++ [(c, status, res, final)] })
    if final then L1.setCmd { c with phase := .reply status res } else L1
  else
    let L1 := L.cplPut bs
    if final then L1.dropCmd c else L1

/-- A command ended with its final reply. -/
def Lane.finish (L : Lane) (c : TCmd) (status : Nat) (res : List Byte := []) : Lane := L.postReply c status res true

/-- A command accepted to run beyond its admission boundary (ACCEPTED). -/
def Lane.accept (L : Lane) (c : TCmd) : Lane :=
  (L.setCmd { c with phase := .running, startAt := L.now }).postReply c St.ACCEPTED [] false

/-- A command deferred (R169). -/
def Lane.defer (L : Lane) (c : TCmd) : Lane :=
  (L.setCmd { c with phase := .deferred, startAt := L.now }).postReply c St.DEFERRED [] false

/-- A command whose final reply already waits is finished and ends no second time. -/
def TCmd.live (c : TCmd) : Bool :=
  match c.phase with
  | .reply _ _ => false
  | _ => true

/-- Every live command that satisfies `p` ends with `status`. -/
def Lane.endAll (L : Lane) (p : TCmd → Bool) (status : Nat) : Lane :=
  (L.cmdq.queue.filter (fun c => c.live && p c)).foldl (fun K c => K.finish c status) L

/-- The commands that continue when their lane leaves the membership: FALLOW_REQUEST 0x31 and GRAFT 0x71 for that lane (R166). -/
def keptOnLeave (l : LaneId) (c : TCmd) : Bool := (c.op == 0x31 || c.op == 0x71) && bit c.lanes l.idx

/-- Every command outstanding in a lane that leaves the membership ends ABORTED there (R166). -/
def Lane.abortOnLeave (L : Lane) : Lane := L.endAll (fun c => !keptOnLeave L.strap c) St.ABORTED

/-! ### Outcomes of lane-scope commands (R168) -/

/-- What a named lane brings to the final status. -/
inductive LaneEnd where
  | waits
  | ended (status : Nat)
  deriving DecidableEq, Repr

/-- The entry of the same command in another lane. -/
def Lane.sameCmd (L : Lane) (c : TCmd) : Option TCmd :=
  L.cmdq.queue.find? (fun d => d.tag == c.tag && d.net == c.net && d.op == c.op && d.issue == c.issue)

/-- What lane `x` brings: it waits while it holds the command and has no outcome; a lane that holds none has not completed it,
RESOURCE_PRUNED where it is PRUNED, NOT_IN_STATE elsewhere (log 28). -/
def State.laneEnd (s : State) (x : LaneId) (c : TCmd) : LaneEnd :=
  let K := s.lane x
  match K.sameCmd c with
  | some d =>
    match d.phase with
    | .outcome st _ | .reply st _ => .ended st
    | _ => if K.up then .waits else .ended St.NOT_IN_STATE
  | none => .ended (if K.own == 4 then St.RESOURCE_PRUNED else St.NOT_IN_STATE)

/-- A lane with an outcome posts the final status; a PARTIAL reply carries the mask of completed lanes in its last byte. -/
def Lane.postOutcome (L : Lane) (c : TCmd) (fin done : Nat) : Lane :=
  match L.sameCmd c with
  | some d =>
    match d.phase with
    | .outcome _ res => L.finish d fin (if fin = St.PARTIAL then res ++ [BitVec.ofNat 8 done] else res)
    | _ => L
  | none => L

/-- Once every named lane has its outcome, each posts the same final status (R168). -/
def State.settle (s : State) (c : TCmd) : State :=
  let named := LaneId.all.filter (fun x => bit c.lanes x.idx)
  let ends := named.map (fun x => (x, s.laneEnd x c))
  if ends.any (fun e => e.2 == .waits) then s
  else
    let done := (ends.filter (fun e => e.2 == .ended St.DONE)).foldl (fun m e => m + 2 ^ e.1.idx) 0
    let low := match ends with
      | (_, .ended st) :: _ => st
      | _ => St.NOT_IN_STATE
    let fin := if done = c.lanes then St.DONE else if done ≠ 0 then St.PARTIAL else low
    named.foldl (fun t x => t.upd x (fun K => K.postOutcome c fin done)) s

/-- A lane-scope command has been carried out, or could not be, in lane `l`. -/
def State.conclude (s : State) (l : LaneId) (c : TCmd) (status : Nat) (res : List Byte := []) : State :=
  (s.upd l (fun K => K.setCmd { c with phase := .outcome status res })).settle c

/-- The outcomes of a lane looked at again, as when another named lane has left the membership. -/
def State.settleAll (s : State) (l : LaneId) : State :=
  ((s.lane l).cmdq.queue.filter (fun c => match c.phase with
    | .outcome _ _ => true
    | _ => false)).foldl (fun t c => t.settle c) s

end Sys2Proof.Machine
end

