-- ==== Sys2Proof/Machine/LaneState.lean ====
section
/-!
DEFINITION. Machine/LaneState.lean: the lane states and their transitions (Table 2.8, Table 2.9), membership and level (R106),
and SCORE (R89).
-/

namespace Sys2Proof.Machine

/-- OZL's hidden state changed by a function. -/
def Lane.onOzl (L : Lane) (f : OzlSt → OzlSt) : Lane := { L with ozl := f L.ozl }

/-- The Saddle's hidden state changed by a function. -/
def Lane.onSdl (L : Lane) (f : SdlSt → SdlSt) : Lane := { L with sdl := f L.sdl }

/-- TRIO's hidden state changed by a function. -/
def Lane.onTrio (L : Lane) (f : TrioSt → TrioSt) : Lane := { L with trio := f L.trio }

/-- The module acts as the primary of its pair (R112). -/
def Lane.actsPrimary (L : Lane) (hb : ExtBeat) : Bool :=
  if hb.primary == L.is F.OZL_PAIR_PRIMARY then decide (L.reg R.SYS_SERIAL < hb.serial.toNat) else L.is F.OZL_PAIR_PRIMARY

/-- The partner's heartbeat while the external port carries it. -/
def Lane.partnerBeat (L : Lane) : Option ExtBeat := if L.is F.OZL_PAIR_PUP then L.ozl.partner else none

/-- The role the lane's module takes (R111, R114; 1 while it is used alone). While the partner is ACTIVE, a STANDBY module stays so, and
of two ACTIVE ones that with the higher level remains, at equal levels the acting primary. While no partner is ACTIVE, an ACTIVE
module stays so, and a STANDBY one takes ACTIVE at L2 or L3 unless it is the other of a primary that is there too. -/
def Lane.pairRole (L : Lane) : Bool :=
  let lv := L.get F.OZL_LSTATE_LEVEL
  let role := L.is F.OZL_PAIR_ROLE
  if !L.is F.OZL_PAIR_PAIRED then true
  else match L.partnerBeat with
    | some hb =>
      let first := L.actsPrimary hb
      if hb.active then role && (decide (hb.level.toNat < lv) || (decide (hb.level.toNat = lv) && first))
      else role || (decide (2 ≤ lv) && (first || decide (hb.level.toNat < 2)))
    | none => role || decide (2 ≤ lv)

/-- The grandmaster of a gPTP domain, 0 domain MT and 1 domain V: a change is recorded and pulses source 102 (R445). -/
def Lane.gmSet (L : Lane) (k : Nat) (gm : Option (BitVec 64)) : Lane :=
  if gm = L.eth.gm.getD k none then L
  else (({ L with eth := { L.eth with gm := L.eth.gm.set k gm } }).note Ev.ETH_GM_CHANGE).pulse 102

/-- A lane that may not be grandmaster of domain MT gives it up (R445). -/
def Lane.gmDrop (L : Lane) : Lane :=
  if L.is F.ETH_PTP_GMMT then (L.put F.ETH_PTP_GMMT 0).gmSet 0 none else L

/-- OZL_PAIR.ROLE brought up to date (R111); a STANDBY module is never grandmaster (R445). -/
def Lane.pairStep (L : Lane) : Lane :=
  let role := L.pairRole
  let L1 := L.putB F.OZL_PAIR_ROLE role
  if role then L1 else L1.gmDrop

/-- What a write of OZL_PAIR leaves (R112): with PAIRED = 0 the external port is down, nothing of a partner stands, OFS is 0. -/
def Lane.pairWritten (L : Lane) : Lane :=
  if L.is F.OZL_PAIR_PAIRED then L.pairStep
  else ((((L.pairStep).put F.OZL_PAIR_PUP 0).put F.OZL_PAIR_CONFLICT 0).put F.OZL_LINK_UP 0 0 2).setReg R.TWP_PAIROFS 0

/-- The membership set, with the module level it gives (R106) and the role that follows it (R111). -/
def Lane.setMembers (L : Lane) (m : Nat) : Lane :=
  ((L.put F.OZL_LSTATE_MEMBER m).put F.OZL_LSTATE_LEVEL (pop3 m)).pairStep

/-- Own record SCORE: failed resolutions and TRANSIENT events of the last 10 s, each plus one; 65,535 on a single core (R89, R130).
DESIGN CHOICE: "in the last 10 s" is read with the events only, so a failed resolution counts until the next lane reset (log 152). -/
def Lane.score (L : Lane) : Nat :=
  if L.get F.TRIO_MODE_MODE == 3 then 65535
  else satU 65535 (L.ozl.failedRes + (L.ozl.scoreAt.filter (fun t => decide (L.now ≤ t + sec 10))).length)

/-- NOVOTE toward and in the Hedge: the Saddle's field shows it (R23, R80, R129). -/
def Lane.showNovote (L : Lane) : Lane :=
  L.putB F.SDL_VSTAT_NOVOTE
    (L.sdl.held || L.is F.TRIO_MODE_NOVOTE || L.own == 3 || L.own == 4 || L.is F.GD_LSTOP_REMOVED)

/-- The lane is out of the membership: its commands end (R166). -/
def Lane.outOfMembers (L : Lane) : Lane :=
  let m := L.members
  if bit m L.strap.idx then (L.setMembers (putBits m L.strap.idx 1 0)).abortOnLeave else L

/-- The lane is removed from the vote: the commands that run end VOTE_FAIL (Table 4.8), before the departure ends the others (R166). -/
def Lane.outOfVote (L : Lane) : Lane :=
  L.endAll (fun c => c.phase == .running && !keptOnLeave L.strap c) St.VOTE_FAIL

/-- The lane enters EXCLUDED: gates off by lane stop REMOVED (log 12), out of the vote, the next graft attempt no sooner than
10 s after the last one, or at once where `atOnce` (Table 2.9; log 13). -/
def Lane.exclude (L : Lane) (atOnce : Bool := false) : Lane :=
  let due := if atOnce then L.now else if L.ozl.lastAttempt = 0 then L.now + sec 10 else max L.now (L.ozl.lastAttempt + sec 10)
  let L1 := (L.outOfMembers.setStOf L.strap 3).put F.OZL_GRAFT_PHASE 0
  let L2 := L1.onOzl (fun o => { o with graftDue := due, readyAt := none })
  (L2.laneStop F.GD_LSTOP_REMOVED).showNovote

/-- The lane enters PRUNED: gates off (Table 2.9). -/
def Lane.pruneLane (L : Lane) : Lane :=
  let L1 := (L.outOfMembers.setStOf L.strap 4).put F.OZL_GRAFT_PHASE 0
  (L1.laneStop F.GD_LSTOP_REMOVED).showNovote

/-- The lane enters GRAFT, phase 1 (Table 2.11). -/
def Lane.startGraft (L : Lane) : Lane :=
  let L1 := (L.outOfMembers.setStOf L.strap 0).put F.OZL_GRAFT_PHASE 1
  (L1.onOzl (fun o => { o with
    graftAt := L.now, shadowOk := 0, shadowRestarts := 0, refPass := 0, odiagDone := 0, readyAt := none, imageSeen := false })).showNovote

/-- A graft fails in the phase in progress (Table 2.9): ATTEMPTS, FAILPH, GRAFT_FAIL; EXCLUDED, or PRUNED at the third. -/
def Lane.failGraft (L : Lane) : Lane :=
  let ph := L.get F.OZL_GRAFT_PHASE
  let L1 := ((L.incSat F.OZL_GRAFT_ATTEMPTS).put F.OZL_GRAFT_FAILPH ph).note Ev.OZL_GRAFT_FAIL
  let L2 := L1.onOzl (fun o => { o with lastAttempt := L.now })
  if 3 ≤ L2.get F.OZL_GRAFT_ATTEMPTS then L2.pruneLane else L2.exclude

/-- The lane becomes ACTIVE and a member (Table 2.9). -/
def Lane.becomeActive (L : Lane) (members : Nat) : Lane :=
  let L1 := (((L.setStOf L.strap 1).put F.OZL_GRAFT_PHASE 0).setMembers members).onOzl (fun o => { o with shareNow := pop3 members })
  let L2 := ((L1.put F.SDL_LATE_LATE_A 0).put F.SDL_LATE_LATE_B 0).put F.SDL_LATE_LATE_C 0
  -- a graft asked for by a debug halt or a join from FREE3 is complete (R139, Table 3.4)
  let L3 := if L2.trio.graftAfter then L2.put F.TRIO_MODE_NOVOTE 0 else L2
  (L3.onTrio (fun t => { t with graftAfter := false })).showNovote

/-- A lane fault of Table 2.9 in an ACTIVE lane: TIME_FAULT, HLNK_DOWN, removal. A lane in a graft fails its phase. -/
def Lane.laneFault (L : Lane) : Lane :=
  if L.active then L.exclude
  else if L.own == 0 && L.get F.OZL_GRAFT_PHASE != 0 then L.failGraft
  else L

/-- CHK_FAULT at lane level (R121, Table 2.9): in an ACTIVE lane the first in a drive cycle excludes the lane with one graft at once,
the second prunes it; a graft in progress fails its phase. -/
def Lane.chkFault (L : Lane) : Lane :=
  let n := L.ozl.chkFaults + 1
  let L1 := ((L.put F.TRIO_INJ_CHK 1).note Ev.TRIO_CHK_FAULT).onOzl (fun o => { o with chkFaults := n })
  if !L.active then L1.laneFault
  else if 2 ≤ n then L1.pruneLane else (L1.put F.OZL_GRAFT_CHKGRAFT 1).exclude true

end Sys2Proof.Machine
end

