-- ==== Sys2Proof/Machine/PwrOps.lean ====
section
/-!
DEFINITION. Machine/PwrOps.lean: power domains and their votes (R467 to R477), the queue of PREQ exchanges (R486, R487), a wake
(R491, R492, R497), as every block that votes, asks for a voltage or wakes the lane reaches them.
-/

namespace Sys2Proof.Machine

/-- The domain of a logic-die block (Table 15.1); 0 is AON. -/
def domOf : Blk → Nat
  | .pwr | .preq => 0
  | .loop => 3
  | .drv => 4
  | .cnv | .cnvSq => 5
  | .pos => 6
  | .ozl => 7
  | .eth | .twp => 8
  | .flx => 9
  | .can => 10
  | .nvmc => 11
  | _ => 1

/-- The domains on which a domain in ON holds an ON vote (Table 15.1). -/
def impliesOn (d : Nat) : List Nat :=
  if d = 1 ∨ d = 2 then [11, 12]
  else if d = 4 then [1, 5]
  else if d = 8 ∨ d = 9 ∨ d = 10 then [1, 2]
  else if d = 3 ∨ d = 5 ∨ d = 6 ∨ d = 7 ∨ 13 ≤ d then [1]
  else []

/-- The domains in an order in which each comes after those that imply it. -/
def domOrder : List Nat := [3, 4, 6, 7, 8, 9, 10, 13, 14, 15, 16, 17, 18, 19, 20, 5, 2, 1, 11, 12]

/-- The elements of a domain (R475). -/
def domElems (d : Nat) : List Elem :=
  if d = 1 then [.core 0, .core 1, .core 2]
  else if d = 2 then [.svc]
  else if d = 3 then [.loop 0, .loop 1, .loop 2, .loop 3]
  else if d = 4 then [.drv 0, .drv 1, .drv 2, .drv 3]
  else if d = 5 then [.cnv 0, .cnv 1, .cnv 2, .cnv 3, .cnv 4, .cnv 5, .cnv 6, .cnv 7]
  else if d = 6 then [.pos 0, .pos 1, .pos 2, .pos 3, .pos 4, .pos 5, .pos 6, .pos 7, .pos 8, .pos 9]
  else if d = 8 then [.eth 0, .eth 1, .eth 2]
  else if d = 9 then [.flx]
  else if d = 10 then [.can 0, .can 1, .can 2, .can 3]
  else if 13 ≤ d then [.sram (d - 13)]
  else []

/-- The address ranges of a domain's memories (Table 1.10). -/
def domMem (d : Nat) : List (Nat × Nat) :=
  if d = 1 then [(0x40048000, 0x40050000)]
  else if d = 3 then [(0x30000000, 0x30040000)]
  else if d = 8 then [(0x40160000, 0x40180000)]
  else if d = 9 then [(0x40144000, 0x40150000)]
  else if d = 10 then [(0x40104000, 0x40110000), (0x40114000, 0x40120000), (0x40124000, 0x40130000), (0x40134000, 0x40140000)]
  else if d = 12 then [(0x10000000, 0x10040000), (0x10100000, 0x10120000)]
  else if 13 ≤ d then [(0x20000000 + 0x80000 * (d - 13), 0x20080000 + 0x80000 * (d - 13))]
  else []

/-- The power state changed by a function. -/
def Lane.onPwr (L : Lane) (f : PwrSt → PwrSt) : Lane := { L with pwr := f L.pwr }

/-- Registers that satisfy `p` returned to their reset values. -/
def Lane.clearRegs (L : Lane) (p : Nat → Bool) : Lane := { L with regs := L.regs.filter (fun e => !p e.1) }

/-- Registers of AON that lie in a block of another domain: the wake registers of CAN_n, the calendar and alarm (Table 15.1,
R419). -/
def aonReg (a : Nat) : Bool :=
  match blockAt a with
  | some (.can, _, o) => decide (0x100 ≤ o) && decide (o < 0x120)
  | some (.alm, _, o) => o == R.ALM_CAL.off || o == R.ALM_WAKEAT.off || o == R.ALM_STAT.off
  | _ => false

/-- The domain is ON; AON always is (R468). -/
def Lane.domOn (L : Lane) (d : Nat) : Bool := d == 0 || L.get F.PWR_D_STAT_STATE 0 d == 2

/-- The phase of a domain. -/
def Lane.domPhase (L : Lane) (d : Nat) : DomPhase := L.pwr.dom.getD d .stable

/-- The phase of a domain set. -/
def Lane.setDom (L : Lane) (d : Nat) (p : DomPhase) : Lane := L.onPwr (fun w => { w with dom := w.dom.set d p })

/-! ### Votes (R469, R470) -/

/-- The vote of client c on a domain: 0 none, 1 RET, 2 ON. -/
def Lane.voteOf (L : Lane) (d c : Nat) : Nat := bits (L.get F.PWR_D_VOTES_VOTE 0 d) (2 * c - 2) 2

/-- The vote of client c on a domain set. -/
def Lane.putVote (L : Lane) (d c v : Nat) : Lane :=
  L.put F.PWR_D_VOTES_VOTE (putBits (L.get F.PWR_D_VOTES_VOTE 0 d) (2 * c - 2) 2 v) 0 d

/-- Whether some client holds vote `v` on a domain. -/
def Lane.anyVote (L : Lane) (d v : Nat) : Bool := [1, 2, 3, 4, 5, 6, 7, 8, 9, 10].any (fun c => L.voteOf d c == v)

/-- The lowest client that holds ON on a domain, 0 for none. -/
def Lane.lowClient (L : Lane) (d : Nat) : Nat :=
  ([1, 2, 3, 4, 5, 6, 7, 8, 9, 10].find? (fun c => L.voteOf d c == 2)).getD 0

/-- The state the votes ask for (R469). -/
def Lane.votesFor (L : Lane) (d : Nat) : Nat :=
  if L.is F.PWR_D_VOTES_IMPL 0 d || L.anyVote d 2 then 2
  else if L.anyVote d 1 then 1
  else L.get F.PWR_D_CFG_LOW 0 d

/-- An aborted or refused entry counted (R477): `k` 0 refused, 1 aborted. -/
def Lane.countEntry (L : Lane) (d party k : Nat) : Lane :=
  let L1 := if k = 0 then (L.incSat F.PWR_D_CNT_REFUSED 0 d).note Ev.PWR_DOM_REFUSED
    else (L.incSat F.PWR_D_CNT_ABORTED 0 d).note Ev.PWR_DOM_ABORTED
  (L1.put F.PWR_D_CNT_LASTC party 0 d).put F.PWR_D_CNT_LASTK k 0 d

/-- A domain's state set, with the flags of R475: all set in ON, none otherwise. -/
def Lane.domState (L : Lane) (d st : Nat) : Lane :=
  let r := b2n (st == 2)
  ((((L.put F.PWR_D_STAT_STATE st 0 d).put F.PWR_D_STAT_REG_RDY r 0 d).put F.PWR_D_STAT_OSC_RDY r 0 d).put F.PWR_D_STAT_MEM_RDY r 0 d).put
    F.PWR_D_STAT_LOGIC_RDY r 0 d

/-- A domain at rest brought in line with its votes: a drop or a raise begun (R473, R475). -/
def Lane.domStart (L : Lane) (d t : Nat) : Lane :=
  let st := L.get F.PWR_D_STAT_STATE 0 d
  if t < st then (L.put F.PWR_D_STAT_STATE 3 0 d).setDom d (.drop 1 t L.now)
  else if st < t ∧ t = 2 then ((L.domState d 0).put F.PWR_D_STAT_STATE 3 0 d).setDom d (.rise 1 L.now (st == 1))
  else if st < t then L.domState d 1
  else L

/-- A drop reversed before its regulator request: the domain is back in its previous state, ON where its flags still stand (R474). -/
def Lane.dropUndo (L : Lane) (d : Nat) : Lane :=
  (L.domState d (if L.is F.PWR_D_STAT_REG_RDY 0 d then 2 else 1)).setDom d .stable

/-- One domain brought in line with its votes: TARGET, a drop or a raise begun, a drop before its regulator request aborted, a later
one left to complete (R473 to R476). During parked sleep and its entry nothing starts. -/
def Lane.domFollow (L : Lane) (party d : Nat) : Lane :=
  let t := L.votesFor d
  let before := L.get F.PWR_D_STAT_TARGET 0 d
  let L1 := L.put F.PWR_D_STAT_TARGET t 0 d
  match L1.domPhase d with
  | .stable => L1.domStart d t
  | .drop step dst _ =>
    if t ≤ dst then L1
    else if step < 4 then ((L1.dropUndo d).domStart d t).countEntry d party 1
    else if before ≤ dst then L1.countEntry d party 1
    else L1
  | .rise _ _ _ => L1

/-- Every domain brought in line, implied votes first from those that imply them. -/
def Lane.followVotes (L : Lane) (party : Nat) : Lane :=
  let one (K : Lane) (d : Nat) : Lane :=
    let impl := domOrder.any (fun e => (impliesOn e).contains d && K.get F.PWR_D_STAT_TARGET 0 e == 2)
    (K.putB F.PWR_D_VOTES_IMPL impl 0 d).domFollow party d
  if L.pwr.sleep == .awake || L.pwr.sleep == .held then domOrder.foldl one L else L

/-- A client's vote on a domain, and what follows. Votes on AON have no effect (R468). -/
def Lane.vote (L : Lane) (c d v : Nat) : Lane := if d = 0 ∨ 20 < d then L else (L.putVote d c v).followVotes c

/-- A client's votes on every domain withdrawn. -/
def Lane.unvoteAll (L : Lane) (c : Nat) : Lane := (domOrder.foldl (fun K d => K.putVote d c 0) L).followVotes c

/-- The domains the kernel holds ON for a membership (R471). -/
def kernelDoms : List Nat := [1, 2, 3, 4, 5, 6, 7, 11, 12]

/-- The kernel's ON votes of R471, which it takes at the start of forming or graft; it withdraws them with the sleep request (R489), so
DRV stays held while a bridge is not DISABLED. -/
def Lane.kernelVotes (L : Lane) : Lane := (kernelDoms.foldl (fun K d => K.putVote d 1 2) L).followVotes 1

/-- R471: a RET vote on a domain other than SRAM_0 to SRAM_4 and SRAM_7 is ignored in the membership. -/
def Lane.retIgnored (L : Lane) (d : Nat) : Bool :=
  L.isMember L.strap && !((decide (13 ≤ d) && decide (d ≤ 17)) || d == 20)

/-! ### PREQ (R482 to R488) -/

/-- A request put into its place by rank; a SET_RAIL outside the limits of R486 is refused. -/
def Lane.preqAsk (L : Lane) (r : PreqReq) : Lane :=
  let bad := r.cmd == 1 && ((r.rail == 0 && (decide (r.value < 720) || decide (880 < r.value))) || (r.rail == 1 && r.value != 1800) ||
    (r.rail == 2 && r.value != 3300))
  if bad then L.note Ev.PREQ_RAIL_REFUSED
  else L.onPwr (fun w => { w with
    queue := w.queue.filter (fun x => decide (x.rank ≤ r.rank)) ++ [r] ++ w.queue.filter (fun x => !decide (x.rank ≤ r.rank)) })

/-- The first three bytes of a request frame (Table 15.5). -/
def preqHead (r : PreqReq) (seq : Nat) : Nat := r.cmd * 0x100000 + r.rail * 0x10000 + (r.value % 0x1000) * 0x10 + seq

/-- A frame of three bytes with its CRC (R484). -/
def preqFrame (head : Nat) : Word := BitVec.ofNat 32 (head * 0x100 + (crc8 (bytesBE 3 head)).toNat)

/-- A frame carries its own CRC. -/
def preqCrcOk (e : Word) : Bool := preqFrame (e.toNat / 0x100) == e

/-! ### Wake (R491, R492, R497) -/

/-- The kernel of a member lane takes its votes again where an entry into parked sleep did not come about (R471). -/
def Lane.votesBack (L : Lane) : Lane := if L.isMember L.strap then L.kernelVotes else L.followVotes 1

/-- The entry into parked sleep aborted: its steps reversed, the abort counted on every domain (R491, R492). -/
def Lane.sleepAbort (L : Lane) (party : Nat) : Lane :=
  let one (K : Lane) (d : Nat) : Lane :=
    let K1 := match K.domPhase d with
      | .drop _ _ _ => K.dropUndo d
      | _ => K
    K1.countEntry d party 1
  let L1 := domOrder.foldl one L
  let L2 := ((L1.put F.PWR_SLEEP_BUSY 0).put F.PWR_SLEEP_RESULT 3).put F.PWR_SLEEP_CODE party
  ((L2.onPwr (fun w => { w with
    sleep := .awake, wakeDue := none, queue := w.queue.filter (fun r => r.rank != 1) })).note Ev.PWR_SLEEP_ABORTED).votesBack

/-- The SLEEP frame has begun: an abort comes too late (R492). -/
def Lane.sleepSent (L : Lane) : Bool :=
  match L.pwr.run with
  | some r => r.req.cmd == 5 && r.req.rank == 1
  | none => false

/-- An ON vote of client `c` that arrives after the check cycle and before the SLEEP frame aborts the entry (R492). -/
def Lane.entryVote (L : Lane) (c : Nat) : Lane :=
  match L.pwr.sleep with
  | .sign => L.sleepAbort c
  | .frames => if L.sleepSent then L else L.sleepAbort c
  | _ => L

/-- The rails are in range at a wake: the domains the kernel needs begin to rise (Table 15.9). -/
def Lane.wakeRise (L : Lane) : Lane :=
  let L1 := kernelDoms.foldl (fun K d => K.putVote d 1 2) L
  let one (K : Lane) (d : Nat) : Lane :=
    if K.get F.PWR_D_STAT_STATE 0 d == 2 then K
    else
      let ret := K.get F.PWR_D_STAT_STATE 0 d == 1
      (((K.domState d 0).put F.PWR_D_STAT_STATE 3 0 d).put F.PWR_D_STAT_TARGET 2 0 d).setDom d (.rise 1 K.now ret)
  (domOrder.filter (fun d => kernelDoms.contains d || L.get F.PWR_D_STAT_STATE 0 d == 1)).foldl one L1

/-- The wake latched and the start of Table 15.9 begun from parked sleep (R497). After PMIC_FAULT no ENABLE is sent and the rails were left
on (R488). -/
def Lane.wakeNow (L : Lane) (c src : Nat) : Lane :=
  let L1 := (L.setReg R.TWP_PAIROFS 0).setReg R.PWR_WAKE (c + 0x10 * src + 0x80)   -- R460
  let L2 := (L1.note Ev.PWR_WAKE).onPwr (fun w => { w with sleep := .waking, wakeDue := none, woke := true })
  if L2.is F.PREQ_STAT_FAULT then L2.wakeRise else L2.preqAsk { rank := 1, cmd := 2, rail := 0xF, value := 0 }

/-- A wake of cause c (Table 15.8), `src` the CAN controller: latched in parked sleep, kept as a further cause until TRIO is up,
waiting for the check cycle of a request still held, aborting an entry in progress before the SLEEP frame, waiting for its end during it. -/
def Lane.wake (L : Lane) (c : Nat) (src : Nat := 0) : Lane :=
  match L.pwr.sleep with
  | .parked => L.wakeNow c src
  | .waking => L.putBit F.PWR_WAKE_PEND (c - 1) true
  | .awake => L.onPwr (fun w => { w with keyOff := false })
  | .held => if L.pwr.wakeDue.isNone then L.onPwr (fun w => { w with wakeDue := some (c, src) }) else L
  | _ => if L.sleepSent then (if L.pwr.wakeDue.isNone then L.onPwr (fun w => { w with wakeDue := some (c, src) }) else L)
      else L.sleepAbort (0x80 + c)

/-! ### A domain without power (R473, R475) -/

/-- What a domain's blocks hold beside registers and memory, at its state after reset. -/
def Lane.domHidden (L : Lane) (d : Nat) : Lane :=
  if d = 1 then { L with
    trio := {}, cmdq := {}, saf := {}, hk := {}, test := {}, claimed := [], ip := [], claimData := [0, 0, 0], isolated := none }
  else if d = 3 then { L with loops := [{}, {}, {}, {}] }
  else if d = 4 then { L with drive := {} }
  else if d = 5 then { L with cnvs := List.replicate 8 {} }
  else if d = 6 then
    let p := L.pos
    { L with pos := { ({} : PosSt) with
      henc := p.henc, hcnt := p.hcnt, hsent := p.hsent, hs0 := p.hs0, hprev := p.hprev, miss := p.miss, hit := p.hit } }
  else if d = 7 then { L with ozl := {} }
  else if d = 8 then { L with eth := {}, twp := {} }
  else if d = 9 then { L with flx := { ({} : FlxSt) with woke := L.flx.woke } }
  else if d = 10 then { L with can := L.can.map (fun c => { ({} : CanSt) with woke := c.woke }) }
  else L

/-- Registers that neither a lane reset nor a loss of power changes: those loaded from fuses (Table 1.9, R524), SYS_RSTCAUSE
(Table 1.8), and the prune and held bits (R381). -/
def lastingReg (a : Nat) : Bool :=
  match blockAt a with
  | some (.sys, _, o) => (decide (0x40 ≤ o) && decide (o < 0x70)) || o == R.SYS_RSTCAUSE.off || o == R.SYS_LC.off
  | some (.bist, _, o) => decide (R.BIST_PRUNE_0.off ≤ o) && decide (o ≤ R.BIST_HELD_1.off)
  | _ => false

/-- A register address of a logic-die block of domain d, the AON parts and the lasting registers left out. -/
def inDom (d a : Nat) : Bool :=
  match blockAt a with
  | some (b, _, _) => !b.isHedge && domOf b == d && !aonReg a && !lastingReg a
  | none => false

/-- Event times and bucket tokens of the blocks that satisfy `p` forgotten with their registers. -/
def Lane.clearHistory (L : Lane) (p : Nat → Bool) (q : Blk → Bool) : Lane :=
  { L with
    evqTime := L.evqTime.filter (fun e => !p e.1)
    evqRead := L.evqRead.filter (fun a => !p a)
    tokens := L.tokens.filter (fun t => !q t.blk) }

/-- OFS, frozen by a switch-over, kept over a reset of TWP's registers (R460). -/
def Lane.keepOfs (after before : Lane) : Lane :=
  if before.is F.TWP_PAIROFS_FROZEN then after.setReg R.TWP_PAIROFS ((before.reg R.TWP_PAIROFS) &&& 0x5FFFFFFF) else after

/-- A domain that lost its power: registers at their reset values, memories wiped, operations forgotten. -/
def Lane.domClear (L : Lane) (d : Nat) : Lane :=
  let L1 := ((L.clearRegs (inDom d)).clearHistory (inDom d) (fun b => !b.isHedge && domOf b == d)).domHidden d
  let L2 := (domMem d).foldl (fun K r => K.wipe r.1 r.2) L1
  if d = 8 then L2.keepOfs L else L2

/-- ALM's hidden state changed by a function. -/
def Lane.onAlm (L : Lane) (f : AlmSt → AlmSt) : Lane := { L with alm := f L.alm }

/-! ### Rainflow counting (R519); temperatures in 1/16 degree -/

/-- The bin of a range. -/
def rfBin (range : Nat) : Nat := min 15 ((range - 32) / 80)

/-- A range counted `n` half-cycles. -/
def Lane.rfAdd (L : Lane) (range n : Nat) : Lane := L.almInc (0x060 + 4 * rfBin range) 4 n

/-- Cycles closed by the newest four turning points taken out, oldest last. `fuel` bounds the closings. -/
def Lane.rfClose (L : Lane) : Nat → Lane
  | 0 => L
  | fuel + 1 =>
    match L.alm.turns with
    | x4 :: x3 :: x2 :: x1 :: rest =>
      let r := (x3 - x2).natAbs
      if r ≤ (x2 - x1).natAbs ∧ r ≤ (x4 - x3).natAbs then
        ((L.onAlm (fun a => { a with turns := x4 :: x1 :: rest })).rfAdd r 2).rfClose fuel
      else L
    | _ => L

/-- A temperature taken into the count: a reversal of less than 2 K is ignored. -/
def Lane.rfTake (L : Lane) (t : Int) : Lane :=
  let turns := match L.alm.turns with
    | [] => [t]
    | [p] => if 32 ≤ (t - p).natAbs then [t, p] else [p]
    | q :: p :: r =>
      if (p < q ∧ q ≤ t) ∨ (q < p ∧ t ≤ q) then t :: p :: r
      else if 32 ≤ (t - q).natAbs then t :: q :: p :: r
      else q :: p :: r
  (L.onAlm (fun a => { a with turns := turns })).rfClose turns.length

/-- The ranges still open added as half-cycles and cleared, at entry into parked sleep. -/
def Lane.rfFlush (L : Lane) : Lane :=
  let go := (L.alm.turns.zip L.alm.turns.tail).foldl (fun (K : Lane) p => K.rfAdd (p.1 - p.2).natAbs 1) L
  go.onAlm (fun a => { a with turns := [] })

/-! ### Parked sleep (R490, R493) -/

/-- The Hedge in its wake monitor: lane stop LEGTO without LEG_TIMEOUT, gate supplies and charge pump off, ALIVE low (R493). -/
def Lane.hedgeSleep (L : Lane) : Lane :=
  let L1 := { L with gate := { L.gate with cpRun := false, aliveLevel := false, precharge := [false, false, false, false] } }
  ({ ((L1.put F.GD_ALIVE_RUN 0).put F.GD_GMODE_GRDY 0).put F.GD_LSTOP_LEGTO 1 with sdl := { L1.sdl with held := true } }).gates

/-- Parked sleep reached: every falling domain in its low state, the open temperature ranges counted (R519), the clocks and the links down. A wake that came during the SLEEP
frame starts at once (R492). -/
def Lane.park (L : Lane) : Lane :=
  let fall (K : Lane) (d : Nat) : Lane :=
    match K.domPhase d with
    | .drop _ dst _ => ((if dst = 0 then K.domClear d else K).domState d dst).setDom d .stable
    | _ => K
  let L1 := domOrder.foldl fall L.rfFlush
  let L2 := ((L1.put F.PWR_SLEEP_RESULT 1).put F.PWR_SLEEP_BUSY 0).put F.PWR_SLEEP_CODE 0
  let L3 := (L2.onPwr (fun w => { w with sleep := .parked, bemf := [0, 0, 0, 0], bemfAt := L2.now })).hedgeSleep
  let L4 := { L3 with
    clk := { L3.clk with pllOn := false, xtalOk := false, phase := .idle, nextLevel := none, adopted := false }
    link := { L3.link with trained := false, accesses := [], rsp := none }
    rst := { L3.rst with phase := .parked, phaseAt := L3.now } }
  match L4.pwr.wakeDue with
  | some (c, src) => L4.wakeNow c src
  | none => L4

/-- A rail's present target: the last acknowledged one, its nominal voltage before any (R483, log 20). -/
def Lane.railTarget (L : Lane) (r : Nat) : Nat :=
  let t := L.get F.PREQ_RAIL_TARGET 0 r
  if t = 0 then (if r = 0 then 800 else if r = 1 then 1800 else 3300) else t

/-- The retention signatures are done: the WAKE_CFG and SLEEP frames (Table 15.7), or parked sleep without them after PMIC_FAULT
(R488). -/
def Lane.sleepFrames (L : Lane) : Lane :=
  let L1 := L.onPwr (fun w => { w with sleep := .frames })
  if L1.is F.PREQ_STAT_FAULT then L1.park
  else
    (([2, 1, 0].foldl (fun K r => K.preqAsk { rank := 1, cmd := 6, rail := r, value := K.railTarget r }) L1)).preqAsk
      { rank := 1, cmd := 5, rail := 0, value := 4 }

/-- Some domain's retention signatures still run. -/
def Lane.signing (L : Lane) : Bool :=
  L.pwr.dom.any (fun p => match p with
    | .drop 2 dst _ => dst == 1
    | _ => false)

/-- The check cycle of an entry into parked sleep (Table 15.7): a pending wake aborts it (R491), an ON vote refuses it, otherwise
step 1 of every domain's drop is done and the retention signatures run. -/
def Lane.sleepCheck (L : Lane) (wake : Option Nat) : Lane :=
  match wake.or (L.pwr.wakeDue.map (fun w => w.1)) with
  | some c => L.sleepAbort (0x80 + c)
  | none =>
    let heldOn := (List.range 21).filter (fun d => d != 0 && (L.is F.PWR_D_VOTES_IMPL 0 d || L.anyVote d 2))
    match heldOn with
    | d0 :: _ =>
      let L1 := heldOn.foldl (fun K d => K.countEntry d (K.lowClient d) 0) L
      let L2 := ((L1.put F.PWR_SLEEP_BUSY 0).put F.PWR_SLEEP_RESULT 2).put F.PWR_SLEEP_CODE (L1.lowClient d0)
      ((L2.onPwr (fun w => { w with sleep := .awake })).note Ev.PWR_SLEEP_REFUSED).votesBack
    | [] =>
      let one (K : Lane) (d : Nat) : Lane :=
        let st := K.get F.PWR_D_STAT_STATE 0 d
        if st = 2 ∨ st = 3 then (K.put F.PWR_D_STAT_STATE 3 0 d).setDom d (.drop 2 (K.votesFor d) K.now) else K
      let L1 := (domOrder.foldl one L).onPwr (fun w => { w with sleep := .sign })
      if L1.signing then L1 else L1.sleepFrames

/-- Every vote of the Henpa kernel withdrawn at once with the sleep request that follows (R489). -/
def Lane.keyVotes (L : Lane) : Lane := domOrder.foldl (fun K d => K.putVote d 1 0) L

/-- The lane sleeps, or is on its way into or out of it: its wake filters are armed. -/
def Lane.asleep (L : Lane) : Bool := L.pwr.sleep != .awake

/-- The logic die is out of reset and clocked. -/
def Lane.logicOn (L : Lane) : Bool := L.rst.phase != .held && L.rst.phase != .parked

/-- The Hedge link carries transfers: both dies run and it has trained. From the start of a lane reset nothing is in flight (R44). -/
def Lane.linkOn (L : Lane) : Bool := L.hedgeUp && L.logicOn && L.link.trained

end Sys2Proof.Machine
end

