-- ==== Sys2Proof/Machine/Anatomy.lean ====
section
/-!
DEFINITION. Machine/Anatomy.lean: commands of 01_module_anatomy.md that concern one part of a lane alone: periodic transfers of
the Hedge link (R19, R40, R265), clocks and frequency levels (R28 to R33), module time (R34 to R41), event history and leaky
buckets (R53, R56, R378), status-window mirrors (R49). Resets stand in Reset.lean, register access in Bus.lean.
-/

namespace Sys2Proof.Machine

/-- CLK's hidden state changed by a function. -/
def Lane.onClk (L : Lane) (f : ClkSt → ClkSt) : Lane := { L with clk := f L.clk }

/-- The link's hidden state changed by a function. -/
def Lane.onLink (L : Lane) (f : LinkSt → LinkSt) : Lane := { L with link := f L.link }

/-! ### The Hedge link -/

/-- A transfer that fails its CRC is discarded and recorded (R20). -/
def Lane.crcErr (L : Lane) : Lane := L.transient Ev.HLNK_CRC_ERR

/-- LEG_PERIODIC (R19): 1 us without a LEG; the logic die sends one. -/
def execLegPeriodic (l : LaneId) (s : State) : Out :=
  s.on l (fun L => L.logicOn && L.since L.link.lastLegSent (us 1)) Lane.sendLeg

/-- TIME_SEND (R40): at each multiple of 200 ticks of module time a TIME transfer starts. -/
def execTimeSend (l : LaneId) (s : State) : Out :=
  s.on l (fun L => L.logicOn && L.mtN % 200 == 0) (fun L =>
    L.onLink (fun k => { k with lastTimeSent := L.now, timePend := true }))

/-- Payload of the TIME transfer that is complete now: module time [31:0] as its CRC beat was driven, one beat ago (R40). -/
def Lane.timePayload (L : Lane) : Word := L.link.mtAgo.getD 1 0

/-- The Hedge's RC cycle: nominal 40 MHz (Table 1.4, log 121). -/
def Lane.rcCycle (L : Lane) : Nat := L.now / 5

/-- The advance of the Hedge's copy per RC cycle, from the spacing of the last 16 valid TIME transfers, newest first; the present one
where the spacing is not measured yet (R40). -/
def rcTrim (times : List (Word × Nat)) (inc : Nat × Nat) : Nat × Nat :=
  match times.head?, times.getLast? with
  | some a, some b => if b.2 < a.2 then ((a.1 - b.1).toNat, a.2 - b.2) else inc
  | _, _ => inc

/-- A valid TIME transfer at the Hedge: the payload plus the fixed receive latency of 10 ns loaded, the advance trimmed (R40). -/
def Lane.timeLoad (L : Lane) (payload : Word) : Lane :=
  L.onLink (fun k =>
    let times := ((payload, L.rcCycle) :: k.times).take 16
    { k with
      hedgeMt := payload + 2, rcLoad := (payload + 2, L.rcCycle), times := times, inc := rcTrim times k.inc
      lastTime := L.now, timeLost := false, timePend := false })

/-- TIME (R40): the transfer on its way reaches the Hedge; a failed CRC discards it (R20). -/
def execTime (l : LaneId) (hdr crc : Half) (s : State) : Out :=
  s.on l (fun L => L.linkOn && L.link.timePend) (fun L =>
    if xferOk 4 (wordBeats L.timePayload) hdr crc then L.timeLoad L.timePayload
    else L.crcErr.onLink (fun k => { k with timePend := false }))

/-- TIME_LOST (R40): no valid TIME for 10 us; recorded once, the copy keeps advancing. -/
def execTimeLost (l : LaneId) (s : State) : Out :=
  s.on l (fun L => L.hedgeUp && L.since L.link.lastTime (us 10) && !L.link.timeLost) (fun L =>
    (L.transient Ev.HLNK_TIME_LOST).onLink (fun k => { k with timeLost := true }))

/-- IRQ_REFRESH (R265): 10 us without an IRQ transfer; the Hedge sends one. -/
def execIrqRefresh (l : LaneId) (s : State) : Out :=
  s.on l (fun L => L.hedgeUp && L.since L.link.lastIrq (us 10)) (fun L => L.onLink (fun k => { k with lastIrq := L.now }))

/-! ### Clocks -/

/-- CLKMON (R28): the link clock more than 5 % off; gates off, the lane held out of the vote. -/
def execClkmon (l : LaneId) (s : State) : Out :=
  s.on l Lane.hedgeUp (fun L =>
    ((L.laneStop F.GD_LSTOP_CLKMON).onLink (fun k => { k with clkBadAt := L.now })).onSdl
      (fun d => { d with held := true }) |>.showNovote)

/-- AON_XTAL_LOST stands in bit 8 of CLK_STAT (log 8). -/
def aonFlag : Fld := ⟨H.STAT .clk, 8, 1⟩

/-- AON_XTAL_LOST (R29). -/
def execAonXtalLost (l : LaneId) (s : State) : Out :=
  s.on l (fun L => L.clk.aonLostAt.isNone) (fun L =>
    (L.transient Ev.CLK_AON_XTAL_LOST).put aonFlag 1 |>.onClk (fun c => { c with aonLostAt := some L.now }))

/-- AON_XTAL_CLEAR (R29): the crystal, lost until then, has run correctly for `ran` ticks; after 1 s of it the flag clears. -/
def execAonXtalClear (l : LaneId) (ran : Nat) (s : State) : Out :=
  s.on l (fun L => match L.clk.aonLostAt with
      | some t => decide (sec 1 ≤ ran) && L.since t ran
      | none => false) (fun L => (L.put aonFlag 0).onClk (fun c => { c with aonLostAt := none }))

/-- VCORE_x in mV of a frequency level with its VSTEP (Table 1.7). -/
def vcoreMv (level vstep : Nat) : Nat := (if level = 0 then 800 else if level = 1 then 760 else 720) + 20 * vstep

/-- VCORE_x asked for over PREQ, rank 2 (R31, R487). -/
def Lane.askVcore (L : Lane) (level vstep : Nat) : Lane :=
  L.preqAsk { rank := 2, cmd := 1, rail := 0, value := vcoreMv level vstep }

/-- A change to a level started (R31): raising asks for the voltage first, lowering switches the clocks first. A smaller level
number is a higher frequency. -/
def Lane.startLevel (L : Lane) (t : Nat) : Lane :=
  let cur := L.get F.CLK_LEVEL_CUR
  if t = cur then L
  else if t < cur then ((L.put F.CLK_LEVEL_BUSY 1).onClk (fun c => { c with phase := .raiseAck t })).askVcore t 0
  else
    ((((L.put F.CLK_LEVEL_CUR t).put F.CLK_LEVEL_VSTEP 0).put F.CLK_LEVEL_BUSY 1).onClk (fun c => { c with phase := .lowerAck t })).askVcore
      t 0

/-- A level change complete; a level written meanwhile becomes the next target (R33), a sleep request held until then is checked
(Table 15.7). -/
def Lane.levelDone (L : Lane) : Lane :=
  let L1 := (L.put F.CLK_LEVEL_BUSY 0).onClk (fun c => { c with phase := .idle, nextLevel := none })
  let L2 := match L.clk.nextLevel with
    | some t => L1.startLevel t
    | none => L1
  if L2.pwr.sleep == .held && !L2.is F.CLK_LEVEL_BUSY then L2.sleepCheck none else L2

/-- The PMIC acknowledged the voltage of the change in progress (R31). -/
def Lane.levelAck (L : Lane) : Lane :=
  match L.clk.phase with
  | .raiseAck t => L.onClk (fun c => { c with phase := .raiseSettle t L.now })
  | .lowerAck _ => L.levelDone
  | _ => L

/-- The exchange of the change in progress failed: the level in effect stays (R488). -/
def Lane.levelFail (L : Lane) : Lane :=
  match L.clk.phase with
  | .raiseAck _ | .lowerAck _ => L.levelDone
  | _ => L

/-- CLK_LEVEL_REQ (R31, R33): a write of 3 is ignored. -/
def execClkLevelReq (l : LaneId) (req : BitVec 2) (s : State) : Out :=
  s.on l (fun L => L.up && req != 3) (fun L =>
    let L1 := L.put F.CLK_LEVEL_REQ req.toNat
    if L.is F.CLK_LEVEL_BUSY then L1.onClk (fun c => { c with nextLevel := some req.toNat }) else L1.startLevel req.toNat)

/-- CLK_SWITCH (R31): 50 us after the acknowledge. -/
def execClkSwitch (l : LaneId) (s : State) : Out :=
  s.on l (fun L => L.up && (match L.clk.phase with
      | .raiseSettle _ a => L.since a (us 50)
      | _ => false)) (fun L =>
    match L.clk.phase with
    | .raiseSettle t _ => ((L.put F.CLK_LEVEL_CUR t).put F.CLK_LEVEL_VSTEP 0).levelDone
    | _ => L)

/-- CRITICAL_PATH_MARGIN (Table 1.7): at level 0 the monitor reports low margin; one more 20 mV step, up to 0.88 V. -/
def execCriticalPathMargin (l : LaneId) (s : State) : Out :=
  s.on l (fun L => L.up && L.get F.CLK_LEVEL_CUR == 0 && decide (L.get F.CLK_LEVEL_VSTEP < 4)) (fun L =>
    let v := L.get F.CLK_LEVEL_VSTEP + 1
    (L.put F.CLK_LEVEL_VSTEP v).askVcore 0 v)

/-! ### Module time -/

/-- A peer's copy as this lane knows it now, if it was heard within 10 us (R34, R38). -/
def Lane.peerCopy (L : Lane) (i : Nat) : Option Int :=
  match L.ozl.peerMt.getD i none with
  | some (v, t) => if L.now ≤ t + us 10 then some ((v + (L.now - t) : Nat) : Int) else none
  | none => none

/-- The reference of R34: the median of three copies, the mean of two; DESIGN CHOICE: a mean that is no whole tick is rounded down
(log 122). -/
def Lane.timeRef (L : Lane) : Option Int :=
  match L.peerCopy 0, L.peerCopy 1 with
  | some p, some q => some (median3 L.mtN p q)
  | some p, none => some (((L.mtN : Int) + p) / 2)
  | none, some q => some (((L.mtN : Int) + q) / 2)
  | none, none => none

/-- Own copy minus the reference, in ticks. -/
def Lane.timeOfs (L : Lane) : Option Int := L.timeRef.map (fun r => (L.mtN : Int) - r)

/-- CLK_MT_SYNC's OFS and SYNCED at a heartbeat, and the clock of R37. -/
def Lane.syncShow (L : Lane) : Lane :=
  match L.timeOfs with
  | none => L
  | some d =>
    let o := clampI (-32767) 32767 d
    let L1 := (L.putS F.CLK_MT_SYNC_OFS o).putB F.CLK_MT_SYNC_SYNCED (decide (d.natAbs ≤ 4))
    (L1.put F.CLK_MT_SYNC_SOLO 0).onClk (fun c => { c with
      driftSince := if d.natAbs ≤ 4 then none else match c.driftSince with
        | some t => some t
        | none => some L.now })

/-- More than 100 ns off the reference: TIME_FAULT, the lane loses its vote and re-enters by graft; a graft in progress fails once
it has taken its step of module time (R37). -/
def Lane.timeFaultCheck (L : Lane) : Lane :=
  match L.timeOfs with
  | some d =>
    if decide (20 < d.natAbs) && (L.active || (L.own == 0 && decide (2 ≤ L.get F.OZL_GRAFT_PHASE))) then
      (L.note Ev.CLK_TIME_FAULT).laneFault
    else L
  | none => L

/-- TIME_STEER (R34): one tick added or omitted at most once per 1 us, toward the reference. -/
def execTimeSteer (l : LaneId) (s : State) : Out :=
  s.on l (fun L => L.up && L.since L.clk.lastSteer (us 1) && L.timeOfs.isSome) (fun L =>
    let L1 := L.onClk (fun c => { c with lastSteer := L.now })
    let L2 := match L.timeOfs with
      | some d => if d < 0 then { L1 with mt := L1.mt + 1 } else if 0 < d then L1.onClk (fun c => { c with skipTick := true }) else L1
      | none => L1
    L2.timeFaultCheck)

/-- TIME_DRIFT (R37): more than 20 ns off for 100 us. -/
def execTimeDrift (l : LaneId) (s : State) : Out :=
  s.on l (fun L => L.up && (match L.clk.driftSince with
      | some t => L.since t (us 100)
      | none => false)) (fun L =>
    let L1 := (L.transient Ev.CLK_TIME_DRIFT).onClk (fun c => { c with driftSince := some L.now })
    L1.timeFaultCheck)

/-- SOLO (R38): no peer time for 10 us. -/
def execSolo (l : LaneId) (s : State) : Out :=
  s.on l (fun L => L.up && (L.peerCopy 0).isNone && (L.peerCopy 1).isNone) (fun L => L.put F.CLK_MT_SYNC_SOLO 1)

/-- CLK_MT_LO_READ (R41): latches module time [63:32] into CLK_MT_HI and clears ADOPTED; the read returns [31:0]. -/
def execClkMtLoRead (l : LaneId) (m : Master) (s : State) : Out :=
  s.gate l m false (R.CLK_MT_LO.addr 0 0) (fun s => s.on l Lane.up (fun L =>
    ((L.put F.CLK_MT_HI_MT_HI (L.mtN / 2 ^ 32)).put F.CLK_MT_SYNC_ADOPTED 0).onCmdq (fun q => { q with busData := L.mtLo })))

/-- Every block that schedules work on module time starts its schedule again from the present value (R36): the vote boundary and the
10 ms mark, window and reference check of the ICV, the runs and conversions of the converters, the leg buckets, the resolver
triggers. -/
def Lane.restartSchedules (L : Lane) : Lane :=
  { L with
    ozl := { L.ozl with lastBound := none }
    trio := { L.trio with markDue := (L.mtN / 2000000 + 1) * 2000000 }
    icv := { L.icv with winK := none, due := none, run := none }
    cnvs := L.cnvs.map (fun c => { c with rNext := none, iNext := none, conv := none })
    drive := { L.drive with eng := L.drive.eng.map (fun d => { d with creditAt := L.mtN }) }
    pos := { L.pos with res := L.pos.res.map (fun r => { r with trigAt := none }) } }

/-- The single step of R36: the copy set, ADOPTED shown, the schedules started again, TIME_STEP recorded when it goes backward. -/
def Lane.adoptTime (L : Lane) (v : Nat) : Lane :=
  if v = L.mtN then L.onClk (fun c => { c with adopted := true })
  else
    let back := v < L.mtN
    let L1 := (({ L with mt := BitVec.ofNat 64 v }).put F.CLK_MT_SYNC_ADOPTED 1).onClk (fun c => { c with adopted := true })
    (if back then L1.note Ev.CLK_TIME_STEP else L1).restartSchedules

/-! ### Event history and leaky buckets -/

/-- EVQ_CLR (R53): the queue and its shadows emptied. -/
def execEvqClr (l : LaneId) (b : Blk) (n : Nat) (s : State) : Out :=
  s.on l (fun L => if b.isHedge then L.hedgeUp else L.up) (fun L => L.evqClear b n)

/-- EVQ_READ (R56): a read of EVQ_e copies the entry's time word into shadow e and returns the descriptor. -/
def execEvqRead (l : LaneId) (m : Master) (b : Blk) (n : Nat) (e : Fin 4) (s : State) : Out :=
  s.gate l m false (evqA b n e.val) (fun s => s.on l (fun L => if b.isHedge then L.hedgeUp else L.up) (fun L =>
    let L1 := L.wr (evqT b n e.val) (L.evqTimeOf b n e.val)
    let a := evqA b n e.val
    ({ L1 with evqRead := if L1.evqRead.contains a then L1.evqRead else a :: L1.evqRead }).onCmdq
      (fun q => { q with busData := L.rd a })))

/-- LB_TOKEN_EXPIRE (R378): tokens older than WINDOW leave the block's buckets. -/
def execLbTokenExpire (l : LaneId) (b : Blk) (n : Nat) (s : State) : Out :=
  s.on l (fun L => if b.isHedge then L.hedgeUp else L.up) (fun L => L.lbExpire b n)

/-! ### Status windows -/

/-- Base of a lane's status window (Table 1.10). -/
def windowBase (x : LaneId) : Nat := 0x60000000 + 0x01000000 * x.idx

/-- A window address of lane `x` at which a mirror holds something: offsets 0x000 to 0x03F of a block, and the window header
(R47, R49). -/
def inMirror (x : LaneId) (a : Nat) : Bool :=
  let o := a - windowBase x
  decide (windowBase x ≤ a) && (o == 0x00F00000 || o == 0x00F00004 ||
    (decide (o < 0x00F00000) && (match blockAt (if 0x00800000 ≤ o then 0x50000000 + (o - 0x00800000) else 0x40000000 + o) with
      | some (_, _, off) => decide (off < 0x40)
      | none => false)))

/-- A word of a status-window mirror. -/
def Lane.mirrorWord (L : Lane) (a : Nat) : Word := sget 0 a L.ozl.mirror

/-- A word of a mirror set. -/
def Lane.setMirror (L : Lane) (a : Nat) (v : Word) : Lane := L.onOzl (fun o => { o with mirror := sput 0 a v o.mirror })

/-- MIRROR_STALE (R49): a mirror older than 50 us sets STALE and keeps its contents. -/
def execMirrorStale (l peer : LaneId) (s : State) : Out :=
  s.on l (fun L => L.up && decide (peer ≠ l) && L.since (nthN L.ozl.mirrorAt peer.idx) (us 50)) (fun L =>
    L.setMirror (windowBase peer + 0x00F00004) 1)

end Sys2Proof.Machine
end

