-- ==== Sys2Proof/Machine/Conv.lean ====
section
/-!
DEFINITION. Machine/Conv.lean: commands of 08_conversion.md: drive and cover frames (R296, R305), sequences (R297 to R302),
self-calibration (R303, R304), the ICV, the cross-check and its suspect channels (R308 to R313), reference checks (R314).
-/

namespace Sys2Proof.Machine

/-! ### Drive frames -/

/-- The converters of pair `k` that deliver its frame: both, the partner alone as cover (R305), or none. -/
inductive FrameBy where
  | both | cover (n : Nat) | none

/-- Who delivers the frame of pair `k`. -/
def Lane.frameBy (L : Lane) (k : Nat) : FrameBy :=
  match L.cnvAway (2 * k), L.cnvAway (2 * k + 1) with
  | false, false => .both
  | true, false => .cover (2 * k + 1)
  | false, true => .cover (2 * k)
  | true, true => .none

/-- A suspect converter of the pair whose next check takes slot 3 of this frame (R313). -/
def Lane.checkSlot (L : Lane) (k : Nat) : Option Nat :=
  [2 * k, 2 * k + 1].find? (fun n => (L.cnv n).fallback && decide ((L.cnv n).checks.length < 3))

/-- A code added to a sum and its number. -/
def addCode (p : Int × Nat) (c : Int) : Int × Nat := (p.1 + c, p.2 + 1)

/-- A code of converter `n` counted into the reference check in progress on it, by its sample end `te` and the mode: the half of a
stimulus check, or the whole window in live mode (R314). -/
def Lane.refCount (L : Lane) (n : Nat) (c : Int) (te : Nat) (stim cover : Bool) : Lane :=
  match L.icv.run with
  | none => L
  | some r =>
    if bit r.req.mask n && bit r.stim n == stim && decide (r.startAt ≤ te) && decide (te < r.endAt) then
      L.onCnv n (fun x =>
        if stim && decide (r.startAt + r.endAt ≤ 2 * te) then { x with ref2 := addCode x.ref2 c }
        else { x with ref1 := addCode x.ref1 c, refCov := x.refCov || cover })
    else L

/-- A drive-frame code counted into the window of its cross-check channel in which its sample end falls: the running one, or the
one just ended (R311); and into a reference check in live mode. -/
def Lane.xcount (L : Lane) (n : Nat) (c : Int) (cover : Bool) (te : Nat) : Lane :=
  (if L.icv.winK.isSome && decide (te < L.icv.winAt) then
    L.onCnv n (fun x => { x with wsum := x.wsum + c, wcnt := x.wcnt + 1, wcov := x.wcov || cover })
  else L.onCnv n (fun x => { x with sum := x.sum + c, cnt := x.cnt + 1, cov := x.cov || cover })).refCount n c te false cover

/-- STAT.FRAME and STAT.COVER of a pair; COVER_START when a converter begins covering (R305). -/
def Lane.frameFlags (L : Lane) (k : Nat) : FrameBy → Lane
  | .both => [2 * k, 2 * k + 1].foldl (fun K n => (K.put F.CNV_STAT_FRAME 1 n).put F.CNV_STAT_COVER 0 n) L
  | .cover n =>
    let L1 := (L.put F.CNV_STAT_FRAME 1 n).put F.CNV_STAT_FRAME 0 (partner n)
    if L.is F.CNV_STAT_COVER n then L1 else (L1.put F.CNV_STAT_COVER 1 n).note Ev.CNV_COVER_START n
  | .none => [2 * k, 2 * k + 1].foldl (fun K n => (K.put F.CNV_STAT_FRAME 0 n).put F.CNV_STAT_COVER 0 n) L

/-- Ticks from now to the next decision of DRV_k. -/
def Lane.toDecision (L : Lane) (k : Nat) : Nat :=
  (L.dget F.DRV_DPER_PHASE k + L.drvPeriod k - L.mtN % L.drvPeriod k) % L.drvPeriod k

/-- DRIVE_FRAME (R296, R305): the pair delivers the codes of the coming decision to DRV_k and to the cross-check. Both
conversions are complete 162.5 ns after the sample end, which lies 575 ns before D(j) (R214); results that come later than 490 ns
after it are not used by the decision (R217). A cover frame carries no iW, and neither does one whose slot 3 takes a check
conversion (R313). -/
def execDriveFrame (l : LaneId) (k : Fin 4) (iu iv iw vm chk : BitVec 12) (s : State) : Out :=
  s.on l (fun L => L.up && !L.drvIdle k.val && decide (L.toDecision k.val ≤ 82)) (fun L =>
    let by_ := L.frameBy k.val
    let L1 := L.frameFlags k.val by_
    match by_ with
    | .none => L1
    | _ =>
      let cover := match by_ with
        | .both => false
        | _ => true
      let slot := L.checkSlot k.val
      let f : DrvFrame := {
        due := L.mtN + L.toDecision k.val
        iu := L.scaleI k.val iu.toInt, iv := L.scaleI k.val iv.toInt,
        iw := if cover || slot.isSome then none else some (L.scaleI k.val iw.toInt),
        vm := L.scaleV k.val vm.toNat, cover := cover }
      let te := f.due - 115
      let L2 := ((L1.onDrv k.val (fun d => { d with frame := if 17 ≤ L.toDecision k.val then some f else d.frame })).xcount
        (2 * k.val) iu.toInt cover (if cover then te - 40 else te)).xcount (2 * k.val + 1) iv.toInt cover te
      match slot with
      | some n => L2.onCnv n (fun c => { c with checks := c.checks ++ [chk.toInt] })
      | none => L2)

/-- Starts of the drive-frame slots that converter `n` holds, in 2.5 ns units relative to a decision instant (R296, R305): the
sample end of the frame lies 575 ns before it. -/
def Lane.frameSlots (L : Lane) (n : Nat) : List Int :=
  let k := n / 2
  let p : Int := 2 * L.drvPeriod k
  if L.drvIdle k || L.cnvAway n then []
  else
    match L.frameBy k with
    | .both => [-245, -230 + min 145 (p - 95)]
    | .cover _ => [-325, -245, -230 + min 145 (p - 175)]
    | .none => []

/-- A 200 ns slot at `t` (2.5 ns units of module time) ends no later than the next drive-frame slot starts, and starts no
earlier than the last one ended (R297). -/
def Lane.slotFits (L : Lane) (n t : Nat) : Bool :=
  let p : Int := 2 * L.drvPeriod (n / 2)
  let ph : Int := 2 * L.dget F.DRV_DPER_PHASE (n / 2)
  (L.frameSlots n).all (fun o =>
    let d := (ph + o - t) % p
    decide (80 ≤ d) && decide (d + 80 ≤ p))

/-! ### Sequences -/

/-- SEL of an entry. -/
def Lane.entrySel (L : Lane) (n : Nat) (inj : Bool) (i : Nat) : Nat :=
  if inj then L.get (F.CNV_ISEL_SEL_0.nth 8 i) n else L.get (F.CNV_RSEL_SEL_A.nth 8 (i % 4)) n (i / 4)

/-- SEL names an input of Table 8.3. -/
def selOk (x : Nat) : Bool := decide (x ≤ 16) || x == 20 || x == 21 || x == 22

/-- Entries of a sequence. -/
def Lane.seqLen (L : Lane) (n : Nat) (inj : Bool) : Nat := L.get (if inj then F.CNV_ISEQ_LEN else F.CNV_RSEQ_LEN) n + 1

/-- SEQUENCE_ENABLE (R298): EN written. A sequence with an illegal TRIG or SEL is refused. -/
def execSequenceEnable (l : LaneId) (n : Fin 8) (inj en : Bool) (s : State) : Out :=
  s.on l Lane.up (fun L =>
    let f := if inj then F.CNV_ISEQ_EN else F.CNV_RSEQ_EN
    if !en then L.put f 0 n
    else if L.is f n then L.note Ev.CNV_SEQ_CFG_ERR n
    else if L.seqTrig n inj ≤ 6 ∧ (List.range (L.seqLen n inj)).all (fun i => selOk (L.entrySel n inj i)) then
      (L.put f 1 n).onCnv n (fun c => if inj then { c with iTrig := 0 } else { c with rTrig := 0 })
    else (L.put f 0 n).note Ev.CNV_SEQ_CFG_ERR n)

/-- The source of a sequence triggers now (Table 8.4), once per instant and once per short-circuit trip, within 100 ns of it. The
resolver peaks come through RPEAK. -/
def Lane.seqSourceNow (L : Lane) (n : Nat) (inj : Bool) : Bool :=
  let last := if inj then (L.cnv n).iSrc else (L.cnv n).rSrc
  last != some L.now &&
  match L.seqTrig n inj with
  | 1 => L.atBoundary
  | 2 =>
    let p := max 40 (L.get F.CNV_TMR_PER n)
    L.mtN % p == L.get F.CNV_TMR_PHASE n % p
  | 3 => L.atDecision (n / 2)
  | 6 => match L.gate.tripAt.getD (n / 2) none with
    | some t => decide (L.now ≤ t + 20) && (match last with
      | some u => decide (u < t)
      | none => true)
    | none => false
  | _ => false

/-- SEQUENCE_TRIGGER (R298, R300): the source of a sequence triggers. -/
def execSequenceTrigger (l : LaneId) (n : Fin 8) (inj : Bool) (s : State) : Out :=
  s.on l (fun L => L.up && L.seqSourceNow n inj) (fun L => L.seqSource n inj)

/-- RSEQ_GO (R298): a write of GO triggers a regular run of an enabled sequence. -/
def execRseqGo (l : LaneId) (n : Fin 8) (s : State) : Out :=
  s.on l (fun L => L.up && L.seqOn n false) (fun L => L.seqAccept n false)

/-- ISEQ_GO (R298): a write of GO triggers an injected run of an enabled sequence. -/
def execIseqGo (l : LaneId) (n : Fin 8) (s : State) : Out :=
  s.on l (fun L => L.up && L.seqOn n true) (fun L => L.seqAccept n true)

/-- A conversion of the running stimulus check is due: one every 1 us (R314). -/
def Lane.stimDue (L : Lane) (n : Nat) : Bool :=
  match L.icv.run with
  | some r => bit r.stim n && decide (L.mtN < r.endAt) && ((L.cnv n).ref1.2 == 0 || decide ((L.cnv n).stimAt + us 1 ≤ L.mtN))
  | none => false

/-- The next slot's use by priority (R299, R313, R314): a suspect channel's check, a conversion of the stimulus check, an injected
entry, a regular entry. -/
def Lane.nextUse (L : Lane) (n : Nat) : Option ConvFor :=
  let c := L.cnv n
  if c.suspectAt.isSome && !c.fallback && decide (c.checks.length < 3) then some (.check c.checks.length)
  else if L.stimDue n then some .stim
  else
    match c.iNext, c.rNext with
    | some j, _ => some (.injected j)
    | none, some i => some (.regular i)
    | none, none => none

/-- Input of a use. -/
def Lane.useSel (L : Lane) (n : Nat) : ConvFor → Nat
  | .regular i => L.entrySel n false i
  | .injected j => L.entrySel n true j
  | .check c => 20 + c
  | .stim => 3 * (n / 2) + n % 2

/-- ENTRY_START (R297, R299, R302): the next entry starts now, or half a tick later, in a slot that fits. An interleaved entry
takes a slot of the partner 100 ns later as well. -/
def execEntryStart (l : LaneId) (n : Fin 8) (half : Bool) (s : State) : Out :=
  s.on l (fun L => L.up && !L.cnvAway n.val && (L.cnv n.val).conv.isNone) (fun L =>
    let t := 2 * L.mtN + b2n half
    match L.nextUse n.val with
    | none => L
    | some u =>
      let c : Conv := { what := u, sel := L.useSel n.val u, start := t }
      let ilv := match u with
        | .injected _ => n.val % 2 == 0 && L.is F.CNV_ISEQ_ILV n.val
        | _ => false
      if !L.slotFits n.val t then L
      else if ilv then
        let p := partner n.val
        if !L.cnvAway p && (L.cnv p).conv.isNone && L.slotFits p (t + 40) then
          (L.onCnv n.val (fun x => { x with conv := some c })).onCnv p (fun x => { x with conv := some { c with start := t + 40 } })
        else L
      else L.onCnv n.val (fun x => { x with conv := some c, stimAt := if u = .stim then L.mtN else x.stimAt }))

/-- The code of an input limited to its coding, and whether it was limited (R294). -/
def limitCode (sel : Nat) (c : Int) : Int × Bool :=
  if sel = 12 then (clampI 0 4095 c, decide (c < 0 ∨ 4095 < c)) else (clampI (-2048) 2047 c, decide (c < -2048 ∨ 2047 < c))

/-- A result and its sample end written (R301). -/
def Lane.putResult (L : Lane) (n : Nat) (inj : Bool) (i : Nat) (sel : Nat) (code : Int) (start : Nat) : Lane :=
  let v := limitCode sel code
  let r := if inj then R.CNV_IRES else R.CNV_RES
  let ovr := bit (L.reg r n i) 16
  let w := ofSigned 16 v.1 + 0x10000 + 0x20000 * b2n ovr + 0x40000 * b2n v.2
  (L.setReg r w n i).setReg (if inj then R.CNV_ITS else R.CNV_RTS) ((start + 15) / 2) n i

/-- A run's next entry after entry `i`; at its end RDONE or IDONE (R301). -/
def Lane.seqAdvance (L : Lane) (n : Nat) (inj : Bool) (i : Nat) : Lane :=
  if i + 1 < L.seqLen n inj then
    L.onCnv n (fun c => if inj then { c with iNext := some (i + 1) } else { c with rNext := some (i + 1) })
  else if inj then
    ((L.onCnv n (fun c => { c with iNext := none })).put F.CNV_STAT_IBUSY 0 n).flag F.CNV_EVT_IDONE n
  else ((L.onCnv n (fun c => { c with rNext := none })).put F.CNV_STAT_RBUSY 0 n).flag F.CNV_EVT_RDONE n

/-- CONVERSION_END (R301, R294): a slot's 200 ns are over and its code is written. The partner's slot of an interleaved entry
writes the partner's own result. -/
def execConversionEnd (l : LaneId) (n : Fin 8) (code : Int) (s : State) : Out :=
  s.on l Lane.up (fun L =>
    match (L.cnv n.val).conv with
    | none => L
    | some c =>
      if 2 * L.mtN < c.start + 80 then L
      else
        let L1 := L.onCnv n.val (fun x => { x with conv := none })
        match c.what with
        | .check _ => L1.onCnv n.val (fun x => { x with checks := x.checks ++ [(limitCode c.sel code).1] })
        | .stim => L1.refCount n.val (limitCode c.sel code).1 ((c.start + 15) / 2) true false
        | .regular i => (L1.putResult n.val false i c.sel code c.start).seqAdvance n.val false i
        | .injected j =>
          let L2 := L1.putResult n.val true j c.sel code c.start
          if L.ilvTaken n.val then L2 else L2.seqAdvance n.val true j)

/-- RES_READ (R301): a read of a result register returns it and clears VALID. -/
def execResRead (l : LaneId) (m : Master) (n : Fin 8) (inj : Bool) (i : Fin 16) (s : State) : Out :=
  let f := if inj then F.CNV_IRES_VALID else F.CNV_RES_VALID
  s.gate l m false (f.reg.addr n.val i.val) (fun s => s.on l (fun L => L.up && (!inj || decide (i.val < 4))) (fun L =>
    { (L.put f 0 n.val i.val) with cmdq := { L.cmdq with busData := BitVec.ofNat 32 (L.reg f.reg n.val i.val) } }))

/-! ### Self-calibration -/

/-- CAL_GO (R303). -/
def execCalGo (l : LaneId) (n : Fin 8) (s : State) : Out := s.on l Lane.up (fun L => (L.calStart n.val).1)

/-- Within `tol` codes of the expected check codes (Table 8.3). -/
def checksWithin (tol : Nat) (vh vl mid : Int) : Bool :=
  decide ((vh - 931).natAbs ≤ tol) && decide ((vl + 931).natAbs ≤ tol) && decide (mid.natAbs ≤ tol)

/-- A calibration passes (R304): offset within 16 codes, gain within 2 % (in steps of 2^-14), weights in range, verification
within 2 codes. -/
def calPass (m : CalMeas) : Bool :=
  decide (m.ofs.natAbs ≤ 16) && decide (m.gain.natAbs * 100 ≤ 2 * 16384) && m.weightsOk && checksWithin 2 m.vh m.vl m.mid

/-- The twelve weight trims stored. -/
def Lane.putWeights (L : Lane) (n : Nat) (w : List Byte) : Lane :=
  [0, 1, 2].foldl (fun K i => K.setReg R.CNV_CAL_W (fieldLE w (4 * i) 4) n i) L

/-- CAL_DONE (R304): 410 us after its start a calibration ends; on a pass the new trims are stored. -/
def execCalDone (l : LaneId) (n : Fin 8) (m : CalMeas) (s : State) : Out :=
  s.on l (fun L => L.up && (match (L.cnv n.val).calAt with
      | some t => L.since t (us 410)
      | none => false)) (fun L =>
    let L1 := (((L.onCnv n.val (fun c => { c with calAt := none })).put F.CNV_STAT_CAL 0 n.val).put F.CNV_CAL_STAT_BUSY 0 n.val)
    let L2 := (L1.incSat F.CNV_CAL_STAT_COUNT n.val).flag F.CNV_EVT_CALDONE n.val
    if calPass m then
      ((((L2.putS F.CNV_CAL_OG_OFS m.ofs n.val).putS F.CNV_CAL_OG_GAIN m.gain n.val).putWeights n.val m.weights).put
        F.CNV_CAL_STAT_RESULT 1 n.val).note Ev.CNV_CAL_DONE n.val
    else (L2.put F.CNV_CAL_STAT_RESULT 2 n.val).permanent Ev.CNV_CAL_FAIL (.cnv n.val) n.val)

/-! ### ICV windows and the cross-check -/

/-- The ICV state changed by a function. -/
def Lane.onIcv (L : Lane) (f : IcvSt → IcvSt) : Lane := { L with icv := f L.icv }

/-- Vote periods per window (R309). -/
def Lane.icvM (L : Lane) : Nat :=
  let len := max 100 (min 20000 (L.get F.ICV_WIN_LEN))
  let m := (len + L.period - 1) / L.period
  if 20000 < m * L.period then m - 1 else m

/-- What a vote boundary does to the ICV's windows (R309): the running window ends, the next one starts at a boundary with
k modulo M equal to 0. The SAR sums of the window are closed with it (R311). -/
def Lane.icvBoundary (L : Lane) : Lane :=
  let k := L.voteK
  let L1 := match L.icv.winK with
    | some k0 =>
      if k0 + L.icv.winM ≤ k then
        let L2 := (List.range 8).foldl (fun K n => K.onCnv n (fun c =>
          { c with wsum := c.sum, wcnt := c.cnt, wcov := c.cov, sum := 0, cnt := 0, cov := false })) L
        L2.onIcv (fun i => { i with winK := none, due := some (i.winM * L.period * 10, L.mtN), wheld := i.held, held := 0 })
      else L
    | none => L
  let m := L1.icvM
  if L1.icv.winK.isNone && !L1.pruned .icv && k % m == 0 then
    let L3 := (List.range 8).foldl (fun K n => K.onCnv n (fun c => { c with sum := 0, cnt := 0, cov := false })) L1
    (L3.onIcv (fun i => { i with winK := some k, winM := m, winAt := L1.mtN, held := if L1.isolated == some .icv then 0xFF else match i.run with
      | some r => r.req.mask
      | none => 0 })).put F.ICV_WIN_M m
  else L1

/-- ICV_WINDOW_END (R308, R310): the results of the enabled channels that no reference check holds are written. -/
def execIcvWindowEnd (l : LaneId) (counts : List Int) (ovl : Byte) (s : State) : Out :=
  s.on l (fun L => L.hedgeUp && !L.outOfService .icv && L.icv.due.isSome) (fun L =>
    match L.icv.due with
    | none => L
    | some (len, te) =>
      let L1 := L.incMod F.ICV_WSTAT_WNUM
      let wn := L1.get F.ICV_WSTAT_WNUM % 256
      let on := fun n => L.fbit F.ICV_CHEN_EN n && !bit L.icv.wheld n
      let L2 := (List.range 8).foldl (fun K n => if on n then
        (K.putS F.ICV_RES_N (clampI (-(len : Int)) len (counts.getD n 0)) 0 n).put F.ICV_RES_WNUM wn 0 n else K) L1
      let o := ((List.range 8).filter (fun n => on n && bit ovl.toNat n)).foldl (fun m n => m + 2 ^ n) 0
      let L3 := (L2.put F.ICV_CHEN_OVL o).put F.ICV_WEND_TIME te
      let L4 := if o = 0 then L3 else L3.note Ev.ICV_OVL
      (L4.put F.ICV_WSTAT_WDONE 1).onIcv (fun i => { i with due := none, results := true, len := len }))

/-- The deviation of a channel as a fraction: numerator and denominator in 0.01 % of A_FS (R311): S - I with S = sum / cnt /
2,048 and I = N / L × 1.25. -/
def deviation (sum : Int) (cnt : Nat) (n : Int) (len : Nat) : Int × Int :=
  (10000 * (4 * len * sum - 5 * n * cnt * 2048), 4 * len * cnt * 2048)

/-- A compared deviation passes: at most XTOL × 0.01 %. -/
def Lane.devOk (L : Lane) (d : Int × Int) : Bool :=
  decide ((d.1.natAbs : Int) ≤ (max 1 (L.get F.CNV_SQ_XCFG_XTOL) : Nat) * d.2)

/-- A channel's window was compared (R312). -/
def Lane.compared (L : Lane) (n : Nat) : Bool :=
  L.fbit F.CNV_SQ_XCFG_XEN n && L.fbit F.ICV_CHEN_EN n && decide (8 ≤ (L.cnv n).wcnt) && !L.fbit F.ICV_CHEN_OVL n
    && !(L.cnv n).wcov && !bit L.icv.wheld n

/-- One channel of the cross-check (R311, R313). -/
def Lane.crossOne (L : Lane) (n : Nat) : Lane :=
  if !L.compared n then L
  else
    let c := L.cnv n
    let d := deviation c.wsum c.wcnt (L.getS F.ICV_RES_N 0 n) L.icv.len
    let v := divR d.1 d.2
    let L1 := (L.putS F.CNV_SQ_XDEV_LAST (satS 16 v) 0 n).put F.CNV_SQ_XDEV_WORST
      (satU 65535 (max (L.get F.CNV_SQ_XDEV_WORST 0 n) v.natAbs)) 0 n
    let ok := L.devOk d
    let L2 := ((L1.putBit F.CNV_SQ_XSTAT_PASS n ok).putBit F.CNV_SQ_XSTAT_FAIL n (!ok)).onCnv n (fun x =>
      { x with lastD := some (v, L.now), fails := if ok then 0 else x.fails + 1 })
    if ok then L2
    else
      let L3 := L2.note Ev.CNV_XCHK_FAIL n
      if max 1 (L.get F.CNV_SQ_XCFG_XSEQ) ≤ c.fails + 1 && c.suspectAt.isNone then
        ((L3.put F.CNV_STAT_SUSPECT 1 n).putBit F.CNV_SQ_XSTAT_SUSPECT n true).note Ev.CNV_SUSPECT n |>.onCnv n
          (fun x => { x with suspectAt := some L.now, checks := [] })
      else L3

/-- CROSS_CHECK (R311 to R313): the sequencer compares the eight channels of the window whose results were written. The check
is off in a lane whose ICV is pruned (Table 8.6). -/
def execCrossCheck (l : LaneId) (s : State) : Out :=
  s.on l (fun L => L.up && L.icv.results && !L.pruned .icv) (fun L =>
    let any := (List.range 8).any L.compared
    let L1 := (List.range 8).foldl Lane.crossOne L
    let L2 := if any then L1.incMod F.CNV_SQ_XSTAT_WCNT else L1
    L2.onIcv (fun i => { i with results := false }))

/-- SUSPECT_FALLBACK (R313): 10 us after SUSPECT the remaining conversions take slot 3 of the drive frames. -/
def execSuspectFallback (l : LaneId) (n : Fin 8) (s : State) : Out :=
  s.on l (fun L => L.up && decide ((L.cnv n.val).checks.length < 3) && (match (L.cnv n.val).suspectAt with
      | some t => L.since t (us 10)
      | none => false)) (fun L => L.onCnv n.val (fun c => { c with fallback := true }))

/-- SUSPECT_CHECK_DONE (R313, Table 8.6): the three check codes are taken and the outcome decided. -/
def execSuspectCheckDone (l : LaneId) (n : Fin 8) (s : State) : Out :=
  s.on l (fun L => L.up && (L.cnv n.val).suspectAt.isSome && decide (3 ≤ (L.cnv n.val).checks.length)) (fun L =>
    let x := (L.cnv n.val).checks
    let sar := checksWithin 8 (x.getD 0 0) (x.getD 1 0) (x.getD 2 0)
    let L0 := L.suspectClear n.val
    let L1 := if sar then L0 else L0.permanent Ev.CNV_SAR_REF_FAIL (.cnv n.val) n.val
    let L2 := if L.icv.refOk then L1 else L1.permanent Ev.ICV_ICV_REF_FAIL .icv
    if sar && L.icv.refOk then L2.permanent Ev.CNV_XCHK_PATH (.drv (n.val / 2)) n.val else L2)

/-! ### Reference checks -/

/-- REFCHK_GO (R314): a write of GO asks for a check of MASK over WIN; ignored while BUSY. -/
def execRefchkGo (l : LaneId) (s : State) : Out :=
  s.on l (fun L => L.up && !L.is F.CNV_SQ_REFCHK_BUSY) (fun L =>
    L.refAsk (L.get F.CNV_SQ_REFCHK_MASK) (L.get F.CNV_SQ_REFCHK_WIN) .write)

/-- Converters of a mask checked in stimulus mode: the bridge's gate mode is none of FOLLOW, ASC_V and ASC_H and its drive
engine is OFF or in FAULT (R314). -/
def Lane.stimMask (L : Lane) (mask : Nat) : Nat :=
  ((List.range 8).filter (fun n =>
    let m := L.modeOf (n / 2)
    bit mask n && !(m == 0 || m == 3 || m == 4) && L.drvIdle (n / 2))).foldl (fun m n => m + 2 ^ n) 0

/-- The oldest waiting check may start now: at the first boundary after its request and after the last check ended. -/
def IcvSt.refReady (i : IcvSt) (mt : Nat) : Bool :=
  i.run.isNone && (match i.endedAt with
    | some t => decide (t < mt)
    | none => true) &&
  (match i.queue with
    | [] => false
    | r :: _ => decide (r.askedAt < mt))

/-- A converter whose sums of a reference check begin anew. -/
def CnvSt.noRef (c : CnvSt) : CnvSt := { c with ref1 := (0, 0), ref2 := (0, 0), refCov := false }

/-- REFCHECK_START (R314): the oldest waiting check starts at a boundary once none runs; its channels leave their windows. -/
def execRefcheckStart (l : LaneId) (s : State) : Out :=
  s.on l (fun L => L.up && L.hedgeUp && L.atBoundary && L.icv.refReady L.mtN) (fun L =>
    match L.icv.queue with
    | [] => L
    | r :: rest =>
      let periods := (r.win + L.period - 1) / L.period
      let st := L.stimMask r.mask
      let run : RefRun := {
        req := r, startAt := L.mtN, stim := st, endAt := L.mtN + periods * L.periodT, len := periods * L.period * 10 }
      let L1 := { L with cnvs := L.cnvs.map CnvSt.noRef }
      (L1.onIcv (fun i => { i with queue := rest, held := i.held ||| r.mask, run := some run })).putB
        F.ICV_WSTAT_STIM (st != 0))

/-- A rising voted ENA or ASC aborts a stimulus check of its bridge (R315). -/
def Lane.stimAbort (L : Lane) (k : Nat) : Lane :=
  match L.icv.run with
  | none => L
  | some r =>
    let hit := r.stim &&& (3 * 4 ^ k)
    if hit = 0 then L
    else
      let left := r.stim - hit
      ((L.onIcv (fun i => { i with run := some { r with stim := left, notRun := r.notRun ||| hit } })).note Ev.ICV_STIM_ABORT).putB
        F.ICV_WSTAT_STIM (left != 0)

/-- The deviations of one checked channel: both halves with L halved in stimulus mode, the whole window in live mode where
R312 lets it be compared. A half without a conversion is not compared. -/
def CnvSt.refDevs (c : CnvSt) (stim : Bool) (len : Nat) (m : RefMeas) : List (Int × Int) :=
  if stim then
    (if c.ref1.2 = 0 then [] else [deviation c.ref1.1 c.ref1.2 m.n1 (len / 2)]) ++
    (if c.ref2.2 = 0 then [] else [deviation c.ref2.1 c.ref2.2 m.n2 (len / 2)])
  else if c.ref1.2 < 8 || m.ovl || c.refCov then [] else [deviation c.ref1.1 c.ref1.2 m.n1 len]

/-- REFCHECK_END (R314): the window ends and the converters that ran are judged; the requester's outcome is kept for it. -/
def execRefcheckEnd (l : LaneId) (meas : List RefMeas) (s : State) : Out :=
  s.on l (fun L => L.up && (match L.icv.run with
      | some r => decide (r.endAt ≤ L.mtN)
      | none => false)) (fun L =>
    match L.icv.run with
    | none => L
    | some r =>
      let ran := (List.range 8).filter (fun n => bit r.req.mask n && !bit r.notRun n)
      let m := fun n => meas.getD n { n1 := 0, n2 := 0, ovl := false }
      let devs := fun n => (L.cnv n).refDevs (bit r.stim n) r.len (m n)
      let mask := fun (p : Nat → Bool) => (ran.filter p).foldl (fun x n => x + 2 ^ n) 0
      let pass := mask (fun n => (devs n).all L.devOk)
      let fail := mask (fun n => !(devs n).all L.devOk)
      let worst := (ran.flatMap devs).foldl (fun w d => max w (divR d.1 d.2).natAbs) 0
      let L1 := (List.range 8).foldl (fun K n => if bit r.stim n then
        (K.putS F.ICV_RES_N (m n).n1 0 n).putS F.ICV_HRES_N (m n).n2 0 n else K) L
      let live := mask (fun n => !bit r.stim n)
      let L2 := (L1.setReg R.CNV_SQ_REFRES (pass + 0x100 * fail + 0x10000 * (r.notRun % 256) + 0x1000000 * live)).put
        F.CNV_SQ_REFDEV_WORST (satU 65535 worst)
      let L3 := (L2.onIcv (fun i => { i with
        run := none
        endedAt := some L.mtN
        last := i.last ++ [({ by_ := r.req.by_, pass := pass, worst := satU 65535 worst } : RefRes)] })).put
        F.ICV_WSTAT_STIM 0
      let L4 := L3.putB F.CNV_SQ_REFCHK_BUSY (!L3.icv.queue.isEmpty)
      if r.req.by_ = .forming ∨ r.req.by_ = .graft then
        let L5 := { L4 with ozl := { L4.ozl with refPass := L4.ozl.refPass ||| pass } }
        if r.notRun = 0 then L5 else L5.refAsk r.notRun r.req.win r.req.by_
      else L4)

end Sys2Proof.Machine
end

