-- ==== Sys2Proof/Machine/Flags.lean ====
section
/-!
DEFINITION. Machine/Flags.lean: the flags other parts of a lane see of a block: its error source and its other interrupt lines
(R58, R61, the block openings of the chapters), the source lines and the gate-state word of an IRQ transfer (Table 7.7).
-/

namespace Sys2Proof.Machine

/-- A block instance's error source is asserted: (ESTAT AND EIE) is not zero (R58). -/
def Lane.errLine (L : Lane) (b : Blk) (n : Nat := 0) : Bool := (L.reg (H.ESTAT b) n &&& L.reg (H.EIE b) n) != 0

/-- A line that stands while some index below `m` of a register field satisfies `p`. -/
def anyIdx (m : Nat) (p : Nat → Bool) : Bool := (List.range m).any p

/-- A source asserted in the Hedge (Table 1.13; chapters 2, 7, 8, 10, 16). Source 19 has no stated condition (log 32). -/
def Lane.hedgeSrc (L : Lane) : Nat → Bool
  | 18 => L.errLine .sdl
  | 22 => L.errLine .hsf
  | 23 => bits (L.reg R.HSF_VIOL) 0 8 != 0
  | 64 => L.errLine .gd
  | 65 => L.is F.GD_GMODE_HOFF
  | 66 => !L.is F.GD_ALIVE_RUN
  | 67 => L.is F.GD_SOPOVD_OVD
  | 68 => L.errLine .prot
  | 69 => L.is F.PROT_VM_OVR1
  | 70 => L.is F.PROT_SCSTAT_TRIP
  | 71 => L.is F.PROT_LATCH_LATCH
  | 72 => L.errLine .icv
  | 73 => L.is F.ICV_WSTAT_WDONE && L.is F.ICV_WSTAT_WDIE
  | 76 => L.errLine .ths
  | 77 => L.is F.THS_STAT_DIESD || L.is F.THS_STAT_REFSD || L.is F.THS_STAT_TDSD
  | 78 => L.is F.THS_STAT_OPEN
  | 79 => L.errLine .hlnk
  | _ => false

/-- The sources an IRQ transfer carries, in the order of Table 7.7. -/
def irqSources : List Nat := [18, 19, 22, 23, 64, 65, 66, 67, 68, 69, 70, 71, 72, 73, 76, 77, 78, 79]

/-- The Hedge's source lines, bit n = source n. -/
def Lane.hedgeLines (L : Lane) : Nat :=
  irqSources.foldl (fun m n => m + b2n (L.hedgeSrc n) * 2 ^ n) 0

/-- The gate-state word: beat 1 of Table 7.7. -/
def Lane.gateState (L : Lane) : Nat :=
  b2n (L.hedgeSrc 78) + 2 * b2n (L.hedgeSrc 79) + 4 * b2n (L.is F.GD_LSTOP_HSTOP) + 8 * b2n (L.is F.PROT_VM_OVR1)
    + 0x10 * L.get F.GD_GMODE_HASC + 0x100 * L.get F.GD_GMODE_HOFF + 0x1000 * L.get F.GD_GMODE_GRDY

/-- Beat 0 of Table 7.7. -/
def Lane.irqBeat0 (L : Lane) : Nat :=
  ((irqSources.take 16).zip (List.range 16)).foldl (fun m p => m + b2n (L.hedgeSrc p.1) * 2 ^ p.2) 0

/-- The source is the odd one of a pair of the instances `base + 2n`: instance n. -/
def pairInst (base src : Nat) : Nat := (src - base) / 2

/-- The level of a source at the interrupt controller (R58). The sources the Hedge reports stand as the last IRQ transfer carried them
(R59, R62); those an event asserts reach the pending bits through `Lane.pulse` (log 9); those the spec gives no condition are never
asserted (log 32). -/
def Lane.source (L : Lane) (src : Nat) : Bool :=
  if irqSources.contains src then bit L.link.irqLines src || (src == 79 && L.link.downLine)
  else match src with
  | 1 => L.errLine .sys
  | 3 => L.errLine .pwr
  | 4 => L.is F.PWR_WAKE_NEW
  | 5 => L.errLine .clk
  | 8 => L.errLine .trio
  | 12 => L.errLine .cmdq
  | 13 => L.get F.CMDQ_CPL_TAIL_TAIL != L.get F.CMDQ_CPL_HEAD_HEAD
  | 14 => anyIdx 4 (fun n => nthB L.cmdq.starved n && L.get F.CMDQ_RING_FREE_FREE 0 n != 0)
  | 16 => L.errLine .ozl
  | 20 => L.errLine .saf
  | 21 => L.reg R.SAF_VIOL != 0
  | 40 => L.errLine .pos
  | 41 => anyIdx 20 (fun c => bit (L.rd (R.POS_CMP_CTL.addr 0 (c / 2) + 0x10 * (c % 2))).toNat 8
      && bit (L.rd (R.POS_CMP_CTL.addr 0 (c / 2) + 0x10 * (c % 2))).toNat 5)
  | 42 => anyIdx 2 (fun n => L.is F.POS_PRB_CFG_VALID 0 n && L.is F.POS_PRB_CFG_IE 0 n)
  | 43 => anyIdx 4 (fun n => L.is F.POS_SENT_SER_NEW 0 n)
  | 74 => L.errLine .hk
  | 80 => L.errLine .bist
  | 81 => L.is F.BIST_SLICE_DONE
  | 82 => L.is F.BIST_FRES_DONE
  | 84 => L.errLine .alm
  | 96 => L.errLine .flx
  | 97 => (L.get F.FLX_EVT_CPI &&& bits (L.get F.FLX_EVT_IE) 0 4) != 0
  | 98 => anyIdx 4 (fun w => (L.is F.FLX_TXEV_BUF 0 w && L.is F.FLX_EVIE_TX) || (L.is F.FLX_RXEV_BUF 0 w && L.is F.FLX_EVIE_RX))
  | 99 => (L.is F.FLX_EVT_CYCST && L.fbit F.FLX_EVT_IE 4) || (L.is F.FLX_EVT_POCCHG && L.fbit F.FLX_EVT_IE 5)
  | 100 => L.errLine .eth
  | 101 => anyIdx 3 (fun p => L.is F.ETH_PORT_STAT_LCHG 0 p)
  | 108 => L.errLine .twp
  | 109 => !L.twp.rxq.isEmpty
  | 111 => L.is F.TWP_PAIROFS_SILENT
  | 112 => L.errLine .preq
  | 116 => L.errLine .nvmc
  | 118 => L.errLine .msup
  | 120 => L.errLine .dbg
  | _ =>
    if 24 ≤ src ∧ src < 40 then
      let n := pairInst 24 src
      if src % 2 = 0 then L.errLine .cnv n else (bits (L.reg R.CNV_EVT n) 0 3 &&& L.get F.CNV_EVT_IE n) != 0
    else if 48 ≤ src ∧ src < 56 then
      let n := pairInst 48 src
      if src % 2 = 0 then L.errLine .drv n else (bits (L.reg R.DRV_EVT n) 0 6 &&& L.get F.DRV_EVIE_EN n) != 0
    else if 56 ≤ src ∧ src < 64 then
      let n := pairInst 56 src
      if src % 2 = 0 then L.errLine .loop n else L.is F.LOOP_DONE_DONE n && L.is F.LOOP_ECTL_DONE_IE n
    else if 88 ≤ src ∧ src < 96 then
      let n := pairInst 88 src
      if src % 2 = 0 then L.errLine .can n
      else anyIdx 4 (fun w => (L.is F.CAN_TXEV_OBJ n w && L.is F.CAN_EVIE_TX n) || (L.is F.CAN_RXEV_OBJ n w && L.is F.CAN_EVIE_RX n))
    else false

end Sys2Proof.Machine
end

