-- ==== Sys2Proof/Machine/CanOps.lean ====
section
/-!
DEFINITION. Machine/CanOps.lean: message objects, payload pool, storing a received frame and requesting a transmission in a CAN
controller (R406 to R414, R418), as its own commands and the twin-path engine use them.
-/

namespace Sys2Proof.Machine

/-- The state of a CAN controller changed by a function. -/
def Lane.onCan (L : Lane) (n : Nat) (f : CanSt → CanSt) : Lane := { L with can := L.can.set n (f (L.can.getD n {})) }

/-- The state of a CAN controller. -/
def Lane.canSt (L : Lane) (n : Nat) : CanSt := L.can.getD n {}

/-- Address of a word of a message object (R409). -/
def objAddr (n m off : Nat) : Nat := 0x40104000 + 0x10000 * n + 0x80 * m + off

/-- Address of a byte of the payload pool. -/
def poolAddr (n k : Nat) : Nat := 0x40108000 + 0x10000 * n + k

/-- A field of a message object: word offset, lowest bit, width. -/
def Lane.og (L : Lane) (n m off lo w : Nat) : Nat := bits (L.memWord (objAddr n m off)).toNat lo w

/-- A field of a message object set. -/
def Lane.op (L : Lane) (n m off lo w v : Nat) : Lane :=
  let a := objAddr n m off
  L.setMemWord a (BitVec.ofNat 32 (putBits (L.memWord a).toNat lo w v))

/-- A bit of a 128-bit set of registers (TXEV, RXEV) set. -/
def Lane.setEv (L : Lane) (r : Reg) (n m : Nat) : Lane := L.raise r (2 ^ (m % 32)) n (m / 32)

/-- The read lock of an object, if it is held. -/
def CanSt.lockOf (c : CanSt) (m : Nat) : Option RdLock := c.locks.find? (fun k => k.obj == m)

/-- A transmit request of some object is pending. -/
def Lane.canPending (L : Lane) (n : Nat) : Bool := (List.range 128).any (fun m => L.og n m 0 19 1 == 1)

/-- The controller's ON vote on its domain (R418): a pending request, or a frame in the last 1 s. -/
def Lane.canVote (L : Lane) (n : Nat) : Lane :=
  L.vote (4 + n) 10 (if L.canPending n || decide (L.now < (L.canSt n).lastFrame + sec 1) then 2 else 0)

/-- A frame sent or received keeps the vote for 1 s. -/
def Lane.canTraffic (L : Lane) (n : Nat) : Lane := (L.onCan n (fun c => { c with lastFrame := L.now })).canVote n

/-! ### Storing a received frame (R409, R410, R413) -/

/-- A frame written into an object in one update: NEWDAT, MSGLST over an unread frame, TS, OSEQ, RXEV. -/
def Lane.objStore (L : Lane) (n m : Nat) (f : CanFrame) : Lane :=
  let len := f.data.length
  let lost := L.og n m 0 16 1 == 1
  let L1 := if lost then (L.op n m 0 17 1 1).note Ev.CAN_MSGLST n else L
  let L2 := (((L1.op n m 0 16 1 1).op n m 0 8 1 (b2n f.rtr)).op n m 0x04 0 29 f.id.toNat).op n m 0x04 29 1 (b2n f.ide)
  let L3 := if f.fmt = 2 then
      (((L2.op n m 0x0C 0 8 f.sdt.toNat).op n m 0x0C 8 8 f.vcid.toNat).op n m 0x0C 16 1 (b2n f.sec)).op n m 0x10 0 32 f.af.toNat
    else (L2.op n m 0x14 12 4 f.dlc.toNat).op n m 0x14 16 1 (b2n f.esi)
  let L4 := (L3.op n m 0x14 0 12 len).op n m 0x18 0 32 f.ts.toNat
  let at_ := if 64 < len then poolAddr n (64 * L4.og n m 0x14 20 9) else objAddr n m 0x1C
  let L5 := ((L4.setMemBytes at_ f.data).unpoisonIn at_ (at_ + len)).unpoisonIn (objAddr n m 0) (objAddr n m 0x1C)
  (L5.op n m 0x7C 0 16 (L5.og n m 0x7C 0 16 + 1)).setEv R.CAN_RXEV n m

/-- A frame for an object: dropped when its payload does not fit PCAP or the pool, held while the object is locked (R412),
stored otherwise. -/
def Lane.objTake (L : Lane) (n m : Nat) (f : CanFrame) : Lane :=
  let len := f.data.length
  if 64 < len ∧ (L.og n m 0x0C 24 8 * 64 < len ∨ 0x8000 < 64 * L.og n m 0x14 20 9 + len) then
    (L.op n m 0 17 1 1).note Ev.CAN_RX_TOOLONG n
  else if ((L.canSt n).lockOf m).isSome then
    if (L.canSt n).hold.length < 4 then L.onCan n (fun c => { c with hold := c.hold ++ [(m, f)] })
    else ((L.op n m 0 17 1 1).incSat F.CAN_CNT_HOLDOVF n).note Ev.CAN_HOLD_OVF n
  else L.objStore n m f

/-- An object accepts a frame; of an XL frame only the priority identifier is matched. -/
def Lane.objAccepts (L : Lane) (n m : Nat) (f : CanFrame) : Bool :=
  let xl := f.fmt == 2
  let mask := L.og n m 0x08 0 29 &&& (if xl then 0x1FFC0000 else 0x1FFFFFFF)
  let x := (L.og n m 0x04 0 29) ^^^ f.id.toNat
  L.og n m 0 0 2 == 1 && bit (L.og n m 0 4 3) f.fmt.val && (x &&& mask) == 0 &&
    (xl || L.og n m 0x08 29 1 == 0 || L.og n m 0x04 29 1 == b2n f.ide)

/-- A frame stored into the lowest-numbered object that accepts it, or counted in RXDROP. -/
def Lane.canStore (L : Lane) (n : Nat) (f : CanFrame) : Lane :=
  match (List.range 128).find? (fun m => L.objAccepts n m f) with
  | some m => L.objTake n m f
  | none => L.incSat F.CAN_CNT_RXDROP n

/-- An object's lock gone: the frames held for it written in arrival order (R412). -/
def Lane.objRelease (L : Lane) (n m : Nat) : Lane :=
  let held := (L.canSt n).hold.filter (fun h => h.1 == m)
  let L1 := (L.op n m 0 18 1 0).onCan n (fun c => { c with
    locks := c.locks.filter (fun k => k.obj != m), hold := c.hold.filter (fun h => h.1 != m) })
  held.foldl (fun K h => K.objStore n m h.2) L1

/-! ### Transmit requests (R410, R414) -/

/-- Length as it is sent: at most 8 classical, the next FD size, LEN itself for XL (R410). -/
def sentLen (fmt len : Nat) : Nat :=
  if fmt = 0 then min len 8
  else if fmt = 1 then
    ([0, 1, 2, 3, 4, 5, 6, 7, 8, 12, 16, 20, 24, 32, 48, 64].find? (fun k => decide (len ≤ k))).getD 64
  else len

/-- DLC of a length of a classical or FD frame. -/
def dlcOf (k : Nat) : Nat :=
  if k ≤ 8 then k
  else if k = 12 then 9 else if k = 16 then 10 else if k = 20 then 11 else if k = 24 then 12 else if k = 32 then 13
  else if k = 48 then 14 else 15

/-- Where an object's payload lies: in the pool above 64 bytes, else in the object (R410). -/
def Lane.objPayload (L : Lane) (n m : Nat) : Nat :=
  if 64 < L.og n m 0x14 0 12 then poolAddr n (64 * L.og n m 0x14 20 9) else objAddr n m 0x1C

/-- A word of the object or of its payload is uncorrectable (R413): the first such word that is poisoned. -/
def Lane.objPoison (L : Lane) (n m : Nat) : Option Nat :=
  if L.poisonedIn (objAddr n m 0) 0x80 then some (objAddr n m 0)
  else if L.poisonedIn (L.objPayload n m) (L.og n m 0x14 0 12) then some (L.objPayload n m)
  else none

/-- The frame an object sends. -/
def Lane.objFrame (L : Lane) (n m : Nat) (ts : Word) : CanFrame :=
  let fmt := L.og n m 0 4 3
  let len := L.og n m 0x14 0 12
  let k := sentLen fmt len
  let at_ := L.objPayload n m
  let rtr := fmt == 0 && L.og n m 0 8 1 == 1
  { fmt := if fmt = 0 then 0 else if fmt = 1 then 1 else 2
    ide := L.og n m 0x04 29 1 == 1
    id := BitVec.ofNat 29 (L.og n m 0x04 0 29)
    rtr := rtr
    dlc := BitVec.ofNat 4 (dlcOf k)
    esi := false
    sdt := BitVec.ofNat 8 (L.og n m 0x0C 0 8)
    vcid := BitVec.ofNat 8 (L.og n m 0x0C 8 8)
    sec := L.og n m 0x0C 16 1 == 1
    af := BitVec.ofNat 32 (L.og n m 0x10 0 32)
    data := if rtr then [] else L.memBytes at_ (min len k) ++ List.replicate (k - min len k) 0
    ts := ts }

/-- A transmit request of an object: refused where MODE is not 2, or its payload runs past the pool; a cancel in the same cycle
wins. -/
def Lane.objRequest (L : Lane) (n m : Nat) : Lane :=
  let len := L.og n m 0x14 0 12
  if L.og n m 0 0 2 ≠ 2 then L.note Ev.CAN_CFG_ERR n
  else if 64 < len ∧ 0x8000 < 64 * L.og n m 0x14 20 9 + len then (L.op n m 0 20 2 2).note Ev.CAN_CFG_ERR n
  else if (L.canSt n).cancNow.1 = L.now ∧ (L.canSt n).cancNow.2.contains m then L.op n m 0 20 2 3
  else L.op n m 0 19 1 1

/-- An object's request ended with TXRES and TXEV. -/
def Lane.objEnd (L : Lane) (n m res : Nat) : Lane :=
  let L1 := (((L.op n m 0 19 1 0).op n m 0 20 2 res).op n m 0x7C 0 16 (L.og n m 0x7C 0 16 + 1)).setEv R.CAN_TXEV n m
  L1.onCan n (fun c => { c with cancels := c.cancels.filter (fun x => x != m) })

end Sys2Proof.Machine
end

