-- ==== Sys2Proof/Machine/FlxOps.lean ====
section
/-!
DEFINITION. Machine/FlxOps.lean: message buffers, the POC state and the domain vote of FLX (R424, R430, R433, R441), as its own
commands, tests and the twin-path engine use them.
-/

namespace Sys2Proof.Machine

/-- FLX's hidden state changed by a function. -/
def Lane.onFlx (L : Lane) (f : FlxSt → FlxSt) : Lane := { L with flx := f L.flx }

/-- Address of a word of a buffer's header, and of a byte of the pool. -/
def bufAddr (m off : Nat) : Nat := 0x40144000 + 0x10 * m + off
def flxPool (k : Nat) : Nat := 0x40148000 + k

/-- A field of a buffer's header. -/
def Lane.bg (L : Lane) (m off lo w : Nat) : Nat := bits (L.memWord (bufAddr m off)).toNat lo w

/-- A field of a buffer's header set. -/
def Lane.bp (L : Lane) (m off lo w v : Nat) : Lane :=
  L.setMemWord (bufAddr m off) (BitVec.ofNat 32 (putBits (L.memWord (bufAddr m off)).toNat lo w v))

/-- The present state of POC. -/
def Lane.poc (L : Lane) : Nat := L.get F.FLX_POC_STATE

/-- A buffer has a committed payload. -/
def Lane.flxPending (L : Lane) : Bool := (List.range 128).any (fun m => L.bg m 8 8 1 == 1)

/-- FLX's ON vote on its domain (R441): STARTUP, NORMAL_ACTIVE, NORMAL_PASSIVE, or a pending buffer. -/
def Lane.flxVote (L : Lane) : Lane :=
  let st := L.poc
  L.vote 8 9 (if st = 3 ∨ st = 4 ∨ st = 5 ∨ L.flxPending then 2 else 0)

/-- STATE entered, EVT.POCCHG set where it changed. -/
def Lane.setPoc (L : Lane) (st : Nat) : Lane :=
  if L.poc = st then L else ((L.put F.FLX_POC_STATE st).flag F.FLX_EVT_POCCHG).flxVote

/-- Listening again: no hold, no lead, the listen timeout runs from now. -/
def Lane.flxListen (L : Lane) (caut : Bool) : Lane :=
  let L1 := (((L.put F.FLX_POC_CAUTHOLD 0).put F.FLX_POC_TXINH 0).put F.FLX_POC_PCAUSE 0).onFlx (fun x => { x with
    listenAt := L.now, lead := false, holdFull := false, fails := 0, inLim := 0, passive := 0, cautNext := x.cautNext || caut })
  L1.setPoc 3

/-- A cycle number matches base and repetition 2^rep (7 behaves as 6). -/
def cycMatch (cyc base rep : Nat) : Bool := cyc % 2 ^ (min rep 6) == base % 2 ^ (min rep 6)

/-- Some cycle number matches two filters. -/
def cycMeet (b1 r1 b2 r2 : Nat) : Bool := cycMatch b1 b2 (min r1 r2)

/-- A commit of a transmit buffer (R433). -/
def Lane.bufRequest (L : Lane) (m : Nat) : Lane :=
  if L.bg m 0 0 2 = 2 then
    let new := if L.bg m 8 8 1 = 1 then [] else [m]
    (L.bp m 8 8 1 1).onFlx (fun x => { x with commits := (L.now, new ++ (if x.commits.1 = L.now then x.commits.2 else [])) })
  else L

/-- A committed payload waits that was not committed in this very cycle: a commit in the cycle of a take is sent at the next matching
cycle (R433). -/
def Lane.bufReady (L : Lane) (m : Nat) : Bool :=
  L.bg m 8 8 1 == 1 && !(L.flx.commits.1 == L.now && L.flx.commits.2.contains m)

/-- A word of the buffer's header or payload is poisoned (R397, R440). -/
def Lane.bufPoison (L : Lane) (m : Nat) : Option Nat :=
  if L.poisonedIn (bufAddr m 0) 0x10 then some (bufAddr m 0)
  else if L.poisonedIn (flxPool (8 * L.bg m 4 8 12)) (2 * L.bg m 4 0 7) then some (flxPool (8 * L.bg m 4 8 12))
  else none

end Sys2Proof.Machine
end

