-- ==== Sys2Proof/Machine/AlmOps.lean ====
section
/-!
DEFINITION. Machine/AlmOps.lean: the Almanac's live record as the other blocks reach it (R518, R519, R522), and the shared part of
the life cycle: the drawing lane (R526) and the confirmations of a transition (R527).
-/

namespace Sys2Proof.Machine

/-- The calendar, in seconds (R520). -/
def Lane.cal (L : Lane) : Nat := L.reg R.ALM_CAL

/-- The lane is the member lane first in the order A, B, C (R526). -/
def Lane.drawer (L : Lane) : Bool :=
  L.isMember L.strap && !(LaneId.all.any (fun x => decide (x.idx < L.strap.idx) && L.isMember x))

/-- A new challenge taken. The one before it is remembered where no LIFECYCLE with a code has used it: a code computed for it is not
a wrong one (R526). -/
def Lane.takeChal (L : Lane) (w : Word) : Lane :=
  let old := L.rd (R.SYS_LC_CHAL.addr 0 0)
  if w = old then L
  else (L.setReg R.SYS_LC_CHAL w.toNat).onAlm (fun a => { a with
    oldChal := if a.chalUsed || old == 0 then none else some old, chalUsed := false })

/-- A new challenge drawn by the drawing lane. -/
def Lane.drawChal (L : Lane) (w : Word) : Lane := if L.drawer then L.takeChal w else L

/-- A peer's confirmation of the transition in progress (R527). -/
def Lane.lcPeer (L : Lane) (peer : LaneId) (target : Nat) : Lane :=
  match L.alm.lc with
  | some r =>
    if r.target = target then
      L.onAlm (fun a => { a with lc := some { r with conf := BitVec.ofNat 3 (putBits r.conf.toNat peer.idx 1 1) } })
    else L
  | none => L

/-- A mark written at MARKNEXT of the live record (Table 17.5); the offset of the entry used. -/
def Lane.almMark (L : Lane) (code origin : Nat) (data : List Byte) : Lane × Nat :=
  let k := L.almGet 0x011 1
  let a := 0x5B0 + 24 * k
  let L1 := ((L.almPut a 4 L.cal).almPut (a + 4) 1 code).almPut (a + 5) 3 origin
  let L2 := (List.range 16).foldl (fun K i => K.almPut (a + 8 + i) 1 (data.getD i 0).toNat) L1
  (L2.almPut 0x011 1 ((k + 1) % 16), a)

/-! ### The ring of NVM (R521, R522) -/

/-- The Almanac alarm's or a request's write begun: BUSY, the record frozen for 20 us, client 0x0A's votes (R521, Table 15.2). A RETIRED
part writes no more (R529), and without its service pair, which makes the write, a lane makes none. -/
def Lane.almBegin (L : Lane) : Lane :=
  if L.is F.ALM_STAT_BUSY || L.get F.SYS_LC_STATE == 4 || L.is F.TRIO_SVC_PRUNED then L
  else ((([2, 11, 12].foldl (fun K d => K.putVote d 10 2) L).followVotes 10).put F.ALM_STAT_BUSY 1).onAlm
    (fun a => { a with copy := a.rcd, snapEnd := L.now + us 20 })

/-- The slot with the highest GEN among those that satisfy `p`. -/
def newestSlot (p : AlmSlot → Bool) (slots : List (Option AlmSlot)) : Option (Nat × AlmSlot) :=
  (slots.zipIdx.foldl (fun best e => match e.1, best with
    | some c, none => if p c then some (e.2, c) else none
    | some c, some b => if p c && decide (b.2.gen < c.gen) then some (e.2, c) else best
    | none, _ => best) none)

/-- The calendar restarted from the newest valid record after a Hedge power-on, CALSTALE set (R520). -/
def Lane.calRestart (L : Lane) : Lane :=
  let cal := match newestSlot (fun c => c.ok) L.alm.slots with
    | some (_, c) => (c.rcd.filter (fun x => decide (8 ≤ x.1) && decide (x.1 < 12))).foldl
        (fun n x => n + x.2.toNat * 0x100 ^ (x.1 - 8)) 0
    | none => 0
  (L.setReg R.ALM_CAL cal).put F.ALM_STAT_CALSTALE 1

/-- Boot load of the live record after a Hedge power-on: the newest valid slot, ALM_TORN where a later one is torn, a new record
where there is none; DCYC counts the power-on (R522). -/
def Lane.almLoad (L : Lane) : Lane :=
  if L.alm.loaded then L
  else
    let any := newestSlot (fun _ => true) L.alm.slots
    let L1 := match newestSlot (fun c => c.ok) L.alm.slots with
      | some (k, c) =>
        let K := (L.onAlm (fun a => { a with rcd := c.rcd, loaded := true })).put F.ALM_STAT_SLOT k
        match any with
        | some (_, d) => if c.gen < d.gen then K.note Ev.ALM_ALM_TORN else K
        | none => K
      | none =>
        let K := (L.onAlm (fun a => { a with rcd := [], loaded := true })).almPut 0x000 4 0x414C0001
        (K.almPut 0x014 1 L.strap.idx).note Ev.ALM_ALM_NEW
    (L1.almInc 0x00C 4).almPut 0x015 1 (b2n (L1.is F.ALM_STAT_CALSTALE))

/-- An Almanac write cut short by a loss of power: the slot being programmed is torn (R522). -/
def Lane.almTear (L : Lane) : Lane :=
  if L.is F.ALM_STAT_BUSY then
    let k := (L.get F.ALM_STAT_SLOT + 1) % 32
    (L.put F.ALM_STAT_BUSY 0).onAlm (fun a => { a with slots := a.slots.set k (some ⟨L.almGet 0x004 4 + 1, false, []⟩) })
  else L

/-- The sleep request (R489, R490, R491): held while a frequency level change runs, then the check cycle. -/
def Lane.sleepReq (L : Lane) (wake : Option Nat) : Lane :=
  let L1 := L.put F.PWR_SLEEP_BUSY 1
  if L1.is F.CLK_LEVEL_BUSY then L1.onPwr (fun w => { w with sleep := .held }) else L1.sleepCheck wake

end Sys2Proof.Machine
end

