-- ==== Sys2Proof/Machine/ResetOps.lean ====
section
/-!
DEFINITION. Machine/ResetOps.lean: the element reset of a block (R51), as SRST, a weeding slice (R384) and a fallow restart
(R390) use it, and what a lane reset makes of the logic die (Table 1.8, R530).
-/

namespace Sys2Proof.Machine

/-- Registers that show the state of elements, domains and fuses, which no element reset changes: the keeping bits of a word.
R551, R552: the state of elements is not reset, nor what shows it; R381: what is pruned stays so; R29: AON_XTAL_LOST; R520, R419: the
AON registers; Table 1.9: identity, whose reset values are the fuses and the Hedge's (log 26). -/
def stateMask (a : Nat) : Nat :=
  match blockAt a with
  | some (.sys, _, o) => if lastingReg a ∨ (0x70 ≤ o ∧ o < 0x80) then 0xFFFFFFFF else 0
  | some (.clk, _, o) => if o = 0x08 then 0x100 else 0
  | some (.bist, _, o) => if R.BIST_PRUNE_0.off ≤ o then 0xFFFFFFFF else 0
  | some (.msup, _, o) => if o = R.MSUP_SRAM.off ∨ o = R.MSUP_REPAIR.off then 0xFFFFFFFF else 0
  | some (.trio, _, o) => if o = R.TRIO_MODE.off then 0x700 else if o = R.TRIO_SVC.off then 0x4 else 0
  | some (.hk, n, o) =>
    if R.HK_TEMP.addr n 0 ≤ R.HK_TEMP.addr n 0 + o - R.HK_TEMP.off ∧ R.HK_TEMP.off ≤ o ∧ o < R.HK_TEMP.off + 8 * R.HK_TEMP.stride
    then 0x20000 else 0
  | some (.pwr, _, o) =>
    if R.PWR_D_STAT.off ≤ o ∧ (o - R.PWR_D_STAT.off) % R.PWR_D_STAT.stride = 0 then 0xFFFFFFFF else 0
  | _ => if aonReg a then 0xFFFFFFFF else 0

/-- The bits of a register that an element reset keeps (R51): ESTAT, LBCFG (its COUNT, and its sealed fields), the history queue,
STAT.LOCKED, sealed fields, and those of `stateMask`. -/
def keepMask (a : Nat) : Nat :=
  match blockAt a with
  | some (b, _, o) =>
    if o = 0x0C ∨ o = 0x14 ∨ (0x20 ≤ o ∧ o < 0x40) then 0xFFFFFFFF
    else if o = 0x08 then 8 ||| stateMask a
    else stateMask a ||| (match findRow b o with
      | some r => r.sealed
      | none => 0)
  | none => 0xFFFFFFFF

/-- The register words of the addresses that satisfy `p` returned to their reset values, but for the bits `keep` names. -/
def Lane.resetRegs (L : Lane) (p : Nat → Bool) (keep : Nat → Nat) : Lane :=
  { L with regs := L.regs.filterMap (fun e =>
      if p e.1 then
        let k := BitVec.ofNat 32 (keep e.1)
        let r := resetWord L.strap e.1
        let v := (e.2 &&& k) ||| (r &&& ~~~k)
        if v = r then none else some (e.1, v)
      else some e) }

/-- A register address of a block instance. -/
def inBlk (b : Blk) (n a : Nat) : Bool :=
  match blockAt a with
  | some (c, m, _) => c == b && m == n
  | none => false

/-- What a block instance holds beside registers, at its state after an element reset; operations in progress are abandoned. -/
def Lane.blkHidden (L : Lane) (b : Blk) (n : Nat) : Lane :=
  match b with
  | .cnv => { L with cnvs := L.cnvs.set n {} }
  | .cnvSq => { L with icv := { L.icv with queue := [], run := none, last := [] } }
  | .pos =>
    let p := L.pos
    { L with pos := { ({} : PosSt) with
      henc := p.henc, hcnt := p.hcnt, hsent := p.hsent, hs0 := p.hs0, hprev := p.hprev, miss := p.miss, hit := p.hit } }
  | .drv => { L with drive := { L.drive with eng := L.drive.eng.set n {}, eff := L.drive.eff.filter (fun e => !inBlk .drv n e.1) } }
  | .loop => { L with loops := L.loops.set n {} }
  | .can => { L with can := L.can.set n { ({} : CanSt) with woke := (L.can.getD n {}).woke } }
  | .flx => { L with flx := { ({} : FlxSt) with cautNext := true, woke := L.flx.woke } }
  | .eth => { L with eth := {} }
  | .twp => { L with twp := {} }
  | .cmdq => { L with cmdq := { ({} : CmdqSt) with busData := L.cmdq.busData } }
  | .trio => { L with trio := { ({} : TrioSt) with cores := L.trio.cores, pmp := L.trio.pmp, appRuns := L.trio.appRuns } }
  | .saf => { L with saf := {} }
  | .ozl => { L with ozl := { ({} : OzlSt) with cdig := L.ozl.cdig, chkFaults := L.ozl.chkFaults } }
  | .hk => { L with hk := {} }
  | .preq => { L with pwr := { L.pwr with queue := [], run := none } }
  | .clk => { L with clk := { L.clk with phase := .idle, nextLevel := none, skipTick := false, driftSince := none } }
  | .msup => { L with test := { L.test with scrubAt := none, fixedNow := [], fixedLast := [], remap := none, decAt := L.now } }
  | .bist => { L with test := { L.test with cover := List.replicate 43 0, turn := 0, schedAt := L.now } }
  | .icv => { L with icv := { L.icv with winK := none, due := none, results := false, held := 0, wheld := 0 } }
  | .gd => { L with gate := { L.gate with
      dtFuse := none, sopRun := none, precharge := List.replicate 4 false, ilkAt := [[], [], [], []], ignoredK := none } }
  | .prot => { L with gate := { L.gate with
      odQueue := [], odRun := none, odChop := false, odPass := 0, chopRun := false, scFirst := List.replicate 4 none
      holdEnd := List.replicate 4 none } }
  | .hsf => { L with hsf := { ({} : HsfSt) with lat := L.hsf.lat, sealLost := L.hsf.sealLost } }
  | .sdl => { L with sdl := { ({} : SdlSt) with
      held := L.sdl.held, lineStuck := L.sdl.lineStuck, bothSince := L.sdl.bothSince, oneSince := L.sdl.oneSince
      singleDone := L.sdl.singleDone, agreed := L.sdl.agreed } }
  | .ths => { L with ths := { L.ths with
      past := List.replicate 4 0, clear := List.replicate 4 0, beyond := List.replicate 4 0, refBad := 0, refGood := 0, fuse := none } }
  | .hlnk => { L with link := { L.link with rsp := none } }
  | .alm => { L with alm := { L.alm with snapEnd := L.now, since := 0 } }
  | _ => L

/-- The address ranges of a block's own memories, which its element reset wipes: message memories and the command rings. -/
def blkMem (b : Blk) (n : Nat) : List (Nat × Nat) :=
  match b with
  | .can => [(b.base n + 0x4000, b.base n + 0x10000)]
  | .flx => [(b.base 0 + 0x4000, b.base 0 + 0x10000)]
  | .twp => [(b.base 0 + 0x1000, b.base 0 + 0x10000)]
  | .eth => [(b.base 0 + 0x1000, b.base 0 + 0x10000)]
  | .cmdq => [(b.base 0 + 0x8000, b.base 0 + 0x10000)]
  | _ => []

/-- The state a pruned element keeps over a reset of its block: a drive engine in FAULT, a position channel down, a trio with its
pruned cores out. -/
def Lane.keepPruned (L : Lane) (b : Blk) (n : Nat) : Lane :=
  match b with
  | .drv => if L.pruned (.drv n) then (L.onDrv n (fun d => { d with stAt := L.now })).put F.DRV_STATE_STATE 8 n else L
  | .pos => (List.range 10).foldl (fun K c => if K.pruned (.pos c) then K.chanDown c else K) L
  | .trio =>
    let p := L.get F.TRIO_MODE_PRUNED
    let m := pop3 (7 - p)
    let L1 := (L.put F.TRIO_MODE_LIVE (7 - p)).put F.TRIO_MODE_MODE (if m = 3 then 0 else if m = 2 then 2 else if m = 1 then 3 else 6)
    if L1.is F.TRIO_SVC_PRUNED then L1.put F.TRIO_SVC_LIVE 0 else L1
  | _ => L

/-- The element reset of a block instance (R51), without its event. -/
def Lane.blockReset (L : Lane) (b : Blk) (n : Nat) : Lane :=
  let L0 := if b = .alm then L.almTear else L
  let L1 := (L0.resetRegs (inBlk b n) keepMask).blkHidden b n
  let L2 := ((blkMem b n).foldl (fun K r => K.wipe r.1 r.2) L1).keepPruned b n
  if b = .twp then L2.keepOfs L else L2

/-- The logic-die blocks with their numbers of instances. -/
def logicBlks : List (Blk × Nat) :=
  [(.sys, 1), (.pwr, 1), (.clk, 1), (.trio, 1), (.cmdq, 1), (.ozl, 1), (.saf, 1), (.cnv, 8), (.cnvSq, 1), (.pos, 1), (.drv, 4),
   (.loop, 4), (.hk, 1), (.bist, 1), (.alm, 1), (.can, 4), (.flx, 1), (.eth, 1), (.twp, 1), (.preq, 1), (.nvmc, 1), (.msup, 1),
   (.dbg, 1)]

/-- The memories a fallow restart, a lane reset and a life-cycle transition wipe (R390, R530): TCMs, SRAM, loop-engine and message
memories. -/
def Lane.wipeMems (L : Lane) : Lane := L.wipe 0x10000000 0x50000000

/-- The configuration words of a block instance, as the kernel's copy of them holds them before an element reset (R384). -/
def Lane.configOf (L : Lane) (b : Blk) (n : Nat) : List (Nat × Word × Nat) :=
  L.regs.filterMap (fun e =>
    match blockAt e.1 with
    | some (c, m, o) =>
      if c == b && m == n then
        match findRow b o with
        | some r =>
          let mask := (r.fields.filter (fun f => f.acc == .rw || f.acc == .rwl)).foldl
            (fun x f => x ||| ((2 ^ f.w - 1) * 2 ^ f.lo)) 0
          if mask = 0 then none else some (e.1, e.2, mask)
        | none => none
      else none
    | none => none)

/-- The kernel rewrites a block's configuration (R384). -/
def Lane.rewrite (L : Lane) (cfg : List (Nat × Word × Nat)) : Lane :=
  cfg.foldl (fun K c =>
    let k := BitVec.ofNat 32 c.2.2
    K.wr c.1 ((c.2.1 &&& k) ||| (K.rd c.1 &&& ~~~k))) L

end Sys2Proof.Machine
end

