-- ==== Sys2Proof/Machine/SafOps.lean ====
section
/-!
DEFINITION. Machine/SafOps.lean: what the safety functions share: medians of the members' quantities (R345), levels and limits
(R348, R349), hard-wired safe torque off (R351, R354), what both paths evaluate at a vote boundary (R344 to R353, R356, R357),
the parameter image and its Seal (R362 to R364).
-/

namespace Sys2Proof.Machine

/-- SAF's hidden state changed by a function. -/
def Lane.onSaf (L : Lane) (f : SafSt → SafSt) : Lane := { L with saf := f L.saf }

/-- HSF's hidden state changed by a function. -/
def Lane.onHsf (L : Lane) (f : HsfSt → HsfSt) : Lane := { L with hsf := f L.hsf }

/-- Kind of an actuator, counted from 0: 0 NONE, 1 STEER, 2 CLAMP, 3 LOCK. -/
def Lane.kindOf (L : Lane) (a : Nat) : Nat := L.get (F.CMDQ_ACTKIND_KIND_1.nth 4 a)

/-! ### Medians (R345, R199) -/

/-- The own lane's value of a source code: quantities 0 to 13, speeds 16 to 25; none while it is not valid. -/
def Lane.ownVal (L : Lane) (code : Nat) : Option Int :=
  if code < 14 then
    let q := L.quant code
    if q.valid && !q.fault then some q.val else none
  else if 16 ≤ code ∧ code < 26 then
    let q := L.quant (code - 16)
    if q.svalid && !q.fault then some q.spd else none
  else none

/-- The value of a source code that member `x` holds, as this lane knows it. -/
def Lane.memberVal (L : Lane) (x : LaneId) (code : Nat) : Option Int :=
  if x = L.strap then L.ownVal code
  else
    match L.ozl.sensors.getD (32 * (if x = L.strap.next then 0 else 1) + code) none with
    | some v => if v.valid then some v.value.toInt else none
    | none => none

/-- The members' valid values of a source code; the own one alone in no membership. -/
def Lane.memberVals (L : Lane) (code : Nat) : List Int :=
  let who := LaneId.all.filter L.isMember
  (if who.isEmpty then [L.strap] else who).filterMap (fun x => L.memberVal x code)

/-- Median of up to three values; two give their mean toward zero. -/
def medianOf : List Int → Option Int
  | [] => none
  | [a] => some a
  | [a, b] => some (mean2 a b)
  | a :: b :: c :: _ => some (median3 a b c)

/-- The quantity code an actuator is mapped to: position or speed (SAF_PMAP, SAF_SMAP). -/
def Lane.mapOf (L : Lane) (a : Nat) (speed : Bool) : Nat := bits (L.reg (if speed then R.SAF_SMAP else R.SAF_PMAP)) (8 * a) 8

/-- The members' median of an actuator's position or speed quantity (R345). -/
def Lane.median (L : Lane) (a : Nat) (speed : Bool) : Option Int :=
  let c := L.mapOf a speed
  if (if speed then 16 ≤ c ∧ c < 26 else c < 14) then medianOf (L.memberVals c) else none

/-- The median speed is below the actuator's standstill limit. -/
def Lane.still (L : Lane) (a : Nat) : Bool :=
  match L.median a true with
  | some v => decide (v.natAbs < L.get (if L.kindOf a = 1 then F.SAF_STILL_STEER else F.SAF_STILL_OTHER))
  | none => false

/-- The actuator is at rest (R360): at this boundary and the 10 before it. -/
def Lane.atRest (L : Lane) (a : Nat) : Bool := decide (11 ≤ nthN L.saf.rest a)

/-! ### Levels and limits (R348, R349) -/

/-- The level at a boundary, 0 in no membership: a fall starts its 100 ms, a rise applies at once. -/
def LimitSt.step (m : LimitSt) (now lv : Nat) : LimitSt :=
  if lv = m.prev then m
  else if m.prev = 0 then { prev := lv, held := lv }
  else if lv < m.prev then { m with prev := lv, falls := m.falls ++ [(now, lv)] }
  else { prev := lv, held := lv }

/-- The percentage of the sealed rate limit at a level (R348); with no level, that of L1 (log 144). -/
def slrPct (lv : Nat) : Nat := if lv = 3 then 100 else if lv = 2 then 70 else 30

/-- A limit at a level, floor of the percentage. -/
def slrLimit (lim lv : Nat) : Nat := lim * slrPct lv / 100

/-! ### Hard-wired safe torque off (R351, R354, R355, Table 10.3) -/

/-- HSF_STO and GD_STO.HSF brought in line with the latches and HSF_ARM.SBH: a bridge newly held takes `cause` as its first
cause, SBH where only HSF_ARM holds it. -/
def Lane.hsfShow (L : Lane) (cause : Nat) : Lane :=
  let one (K : Lane) (b : Nat) : Lane :=
    let lat := bit K.hsf.lat.toNat b
    let on := lat || K.fbit F.HSF_ARM_SBH b
    let was := K.fbit F.HSF_STO_ACT b
    let K1 := K.putBit F.HSF_STO_ACT b on
    if on && !was then K1.put (F.HSF_STO_CAUSE_0.nth 3 b) (if lat then cause else 5)
    else if on then K1 else K1.put (F.HSF_STO_CAUSE_0.nth 3 b) 0
  let L1 := [0, 1, 2, 3].foldl one L
  (L1.put F.GD_STO_HSF (L1.get F.HSF_STO_ACT)).gates

/-- A bridge latched by the hard-wired path with its cause. -/
def Lane.hsfLatch (L : Lane) (b cause : Nat) : Lane :=
  (L.onHsf (fun h => { h with lat := BitVec.ofNat 4 (putBits h.lat.toNat b 1 1) })).hsfShow cause

/-- HSF_STO.REQ written (R355). -/
def Lane.hsfRequest (L : Lane) (req : Nat) : Lane :=
  [0, 1, 2, 3].foldl (fun K b =>
    if bit req b then ((K.putBit F.HSF_STO_REQ b true).note Ev.HSF_HSTO_REQ).hsfLatch b 4 else K) L

/-- A hard-wired limit on a bridge is exceeded at the present boundary. -/
def Lane.hsfExceeded (L : Lane) (b : Nat) : Bool :=
  (L.is F.HSF_VIOL_SLA && L.get F.HSF_MAP_S0BR == b) || (L.is F.HSF_VIOL_SLR && L.get F.HSF_MAP_E0BR == b) ||
    (L.is F.HSF_VIOL_SDI0 && L.get F.HSF_MAP_E0BR == b) || (L.is F.HSF_VIOL_SDI1 && L.get F.HSF_MAP_E1BR == b)

/-- HSF_STO.REL written for one bridge (R354); `req` says whether the same write requests it. -/
def Lane.hsfRelease (L : Lane) (b : Nat) (req : Bool) : Lane :=
  if !bit L.hsf.lat.toNat b then L
  else if req || L.hsfExceeded b || L.fbit F.GD_VCMD_ENA b || L.fbit F.GD_VCMD_ASC b then L.note Ev.HSF_REL_REFUSED
  else
    ((L.putBit F.HSF_STO_REQ b false).onHsf (fun h => { h with lat := BitVec.ofNat 4 (putBits h.lat.toNat b 1 0) })).hsfShow 0

/-- The kernel arms or disarms the SBH hold of a bridge in its Hedge. -/
def Lane.armSbh (L : Lane) (b : Nat) (on : Bool) : Lane := (L.putBit F.HSF_ARM_SBH b on).hsfShow 5

/-! ### The end of the commands on an actuator (R176, R350) -/

/-- Rack position of an angle in millidegrees, and back (R361). -/
def Lane.rackOf (L : Lane) (angle : Int) : Int :=
  L.getS F.SAF_ZERO_ZERO + roundDiv (angle * L.getS F.SAF_RATIO_RATIO) 65536

/-- The angle of a rack position (R361). -/
def Lane.angleOf (L : Lane) (rack : Int) : Int :=
  let r := L.getS F.SAF_RATIO_RATIO
  if r = 0 then Config.divZero rack else roundDiv ((rack - L.getS F.SAF_ZERO_ZERO) * 65536) r

/-- The window the processor path checks: the L1 window at L1 once the position has lain inside it (R349). -/
def Lane.slaWindow (L : Lane) : Int × Int :=
  if L.saf.lim.prev = 1 ∧ L.is F.SAF_VIOL_L1IN then (L.getS F.SAF_L1_LO_POS, L.getS F.SAF_L1_HI_POS)
  else (L.getS F.SAF_SLA_LO_POS, L.getS F.SAF_SLA_HI_POS)

/-- What an actuator's measured value is now: the angle of a STEER actuator, the force of any other (log 18). -/
def Lane.measured (L : Lane) (a : Nat) : Int :=
  if L.kindOf a = 1 then
    match L.median a false with
    | some p => L.angleOf p
    | none => (Config.forceAt L.strap.idx L.now a).toInt
  else ((Config.forceAt L.strap.idx L.now a).toNat : Int)

/-- The trajectory of an actuator changed by a function. -/
def Lane.onAct (L : Lane) (a : Nat) (f : ActSt → ActSt) : Lane :=
  L.onCmdq (fun q => { q with acts := q.acts.set a (f (q.acts.getD a {})) })

/-- The trajectory of an actuator. -/
def Lane.act (L : Lane) (a : Nat) : ActSt := L.cmdq.acts.getD a {}

/-- Final results of a motion, clamp or service command that ends now (Table 4.9). -/
def Lane.endResult (L : Lane) (c : TCmd) : List Byte :=
  let a := c.act - 1
  let v := ofSigned 32
  if c.op = 0x10 then bytesLE 4 (v (L.measured a)) ++ bytesLE 4 L.mtUs ++ bytesLE 1 c.limited
  else if c.op = 0x11 then bytesLE 4 (v (L.act a).setpoint)
  else if c.op = 0x12 ∨ c.op = 0x13 ∨ c.op = 0x14 then bytesLE 4 (v (L.measured a))
  else []

/-- Motion, clamp, HOLD and service motions: the commands a safety reaction ends. -/
def motionOp (op : Nat) : Bool := (decide (0x10 ≤ op) && decide (op ≤ 0x14)) || op == 0x22 || op == 0x23

/-- The running motion commands of an actuator end SAFETY_LIMIT and its set-point is held at the nearest limit (Table 10.2). -/
def Lane.safetyLimit (L : Lane) (a : Nat) : Lane :=
  let cs := L.cmdq.queue.filter (fun c => c.live && c.act == a + 1 && motionOp c.op)
  let L1 := cs.foldl (fun K c => K.finish c St.SAFETY_LIMIT (K.endResult c)) L
  L1.onAct a (fun t =>
    let w := L.slaWindow
    let lo := min (L.angleOf w.1) (L.angleOf w.2)
    let hi := max (L.angleOf w.1) (L.angleOf w.2)
    let p := if L.kindOf a = 1 && t.kind == .angle then clampI lo hi t.setpoint else t.setpoint
    { t with setpoint := p, target := p, frac := p * 1000 })

/-! ### The processor path at a boundary (R344, R348 to R350, R353, R360) -/

/-- Index of a function's count for an actuator: 0 SLA, 1 SLR, 2 SDI. -/
def safIdx (fn a : Nat) : Nat := 4 * fn + a

/-- One judgement: a boundary exceeded counts, a boundary inside ends the run and its confirmation. -/
def SafSt.judge (x : SafSt) (i : Nat) (bad : Bool) : SafSt :=
  if bad then { x with cnt := x.cnt.set i (nthN x.cnt i + 1) } else { x with cnt := x.cnt.set i 0, conf := x.conf.set i none }

/-- A boundary without a value to judge: the run of exceeded boundaries ends, a confirmed violation stands. -/
def SafSt.skip (x : SafSt) (i : Nat) : SafSt := { x with cnt := x.cnt.set i 0 }

/-- The furthest position in the armed direction. -/
def further (inc : Bool) (e : Option Int) (p : Int) : Int :=
  match e with
  | some x => if inc then max x p else min x p
  | none => p

/-- SLR, SLA and SDI of one actuator judged. -/
def Lane.safJudge (L : Lane) (a : Nat) : Lane :=
  let steer := L.kindOf a == 1
  let L1 := if steer then
      match L.median a true with
      | some v => L.onSaf (fun x => x.judge (safIdx 1 a) (decide (slrLimit (L.get F.SAF_SLR_RMAX) L.saf.lim.held < v.natAbs)))
      | none => L.onSaf (fun x => x.skip (safIdx 1 a))
    else L
  match L.median a false with
  | none => L1.onSaf (fun x => (x.skip (safIdx 0 a)).skip (safIdx 2 a))
  | some p =>
    let L2 := if steer then
        let L' := if L1.saf.lim.prev = 1 ∧ L1.getS F.SAF_L1_LO_POS ≤ p ∧ p ≤ L1.getS F.SAF_L1_HI_POS then L1.put F.SAF_VIOL_L1IN 1 else L1
        let w := L'.slaWindow
        L'.onSaf (fun x => x.judge (safIdx 0 a) (decide (p < w.1) || decide (w.2 < p)))
      else L1
    if L2.fbit F.SAF_ARM_SDI a then
      let inc := L2.fbit F.SAF_ARM_DIR a
      let e := further inc (L2.saf.ext.getD a none) p
      let tol := L2.get (if steer then F.SAF_TOL_TOLS else F.SAF_TOL_TOLM)
      L2.onSaf (fun x => ({ x with ext := x.ext.set a (some e) } : SafSt).judge (safIdx 2 a)
        (decide ((tol : Int) < if inc then e - p else p - e)))
    else L2.onSaf (fun x => ({ x with ext := x.ext.set a none } : SafSt).judge (safIdx 2 a) false)

/-- R353 for one actuator: no member holds a valid value of a mapped quantity. -/
def Lane.safUnav (L : Lane) (a : Nat) : Lane :=
  let bad := (L.mapOf a false != 0xFF && (L.median a false).isNone) || (L.mapOf a true != 0xFF && (L.median a true).isNone)
  let was := L.fbit F.SAF_VIOL_UNAV a
  let L1 := L.putBit F.SAF_VIOL_UNAV a bad
  if bad && !was then L1.note Ev.SAF_SAF_UNAVAIL else L1

/-- The confirmed violations shown in SAF_VIOL. -/
def Lane.safShow (L : Lane) : Lane :=
  let any (fn : Nat) := [0, 1, 2, 3].any (fun a => (L.saf.conf.getD (safIdx fn a) none).isSome)
  let sdi := [0, 1, 2, 3].foldl (fun m a => m + (if (L.saf.conf.getD (safIdx 2 a) none).isSome then 2 ^ a else 0)) 0
  ((L.putB F.SAF_VIOL_SLA (any 0)).putB F.SAF_VIOL_SLR (any 1)).put F.SAF_VIOL_SDI sdi

/-! ### Safe brake hold (R356, R357) -/

/-- One actuator's safe brake hold changed by a function. -/
def Lane.onSbh (L : Lane) (a : Nat) (f : SbhSt → SbhSt) : Lane :=
  L.onSaf (fun x => { x with sbh := x.sbh.set a (f (x.sbh.getD a {})) })

/-- Safe brake hold of an actuator started: ENA 0 from the next vote, SAF_ARM.SBH (Table 10.4). -/
def Lane.sbhStart (L : Lane) (a : Nat) : Lane :=
  ((L.putBit F.SAF_ARM_SBH a true).onAct a (fun t => { t with
    bridge := .disabling, kind := .brakeHold, rampEnd := L.now, disableAt := L.now + L.periodT + us 101 })).onSbh a (fun b => { b with
    phase := .wait, at_ := L.now + L.periodT + us 101, failed := false })

/-- Safe brake hold of an actuator ended: both arm bits cleared. -/
def Lane.sbhStop (L : Lane) (a : Nat) : Lane :=
  ((L.putBit F.SAF_ARM_SBH a false).armSbh a false).onSbh a (fun b => { b with phase := .none })

/-- The bridge enabled again and the frozen force restored. -/
def Lane.sbhReclamp (L : Lane) (a : Nat) : Lane :=
  (L.armSbh a false).onAct a (fun t => { t with bridge := .enabling, kind := .force, target := t.setpoint })

/-- One boundary of safe brake hold: arming at gates-off, the hold check's conditions, the creep watch. -/
def Lane.sbhStep (L : Lane) (a : Nat) : Lane :=
  let b := L.saf.sbh.getD a {}
  let tol : Int := L.get F.SAF_SBH_TOL
  let tchk := let t := L.get F.SAF_SBH_TCHK; if t < 20 then 20 else if 120 < t then 120 else t
  match b.phase with
  | .wait =>
    if L.now < b.at_ then L
    else
      let L1 := (L.onAct a (fun t => { t with bridge := .disabled })).armSbh a true
      let p := L.median a false
      L1.onSbh a (fun b => { b with phase := .check, at_ := L.now + ms tchk, ref := p.getD 0, failed := p.isNone })
  | .check =>
    let moved := match L.median a false with
      | some p => decide (p < b.ref - tol)
      | none => true
    let fast := match L.median a true with
      | some v => decide (L.get F.SAF_STILL_OTHER ≤ v.natAbs)
      | none => true
    if moved || fast then L.onSbh a (fun b => { b with failed := true }) else L
  | .hold =>
    match L.median a false with
    | some p =>
      if p < b.ref - tol then
        let cs := L.now :: b.creeps.filter (fun t => decide (L.now ≤ t + sec 10))
        let L1 := ((L.note Ev.SAF_SBH_CREEP).sbhReclamp a).onSbh a (fun b => { b with creeps := cs })
        if 3 ≤ cs.length then
          ((L1.putBit F.SAF_ARM_SBH a false).onSbh a (fun b => { b with phase := .none, torque := true })).note Ev.SAF_SBH_FAIL
        else L1.onSbh a (fun b => { b with phase := .restore, at_ := L.now + ms 20 })
      else L
    | none => L
  | .restore =>
    if L.now < b.at_ then L else L.sbhStart a
  | .none => L

/-! ### R355: the kernel repeats a processor STO in its Hedge -/

/-- HSF_STO.REQ for every bridge whose processor-path STO is in effect, the gates off in OFF_CMD. -/
def Lane.stoRepeat (L : Lane) : Lane :=
  [0, 1, 2, 3].foldl (fun K b =>
    if K.fbit F.SAF_VIOL_STO b && !K.fbit F.HSF_STO_REQ b && (K.act b).bridge == .disabled && K.link.trained
    then K.hsfRequest (2 ^ b) else K) L

/-- The processor path at a vote boundary. -/
def Lane.safBoundary (L : Lane) : Lane :=
  let lv := L.get F.OZL_LSTATE_LEVEL
  let old := L.saf.lim.prev
  let fell := lv == 1 && old != 1
  let L1 := L.onSaf (fun x => { x with
    lim := x.lim.step L.now lv
    l1From := if fell && old != 0 then some L.now else if lv = 1 then x.l1From else none
    l1Done := if fell then false else x.l1Done
    formL1 := if fell then old == 0 else if lv = 1 then x.formL1 else false })
  let L2 := if fell || lv != 1 then L1.put F.SAF_VIOL_L1IN 0 else L1
  let one (K : Lane) (a : Nat) : Lane :=
    if K.kindOf a = 0 then K
    else
      let r := if K.still a then satU 11 (nthN K.saf.rest a + 1) else 0
      (((K.onSaf (fun x => { x with rest := x.rest.set a r })).safUnav a).safJudge a).sbhStep a
  let L3 := ([0, 1, 2, 3].foldl one L2).safShow
  let on := [0, 1, 2, 3].any (fun a => L3.kindOf a == 1 && (L3.act a).bridge == .enabled)
  let L4 := if L3.saf.formL1 && on then L3.onSaf (fun x => { x with formL1 := false, l1From := some L3.now }) else L3
  L4.stoRepeat

/-! ### The hard-wired path at a boundary (R346, R350 to R352, R357) -/

/-- The level of the hard-wired path (R346). -/
def Lane.hsfLevel (L : Lane) : Nat :=
  if L.get F.SDL_VSTAT_MODE == 3 || L.is F.SDL_VSTAT_SPLIT then 1
  else
    match L.sdl.voted with
    | some r => r.level.toNat
    | none => 0

/-- One hard-wired judgement shown in HSF_VIOL and counted (R351); `bad` none while the function is not evaluated, which is no
boundary with the limit exceeded. -/
def Lane.hsfJudge (L : Lane) (fn : Nat) (viol : Fld) (bad : Option Bool) : Lane :=
  match bad with
  | none | some false => (L.put viol 0).onHsf (fun h => { h with cnt := h.cnt.set fn 0, done := h.done.set fn false })
  | some true => (L.put viol 1).onHsf (fun h => { h with cnt := h.cnt.set fn (nthN h.cnt fn + 1) })

/-- SDI on a Hedge-decoded count. -/
def Lane.hsfSdi (L : Lane) (i : Nat) (arm dir viol : Fld) (c : Int) (ok : Bool) : Lane :=
  if !L.is arm then (L.hsfJudge (2 + i) viol (some false)).onHsf (fun h => { h with ext := h.ext.set i none })
  else if !ok then L.hsfJudge (2 + i) viol none
  else
    let inc := L.is dir
    let e := further inc (L.hsf.ext.getD i none) c
    let tol : Int := L.get F.HSF_TOL_SDTOL
    (L.onHsf (fun h => { h with ext := h.ext.set i (some e) })).hsfJudge (2 + i) viol (some (decide (tol < if inc then e - c else c - e)))

/-- An input's unavailability and the clock of its 100 ms (R352). -/
def Lane.hsfUnav (L : Lane) (i : Nat) (flag : Fld) (bad : Bool) : Lane :=
  let t := L.hsf.unavAt.getD i none
  if bad then (if t.isNone then L.onHsf (fun h => { h with unavAt := h.unavAt.set i (some L.now) }) else L)
  else (L.put flag 0).onHsf (fun h => { h with unavAt := h.unavAt.set i none })

/-- A Hedge decoder whose illegal steps have been judged at a boundary. -/
def EncSt.noIll (e : EncSt) : EncSt := { e with illAt := [] }

/-- The hard-wired path at a vote boundary, after the decoders are latched (R338). -/
def Lane.hsfBoundary (L : Lane) : Lane :=
  let lv := L.hsfLevel
  let old := L.hsf.lim.prev
  let L0 := (L.onHsf (fun h => { h with lim := h.lim.step L.now lv })).put F.HSF_VIOL_LEVEL lv
  let L1 := if (lv == 1 && old != 1) || lv != 1 then L0.put F.HSF_VIOL_L1IN 0 else L0
  let mode0 := L1.get F.HSF_DEC_CFG_E0MODE
  let mode1 := L1.get F.HSF_DEC_CFG_E1MODE
  let on0 := mode0 == 1 || mode0 == 2
  let on1 := mode1 == 1 || mode1 == 2
  let bad0 := !(L1.pos.henc.getD 0 {}).illAt.isEmpty
  let bad1 := !(L1.pos.henc.getD 1 {}).illAt.isEmpty
  let s0 := L1.is F.HSF_MAP_SLAEN && L1.is F.HSF_DEC_CFG_S0EN
  let valid := L1.is F.HSF_DEC_S0_VALID
  let L2 := ((L1.hsfUnav 0 F.HSF_VIOL_UNAV_S0 (s0 && !valid)).hsfUnav 1 F.HSF_VIOL_UNAV_E0 (on0 && bad0)).hsfUnav 2
    F.HSF_VIOL_UNAV_E1 (on1 && bad1)
  let e0 := L2.getS F.HSF_DEC_E0LAT_CNT
  let e1 := L2.getS F.HSF_DEC_E1LAT_CNT
  let win := max 1 (L2.get F.HSF_SLR_WIN)
  let hist := (e0 :: L2.hsf.hist).take (win + 1)
  let back := hist.getLastD e0
  let L3 := (L2.onHsf (fun h => { h with hist := hist })).onPos (fun p => { p with henc := p.henc.map EncSt.noIll })
  let slr := if L3.is F.HSF_MAP_SLREN && on0 && !bad0 then
      some (decide (slrLimit (L3.get F.HSF_SLR_CMAX) L3.hsf.lim.held < (e0 - back).natAbs)) else none
  let L4 := L3.hsfJudge 1 F.HSF_VIOL_SLR slr
  let code := L4.get F.HSF_DEC_S0_FC1
  let inL1 := decide (L4.get F.HSF_L1_LO ≤ code) && decide (code ≤ L4.get F.HSF_L1_HI)
  let L5 := if s0 && valid && lv == 1 && inL1 then L4.put F.HSF_VIOL_L1IN 1 else L4
  let inW := if lv == 1 && L5.is F.HSF_VIOL_L1IN then inL1
    else decide (L5.get F.HSF_SLA_LO ≤ code) && decide (code ≤ L5.get F.HSF_SLA_HI)
  let L6 := L5.hsfJudge 0 F.HSF_VIOL_SLA (if s0 && valid then some (!inW) else none)
  let L7 := L6.hsfSdi 0 F.HSF_ARM_SDI0 F.HSF_ARM_SDI0P F.HSF_VIOL_SDI0 e0 (on0 && !bad0)
  let L8 := L7.hsfSdi 1 F.HSF_ARM_SDI1 F.HSF_ARM_SDI1P F.HSF_VIOL_SDI1 e1 (on1 && !bad1)
  if L8.fbit F.HSF_ARM_SBH (L8.get F.HSF_MAP_E1BR) && on1 then
    match L8.hsf.creepRef with
    | none => L8.onHsf (fun h => { h with creepRef := some e1 })
    | some r =>
      if e1 < r - (L8.get F.HSF_TOL_SDTOL : Int) && !L8.is F.HSF_VIOL_CREEP then (L8.put F.HSF_VIOL_CREEP 1).note Ev.HSF_HCREEP else L8
  else (L8.put F.HSF_VIOL_CREEP 0).onHsf (fun h => { h with creepRef := none })

/-! ### SAFE_STOP_REQ (R359) -/

/-- A STEER or CLAMP actuator is in its safe state by a safety reaction in every member lane. -/
def safeByReaction (s : State) (L : Lane) (a : Nat) : Bool :=
  (L.kindOf a == 1 || L.kindOf a == 2) && LaneId.all.all (fun x =>
    !(L.isMember x && reaches s x L.strap) || (s.lane x).fbit F.SAF_VIOL_STO a || bit (s.lane x).hsf.lat.toNat a)

/-- SAFE_STOP_REQ as lane `l` reports it. -/
def safeStopReq (s : State) (l : LaneId) : Bool :=
  let L := s.lane l
  L.get F.OZL_LSTATE_LEVEL == 1 || L.get F.SAF_VIOL_UNAV != 0 || L.saf.sbh.any (fun b => b.torque) ||
    (L.members != 0 && [0, 1, 2, 3].any (safeByReaction s L))

/-! ### The Seal (R362 to R364) -/

/-- The sealed registers of one block instance, by address: each with the mask of its sealed fields. -/
def sealRows (b : Blk) (n : Nat) : List (Nat × Nat) :=
  (headerRows b ++ regRows b).flatMap (fun r =>
    if r.sealed = 0 then []
    else (List.range r.count).flatMap (fun i =>
      (r.reg.addr n i, r.sealed) :: (if r.count2 = 2 then [(r.reg.addr n i + r.stride2, r.sealed)] else [])))

/-- The registers of the canonical parameter image on one die, ascending (R362). -/
def sealImage (hedge : Bool) : List (Nat × Nat) :=
  ((Blk.all.filter (fun b => b.isHedge == hedge)).flatMap (fun b => (List.range b.count).flatMap (sealRows b))).foldl
    (fun l e => sins e.1 e.2 l) []

/-- One entry of the image (R362). -/
def sealEntry (addr value : Nat) : List Byte := bytesBE 4 addr ++ bytesBE 4 value

/-- A seal record: its FORMAT, the entry count, the Seal, zeros, and the entries (R516). -/
def sealRecord (v : Word) (entries : List (Nat × Word)) : List Byte :=
  bytesLE 4 0x53450001 ++ bytesLE 4 entries.length ++ bytesLE 4 v.toNat ++ bytesLE 4 0 ++
    entries.flatMap (fun e => sealEntry e.1 e.2.toNat)

/-- `n` entries of a canonical image read from its bytes. -/
def sealEntries : Nat → List Byte → List (Nat × Word)
  | 0, _ => []
  | n + 1, bs => (fieldBE bs 0 4, BitVec.ofNat 32 (fieldBE bs 4 4)) :: sealEntries n (bs.drop 8)

/-- A copy of the seal record that is valid, as its Seal and entries (R516). -/
def sealParse (bs : List Byte) : Option (Word × List (Nat × Word)) :=
  let n := fieldLE bs 4 4
  let body := (bs.drop 16).take (8 * n)
  if fieldLE bs 0 4 = 0x53450001 ∧ 16 + 8 * n ≤ bs.length ∧ (crc32c body).toNat = fieldLE bs 8 4 then
    some (BitVec.ofNat 32 (fieldLE bs 8 4), sealEntries n body)
  else none

/-- The entries of one die as they stand. -/
def Lane.sealBytes (L : Lane) (hedge : Bool) : List Byte :=
  (sealImage hedge).flatMap (fun e => sealEntry e.1 ((L.rd e.1).toNat &&& e.2))

/-- The trio's Seal; none where a read ends in a bus error (R364). -/
def Lane.trioSeal (L : Lane) : Option Word :=
  let off := (Blk.all.filter (fun b => !b.isHedge)).any (fun b => !L.domOn (domOf b))
  if off || !L.link.trained then none else some (crc32c (L.sealBytes false ++ L.sealBytes true))

/-- The first `n` mirror entries, none where they are not strictly ascending logic-die addresses (R364). -/
def Lane.mirror (L : Lane) : Nat → Nat → Nat → Option (List Byte)
  | 0, _, _ => some []
  | n + 1, k, low =>
    let a := L.reg R.HSF_MIR 0 (2 * k)
    if a < low ∨ 0x50000000 ≤ a then none
    else (L.mirror n (k + 1) (a + 1)).map (fun t => sealEntry a (L.reg R.HSF_MIR 0 (2 * k + 1)) ++ t)

/-- The Hedge's Seal; none on a mirror error (R364). -/
def Lane.hedgeSeal (L : Lane) : Option Word :=
  let n := L.get F.HSF_SEALCMD_MIRN
  if 256 < n then none else (L.mirror n 0 0).map (fun m => crc32c (m ++ L.sealBytes true))

/-- STAT.LOCKED of every block of a die. -/
def Lane.lockDie (L : Lane) (hedge on : Bool) : Lane :=
  (Blk.all.filter (fun b => b.isHedge == hedge)).foldl (fun K b =>
    (List.range b.count).foldl (fun K n => K.putB (H.STAT_LOCKED b) on n) K) L

/-- MATCH of both parties brought up to date. -/
def Lane.sealShow (L : Lane) : Lane :=
  (L.putB F.SAF_SEALCTL_MATCH (L.saf.hasSeal && L.reg R.SAF_SEAL == L.reg R.SAF_SEALREF)).putB F.HSF_SEALCMD_MATCH
    (L.hsf.hasSeal && L.reg R.HSF_SEAL == L.reg R.HSF_SEALREF)

/-- A Seal computed at once and shown, for the kernel's restore (R369) and a recheck (R370). -/
def Lane.sealNow (L : Lane) (hedge : Bool) : Lane :=
  if hedge then
    ((L.setReg R.HSF_SEAL ((L.hedgeSeal).getD 0).toNat).onHsf (fun h => { h with hasSeal := L.hedgeSeal.isSome })).sealShow
  else ((L.setReg R.SAF_SEAL ((L.trioSeal).getD 0).toNat).onSaf (fun x => { x with hasSeal := L.trioSeal.isSome })).sealShow

end Sys2Proof.Machine
end

