-- ==== Sys2Proof/Machine/TwpOps.lean ====
section
/-!
DEFINITION. Machine/TwpOps.lean: DID entries, the twin-path frame (R449, R450), placing its two copies (R452, R453), and the
comparison of copies (R454 to R458).
-/

namespace Sys2Proof.Machine

/-- ETH's and TWP's hidden states changed by a function. -/
def Lane.onEth (L : Lane) (f : EthSt → EthSt) : Lane := { L with eth := f L.eth }
def Lane.onTwp (L : Lane) (f : TwpSt → TwpSt) : Lane := { L with twp := f L.twp }

/-- Address of a word of a DID entry (Table 14.4). -/
def didAddr (i off : Nat) : Nat := 0x40171000 + 0x20 * i + off

/-- A field of a DID entry. -/
def Lane.dg (L : Lane) (i off lo w : Nat) : Nat := bits (L.memWord (didAddr i off)).toNat lo w

/-- A field of a DID entry set. -/
def Lane.dp (L : Lane) (i off lo w v : Nat) : Lane :=
  L.setMemWord (didAddr i off) (BitVec.ofNat 32 (putBits (L.memWord (didAddr i off)).toNat lo w v))

/-- A 16-bit counter of a DID entry incremented, saturating. -/
def Lane.dInc (L : Lane) (i off lo : Nat) : Lane := L.dp i off lo 16 (satU 65535 (L.dg i off lo 16 + 1))

/-- An enabled receive entry, an enabled send entry. -/
def Lane.didRx (L : Lane) (i : Nat) : Bool := L.dg i 0 16 1 == 1 && L.dg i 0 17 1 == 0
def Lane.didTx (L : Lane) (i : Nat) : Bool := L.dg i 0 16 1 == 1 && L.dg i 0 17 1 == 1

/-- WIN of an entry in ticks; 0 behaves as 1. -/
def Lane.winT (L : Lane) (i : Nat) : Nat := us 100 * (let w := L.dg i 0 24 8; if w = 0 then 1 else w)

/-- The lane's module is STANDBY of a pair. -/
def Lane.standby (L : Lane) : Bool := L.is F.OZL_PAIR_PAIRED && !L.is F.OZL_PAIR_ROLE

/-! ### Traffic and the vote on the ETH domain (R464) -/

/-- The switch's ON vote: a port with link, or a frame in the last 1 s. -/
def Lane.ethVote (L : Lane) : Lane :=
  let link := [0, 1, 2].any (fun p => L.is F.ETH_PORT_STAT_LINK 0 p)
  L.vote 9 8 (if link || decide (L.now < L.eth.lastFrame + sec 1) then 2 else 0)

/-- A frame sent or received. -/
def Lane.ethTraffic (L : Lane) : Lane := (L.onEth (fun e => { e with lastFrame := L.now })).ethVote

/-- PHY delay in ns as ticks, to the nearest tick (R447, log 146). -/
def nsTicks (ns : Nat) : Nat := (ns + 2) / 5

/-- The timestamp of a frame whose delimiter reaches the MAC of an external port now, and of one that leaves it now: module time, less
the PHY's receive delay, and with its transmit delay added (R447). -/
def Lane.ingressTs (L : Lane) (p : Nat) : BitVec 64 := L.mt - BitVec.ofNat 64 (nsTicks (L.get F.ETH_PORT_DLY_RXD 0 p))
def Lane.egressTs (L : Lane) (p : Nat) : BitVec 64 := L.mt + BitVec.ofNat 64 (nsTicks (L.get F.ETH_PORT_DLY_TXD 0 p))

/-- A frame arrived at an external port: timestamp and traffic. -/
def Lane.frameIn (L : Lane) (p : Nat) : Lane :=
  (L.onEth (fun e => { e with rxTs := e.rxTs.set p (some (L.ingressTs p)) })).ethTraffic

/-- A frame handed to the switch, which leaves by the external ports with link: timestamps and traffic. -/
def Lane.frameOut (L : Lane) : Lane :=
  ([0, 1, 2].foldl (fun K p =>
    if L.is F.ETH_PORT_STAT_LINK 0 p then K.onEth (fun e => { e with txTs := e.txTs.set p (some (L.egressTs p)) }) else K) L).ethTraffic

/-- A port's link shown, LCHG set where it changed. -/
def Lane.setLink (L : Lane) (p : Nat) (up : Bool) : Lane :=
  if L.is F.ETH_PORT_STAT_LINK 0 p == up then L else (L.putB F.ETH_PORT_STAT_LINK up 0 p).put F.ETH_PORT_STAT_LCHG 1 0 p

/-! ### Sending (R449, R450, R452, R453) -/

/-- Carrier of an entry's path A: 0 none, 1 FlexRay, 2 CAN. -/
def Lane.aCar (L : Lane) (i : Nat) : Nat := L.dg i 8 0 3

/-- CARRIER of Table 14.3 for path A. -/
def Lane.carrierA (L : Lane) (i : Nat) : Nat :=
  if L.aCar i = 2 then 4 + L.dg i 8 3 2
  else match L.bg (L.dg i 8 5 7) 0 2 2 with
    | 1 => 1
    | 2 => 2
    | _ => 3

/-- Path A of an entry is configured, and its element is in service. -/
def Lane.pathA (L : Lane) (i : Nat) : Bool :=
  (L.aCar i == 1 && !L.outOfService .flx) || (L.aCar i == 2 && !L.outOfService (.can (L.dg i 8 3 2)))

/-- Path B of an entry is configured, and an enabled external port is in service (R465, log 23). -/
def Lane.pathB (L : Lane) (i : Nat) : Bool :=
  L.dg i 8 12 1 == 1 && !([0, 1, 2].all (fun p => L.outOfService (.eth p)))

/-- Bytes 0 to 19 of the safety header (Table 14.3). -/
def Lane.twpHead (L : Lane) (i : Nat) (seq : Word) (len : Nat) (single pathB : Bool) : List Byte :=
  let paired := L.is F.OZL_PAIR_PAIRED
  let b14 := b2n single + 2 * b2n paired
  let b15 := (if pathB then 2 else 1) + 16 * (if pathB then 0 else L.carrierA i)
  let b16 := (if paired then L.get F.TWP_CFG_MOD else 0) + 2 * b2n (!L.standby)
  bytesBE 2 (L.dg i 4 0 16) ++ bytesBE 2 (L.dg i 0 0 16) ++ bytesBE 4 seq.toNat ++ bytesBE 4 L.pairUs ++ bytesBE 2 len
    ++ bytesBE 1 b14 ++ bytesBE 1 b15 ++ bytesBE 1 b16 ++ bytesBE 1 L.strap.idx ++ [0, 0]

/-- CRC of a twin-path frame: over the key, bytes 0 to 19 and the payload (R450). -/
def twpCrc (did : Nat) (head payload : List Byte) : Word := crc32c (bytesBE 2 did ++ [0, 0] ++ head ++ payload)

/-- A copy of a frame as its carrier takes it. -/
def Lane.twpFrame (L : Lane) (i : Nat) (seq : Word) (payload : List Byte) (single pathB : Bool) : List Byte :=
  let h := L.twpHead i seq payload.length single pathB
  h ++ bytesBE 4 (twpCrc (L.dg i 0 0 16) h payload).toNat ++ payload

/-- A copy placed into its path A object or buffer, its transmit request set. -/
def Lane.placeA (L : Lane) (i : Nat) (bs : List Byte) : Lane :=
  let o := L.dg i 8 5 7
  if L.aCar i = 2 then
    let n := L.dg i 8 3 2
    let L1 := L.op n o 0x14 0 12 bs.length
    let at_ := if 64 < bs.length then poolAddr n (64 * L1.og n o 0x14 20 9) else objAddr n o 0x1C
    ((L1.setMemBytes at_ bs).objRequest n o).canVote n
  else ((L.setMemBytes (flxPool (8 * L.bg o 4 8 12)) bs).bufRequest o).flxVote

/-- A copy placed into its path B stream with the R-TAG of R453. -/
def Lane.placeB (L : Lane) (i : Nat) (seq : Word) (bs : List Byte) : Lane :=
  (L.onTwp (fun t => { t with outB := (⟨L.dg i 8 13 6, BitVec.ofNat 16 seq.toNat, bs⟩ :: t.outB).take 64 })).frameOut

/-- The frame of a send entry built and both copies queued. -/
def Lane.twpSend (L : Lane) (i : Nat) (seq : Word) (payload : List Byte) : Lane :=
  let a := L.pathA i
  let b := L.pathB i
  let single := !(a && b)
  let L1 := if a then L.placeA i (L.twpFrame i seq payload single false) else L
  let L2 := if b then L1.placeB i seq (L.twpFrame i seq payload single true) else L1
  if a || b then ((L2.dp i 0x10 0 32 seq.toNat).dInc i 0x14 0) else L2

/-! ### Receiving (R454 to R458) -/

/-- The compared part of a frame: bytes 0 to 13 and the payload (R449). -/
def comparedPart (f : List Byte) : List Byte := f.take 14 ++ f.drop 24

/-- TWP_RXQ and the frame window shown for the oldest frame (R458). -/
def Lane.rxqShow (L : Lane) : Lane :=
  let L1 := L.put F.TWP_RXQ_COUNT L.twp.rxq.length
  match L.twp.rxq with
  | [] => (L1.put F.TWP_RXQ_DEGR 0).put F.TWP_RXQ_ENTRY 0
  | f :: _ =>
    let L2 := (L1.putB F.TWP_RXQ_DEGR f.degr).put F.TWP_RXQ_ENTRY f.entry
    (L2.wipe 0x40172000 0x40172418).setMemBytes 0x40172000 f.frame

/-- A frame of the partner module accepted on a PAIRWATCH entry ends SILENT (R461). -/
def Lane.pairHeard (L : Lane) (i : Nat) (f : List Byte) : Lane :=
  let b := fieldBE f 16 1
  if L.standby && L.dg i 0 20 1 == 1 && b % 2 != L.get F.TWP_CFG_MOD && bit b 1 then
    (L.put F.TWP_PAIROFS_SILENT 0).onTwp (fun t => { t with watchAt := t.watchAt.set i L.now })
  else L

/-- An accepted frame into the receive queue; a full queue drops its oldest (R458). -/
def Lane.rxqPut (L : Lane) (i : Nat) (f : List Byte) (degr : Bool) : Lane :=
  let full := 32 ≤ L.twp.rxq.length
  let L1 := if full then L.note Ev.TWP_QUEUE_OVF else L
  ((L1.onTwp (fun t => { t with rxq := (if full then t.rxq.tail else t.rxq) ++ [⟨i, degr, f⟩] })).rxqShow).pairHeard i f

/-- A comparison closed: LASTSEQ, and the first copy kept for duplicates of the last four (R454, R455). -/
def Lane.twpClosed (L : Lane) (i : Nat) (seq : Word) (f : List Byte) : Lane :=
  (L.dp i 0x10 0 32 seq.toNat).onTwp (fun t => { t with
    opens := t.opens.filter (fun o => !(o.entry == i && o.seq == seq))
    closed := ⟨i, seq, comparedPart f⟩ :: ((t.closed.filter (fun c => c.entry == i)).take 3 ++ t.closed.filter (fun c => c.entry != i)) })

/-- A lone copy judged: accepted with DEGRADED, or discarded (R455, R456). -/
def Lane.twpLone (L : Lane) (i : Nat) (seq : Word) (f : List Byte) : Lane :=
  let L1 := if L.dg i 0 19 1 = 1 then ((L.dInc i 0x14 16).note Ev.TWP_ACCEPT_DEGRADED).rxqPut i f true
    else (L.dInc i 0x18 16).note Ev.TWP_LONE_DROP
  L1.twpClosed i seq f

/-- SEQ `a` comes before `b`, both at or after `last`. -/
def seqBefore (last a b : Nat) : Bool := decide ((a + 2 ^ 32 - last) % 2 ^ 32 < (b + 2 ^ 32 - last) % 2 ^ 32)

/-- A comparison put into a list in SEQ order. -/
def seqInsert (last : Nat) (o : TwpOpen) : List TwpOpen → List TwpOpen
  | [] => [o]
  | p :: t => if seqBefore last o.seq.toNat p.seq.toNat then o :: p :: t else p :: seqInsert last o t

/-- The open comparisons of an entry that satisfy `p`, in SEQ order from LASTSEQ. -/
def Lane.twpOpens (L : Lane) (i : Nat) (p : TwpOpen → Bool) : List TwpOpen :=
  (L.twp.opens.filter (fun o => o.entry == i && p o)).foldl (fun l o => seqInsert (L.dg i 0x10 0 32) o l) []

/-- Comparisons of an entry closed as at the end of their window. -/
def Lane.twpEndAll (L : Lane) (i : Nat) (p : TwpOpen → Bool) : Lane :=
  (L.twpOpens i p).foldl (fun K o => K.twpLone i o.seq o.frame) L

/-- Comparisons of an entry with an earlier SEQ closed first (R457). -/
def Lane.twpOlder (L : Lane) (i : Nat) (seq : Word) : Lane :=
  let last := L.dg i 0x10 0 32
  L.twpEndAll i (fun o => seqBefore last o.seq.toNat seq.toNat)

/-- COPY_DIFF recorded, source 110 pulsed. -/
def Lane.copyDiff (L : Lane) : Lane := (L.note Ev.TWP_COPY_DIFF).pulse 110

/-- A copy of a SEQ already judged on its path, or closed: a duplicate (R455). -/
def Lane.twpDup (L : Lane) (i : Nat) (f first : List Byte) : Lane :=
  let L1 := L.dInc i 0x1C 16
  if comparedPart f == first then L1 else L1.copyDiff

/-- A copy that passed R454 judged (R455 to R457). -/
def Lane.twpJudge (L0 : Lane) (i : Nat) (f : List Byte) : Lane :=
  let seq : Word := BitVec.ofNat 32 (fieldBE f 4 4)
  let onB := fieldBE f 15 1 % 16 == 2
  let L := L0.twpEndAll i (fun o => decide (o.endAt < L0.now))
  match L.twp.closed.find? (fun c => c.entry == i && c.seq == seq) with
  | some c => L.twpDup i f c.part
  | none =>
    if seq.toNat = L.dg i 0x10 0 32 then L.dInc i 0x1C 16
    else
      match L.twp.opens.find? (fun o => o.entry == i && o.seq == seq) with
      | some o =>
        if o.pathB == onB then L.twpDup i f (comparedPart o.frame)
        else
          let L1 := L.twpOlder i seq
          let L2 := if comparedPart f == comparedPart o.frame then (L1.dInc i 0x14 0).rxqPut i o.frame false
            else (L1.dInc i 0x18 0).copyDiff
          L2.twpClosed i seq o.frame
      | none =>
        if bit (fieldBE f 14 1) 0 then (L.twpOlder i seq).twpLone i seq f
        else
          let mine := L.twp.opens.filter (fun o => o.entry == i)
          let L1 := match mine with
            | o :: _ => if 4 ≤ mine.length then (L.twpOlder i o.seq).twpLone i o.seq o.frame else L
            | [] => L
          L1.onTwp (fun t => { t with opens := t.opens ++ [⟨i, seq, onB, f, L1.now + L1.winT i⟩] })

/-- The checks of R454 on a copy: the event of the first that fails. -/
def Lane.twpCheck (L : Lane) (i : Nat) (f : List Byte) : Option Event :=
  let h := f.take 20
  let len := fieldBE f 12 2
  let seq := fieldBE f 4 4
  let age := toSigned 32 (L.pairUs + 2 ^ 32 - fieldBE f 8 4)
  let maxAge := L.dg i 0xC 0 16
  let last := L.dg i 0x10 0 32
  if f.length < 24 ∨ fieldBE f 20 4 ≠ (twpCrc (L.dg i 0 0 16) h (f.drop 24)).toNat then some Ev.TWP_COPY_CRC
  else if fieldBE f 0 2 ≠ L.dg i 4 0 16 ∨ L.dg i 4 16 11 < len ∨ len + 24 ≠ f.length then some Ev.TWP_COPY_BAD
  else if maxAge ≠ 0 ∧ ((maxAge * 10 : Nat) < age ∨ age < -1000) then some Ev.TWP_STALE
  else if 2 ^ 31 ≤ (seq + 2 ^ 32 - last) % 2 ^ 32 && !L.twp.opens.any (fun o => o.entry == i && o.seq.toNat == seq) &&
      !L.twp.closed.any (fun c => c.entry == i && c.seq.toNat == seq) then some Ev.TWP_SEQ_OLD
  else none

/-- A DID entry whose words cannot be read (R397, R465): MEMERR, which prunes no element. -/
def Lane.didUnread (L : Lane) (i : Nat) : Bool := L.poisonedIn (didAddr i 0) 32
def Lane.didMemErr (L : Lane) (i : Nat) : Lane := ((L.memUe (wordAt (didAddr i 0)) false false).1).transient Ev.TWP_MEMERR

/-- The receive entry of a copy: enabled, naming the carrier it came on; the one with the frame's DID first (log 24). -/
def Lane.twpEntry (L : Lane) (car : TwpCar) (f : List Byte) : Option Nat :=
  let onCar (i : Nat) : Bool := L.didRx i && match car with
    | .flx b => L.aCar i == 1 && L.dg i 8 5 7 == b.toNat
    | .can n o => L.aCar i == 2 && L.dg i 8 3 2 == n.toNat && L.dg i 8 5 7 == o.toNat
    | .eth sid _ => L.dg i 8 12 1 == 1 && L.dg i 8 13 6 == sid.toNat
  match (List.range 64).find? (fun i => onCar i && L.dg i 0 0 16 == fieldBE f 2 2) with
  | some i => some i
  | none => (List.range 64).find? onCar

end Sys2Proof.Machine
end

