-- ==== Sys2Proof/Machine/BusOps.lean ====
section
/-!
DEFINITION. Machine/BusOps.lean: one access of a master to the lane memory map (R46, Table 1.10): the firewall (R146), what a read
of a register returns (R11, R47, R49, R551, R552), and what a write does by the access codes of Table 0.5 and by the rules that make a
block ignore it (R180, R181, R209, R248, R298, R342, R384, R407, R409 to R413, R424, R431, R433, R451).
-/

namespace Sys2Proof.Machine

/-! ### Element state (R551, R552) -/

/-- The elements whose state a block instance shows. -/
def blkElems (b : Blk) (n : Nat) : List Elem :=
  match b with
  | .cnv => [.cnv n]
  | .loop => [.loop n]
  | .drv => [.drv n]
  | .gd | .prot => [.drv 0, .drv 1, .drv 2, .drv 3]
  | .pos => (List.range 10).map Elem.pos
  | .icv => [.icv]
  | .can => [.can n]
  | .flx => [.flx]
  | .eth => [.eth 0, .eth 1, .eth 2]
  | .msup => (List.range 8).map Elem.sram
  | .trio => [.core 0, .core 1, .core 2]
  | _ => []

/-- The power domain of a block instance is ON; a Hedge block stands in no domain. -/
def Lane.blkPowered (L : Lane) (b : Blk) : Bool := b.isHedge || L.domOn (domOf b)

/-- PROT_LATCH is the state of a bridge in the Hedge's GD and PROT (R552). -/
def Lane.stageLatched (L : Lane) (b : Blk) : Elem → Bool
  | .drv k => (b == .gd || b == .prot) && L.fbit F.PROT_LATCH_LATCH k
  | _ => false

/-- ESTATE of a block instance: 0 OFF, 1 READY, 2 ISOLATED, 3 PRUNED. -/
def Lane.estate (L : Lane) (b : Blk) (n : Nat) : Nat :=
  let es := blkElems b n
  if es.length = 1 ∧ es.any L.pruned then 3
  else if (match L.isolated with
      | some e => es.contains e
      | none => false) then 2
  else if es ≠ [] ∧ es.all (fun e => L.pruned e || L.stageLatched b e) then 3
  else if !L.blkPowered b then 0
  else match b with
    | .loop => b2n (L.is F.LOOP_ECTL_RUN n)
    | .drv => if L.drvIdle n then 0 else 1
    | .can => b2n (L.is F.CAN_MODE_EN n)
    | .flx => b2n (L.is F.FLX_CTL_EN)
    | _ => 1

/-- The block instance stands in a weeding slice. -/
def Lane.blkIsolated (L : Lane) (b : Blk) (n : Nat) : Bool := L.estate b n == 2

/-! ### Reading -/

/-- Bits `p m` of a 32-bit word, bit `m` of word `k` naming member 32 k + m. -/
def maskOf (k : Nat) (p : Nat → Bool) : Nat := (List.range 32).foldl (fun x m => x + b2n (p (32 * k + m)) * 2 ^ m) 0

/-- The registers whose read value follows other state: what they read as (R49, R206, R414, R433, R508, Tables 2.14, 7.8). -/
def Lane.viewOf (L : Lane) (b : Blk) (n off : Nat) (w : Nat) : Nat :=
  if off = 0x08 then putBits w 0 2 (L.estate b n)
  else match b with
  | .clk => if off = R.CLK_MT_LO.off then L.mtLo.toNat else w
  | .ozl =>
    if off = R.OZL_SCORE.off then L.score
    else if off = R.OZL_GRAFT.off then
      let left := if L.own = 3 ∧ L.now < L.ozl.graftDue then (L.ozl.graftDue - L.now + sec 1 - 1) / sec 1 else 0
      putBits w F.OZL_GRAFT_HOLDOFF.lo F.OZL_GRAFT_HOLDOFF.w (min 10 left)
    else w
  | .loop =>
    if R.LOOP_PRG_CTL.off ≤ off ∧ (off - R.LOOP_PRG_CTL.off) % R.LOOP_PRG_CTL.stride = 0 then
      let m := (off - R.LOOP_PRG_CTL.off) / R.LOOP_PRG_CTL.stride
      if m < 8 ∧ L.prgSteer n m then putBits w F.LOOP_PRG_CTL_ACTION.lo F.LOOP_PRG_CTL_ACTION.w 2 else w
    else w
  | .can =>
    if R.CAN_TXRQ.off ≤ off ∧ off < R.CAN_TXRQ.off + 16 then
      maskOf ((off - R.CAN_TXRQ.off) / 4) (fun m => L.og n m 0 19 1 == 1)
    else if R.CAN_TXCAN.off ≤ off ∧ off < R.CAN_TXCAN.off + 16 then
      maskOf ((off - R.CAN_TXCAN.off) / 4) (fun m => (L.canSt n).cancels.contains m)
    else w
  | .flx =>
    if R.FLX_TXRQ.off ≤ off ∧ off < R.FLX_TXRQ.off + 16 then maskOf ((off - R.FLX_TXRQ.off) / 4) (fun m => L.bg m 8 8 1 == 1) else w
  | .pwr => if off = R.PWR_D_STAT.off then putBits w F.PWR_D_STAT_STATE.lo F.PWR_D_STAT_STATE.w 2 else w
  | .gd =>
    if off = R.GD_ILK.off then
      [0, 1, 2, 3].foldl (fun x k => putBits x (8 * k) 5
        (satU 31 ((L.gate.ilkAt.getD k []).filter (fun t => decide (L.now ≤ t + ms 1))).length)) w
    else w
  | .prot =>
    if off = R.PROT_BRKCNT.off ∧ L.is F.PROT_VM_BRK_ON then satU 0xFFFFFFFF ((L.gate.brkTicks + (L.now - L.gate.brkAt)) / ms 1) else w
  | .ths =>
    if off = R.THS_STAT.off then
      let runs := (if L.is F.THS_STAT_DIESD then [L.ths.dieAt] else []) ++ (if L.is F.THS_STAT_REFSD then [L.ths.refAt] else []) ++
        ([0, 1, 2, 3].filter (fun k => L.fbit F.THS_STAT_TDSD k)).map (fun k => L.ths.tdAt.getD k 0)
      let left := runs.foldl (fun m t => max m ((t + ms 100 - L.now + ms 1 - 1) / ms 1)) 0
      putBits (putBits w F.THS_STAT_UNW.lo 4 (15 - L.get F.THS_TDK_FUSED)) F.THS_STAT_HOLD.lo 16 left
    else w
  | _ => w

/-- The fields of a register that read 0 whatever was written to them (WO, Table 0.5) and its reserved bits hold nothing: the stored
word stands for the rest. -/
def Lane.regView (L : Lane) (a : Nat) : Nat :=
  match blockAt a with
  | some (b, n, off) => L.viewOf b n off (L.rd a).toNat
  | none => 0

/-! ### The interrupt controller (R57, R58): the register layout of the RISC-V PLIC from 0x4C00_0000 -/

/-- Addresses of the controller: priority of a source, enable word of a context, its threshold. -/
def plicPrio (src : Nat) : Nat := 0x4C000000 + 4 * src
def plicEnable (ctx k : Nat) : Nat := 0x4C002000 + 0x80 * ctx + 4 * k
def plicThresh (ctx : Nat) : Nat := 0x4C200000 + 0x1000 * ctx

/-- Priority of a source: 1 to 7, 0 disables it; sources 124 to 127 have none. -/
def Lane.priority (L : Lane) (src : Nat) : Nat := bits (L.rd (plicPrio src)).toNat 0 3

/-- A context has a source enabled. -/
def Lane.srcEnabled (L : Lane) (ctx src : Nat) : Bool := bit (L.rd (plicEnable ctx (src / 32))).toNat (src % 32)

/-- A source is claimed and not completed: its gateway passes no request on (R57). -/
def Lane.inService (L : Lane) (src : Nat) : Bool := L.claimed.any (fun c => c.1 == src)

/-- A source is pending: its pending bit stands, or its gateway passes its level on now. A level that falls before the claim leaves
its pending bit set, as the PLIC specification states (R57). -/
def Lane.irqPending (L : Lane) (src : Nat) : Bool := (L.ip.contains src || L.source src) && !L.inService src

/-- The gateways pass on every asserted source that is not in service (R57). -/
def Lane.latchIrq (L : Lane) : Lane :=
  { L with ip := (List.range 124).foldl (fun p src => if L.source src && !L.inService src && !p.contains src then src :: p else p) L.ip }

/-- The source a claim of a context returns: enabled and pending, of the highest priority above 0, the lowest number of those; 0 for
none. -/
def Lane.claimOf (L : Lane) (ctx : Nat) : Nat :=
  (List.range 128).foldl (fun best src =>
    if src ≠ 0 ∧ L.irqPending src ∧ L.srcEnabled ctx src ∧ 0 < L.priority src ∧ (best = 0 ∨ L.priority best < L.priority src) then src
    else best) 0

/-- The controller notifies a context's hart: an enabled source is pending with a priority above the context's threshold (R57). -/
def Lane.irqNotify (L : Lane) (ctx : Nat) : Bool :=
  (List.range 128).any (fun src => src != 0 && L.irqPending src && L.srcEnabled ctx src &&
    decide (bits (L.rd (plicThresh ctx)).toNat 0 3 < L.priority src))

/-- The claim of a context: its source in service, the pending bit cleared, the number returned; 0 where none is pending. -/
def Lane.takeClaim (L : Lane) (ctx src : Nat) : Lane :=
  let L1 := if src = 0 then L else { L with claimed := (src, ctx) :: L.claimed, ip := L.ip.filter (fun p => p != src) }
  { L1 with claimData := L1.claimData.set ctx src }

/-- The completion of a source by a context that has it enabled; any other number is ignored, as the PLIC specification states. -/
def Lane.completeSrc (L : Lane) (ctx src : Nat) : Lane :=
  if decide (src < 128) && L.srcEnabled ctx src then { L with claimed := L.claimed.filter (fun c => c.1 != src) } else L

/-- A word of the controller as a read returns it, without the effect of a claim: pending words follow the sources, a claim register
shows what its claim returns. -/
def Lane.plicRead (L : Lane) (a : Nat) : Nat :=
  if 0x4C001000 ≤ a ∧ a < 0x4C001010 then maskOf ((a - 0x4C001000) / 4) (fun src => decide (src ≠ 0) && L.irqPending src)
  else if [0, 1, 2].any (fun c => a == plicThresh c + 4) then L.claimOf ((a - 0x4C200000) / 0x1000)
  else (L.rd a).toNat

/-- A word of the controller written: priorities of sources 1 to 123, enables of three contexts, thresholds; a write of a claim
register completes a source, as the command COMPLETE does. -/
def Lane.plicWrite (L : Lane) (a : Nat) (val : Word) : Lane :=
  if 0x4C000004 ≤ a ∧ a < plicPrio 124 then L.wr a (val &&& 7)
  else if [0, 1, 2].any (fun c => decide (plicEnable c 0 ≤ a) && decide (a < plicEnable c 4)) then
    L.wr a (if a % 0x80 = 0 then val &&& 0xFFFFFFFE else val)
  else if [0, 1, 2].any (fun c => a == plicThresh c) then L.wr a (val &&& 7)
  else if [0, 1, 2].any (fun c => a == plicThresh c + 4) then L.completeSrc ((a - 0x4C200000) / 0x1000) val.toNat
  else L

/-- A word of a status window (R47, R48, R49): the own lane's registers, or the mirror of a peer. -/
def Lane.windowWord (L : Lane) (a : Nat) : Nat :=
  let x := LaneId.ofIdx ((a - 0x60000000) / 0x01000000)
  let o := a % 0x01000000
  if x = L.strap then
    if o = 0x00F00000 then L.mtLo.toNat
    else
      let ra := if 0x00800000 ≤ o then 0x50000000 + (o - 0x00800000) else 0x40000000 + o
      match blockAt ra with
      | some (_, _, off) => if off < 0x40 ∧ o < 0x00F00000 then L.regView ra else 0
      | none => 0
  else if inMirror x a then (L.mirrorWord a).toNat else 0

/-- A word of memory read: sign-extended from a loop engine's data memory, whose write buffer answers first (R180, R182); NVM
partition 5 reads 0xFF (Table 17.1). -/
def Lane.memRead (L : Lane) (a : Nat) : Nat :=
  if 0x30000000 ≤ a ∧ a < 0x30040000 ∧ 0x8000 ≤ a % 0x10000 then
    let n := (a - 0x30000000) / 0x10000
    let k := (a % 0x10000 - 0x8000) / 4
    match ((L.eng n).wbuf ++ (L.eng n).stalled).reverse.find? (fun e => e.1 == k) with
    | some e => ofSigned 32 e.2.toInt
    | none => ofSigned 32 (L.dm n k)
  else if 0x00914000 ≤ a ∧ a < 0x00920000 then 0xFFFFFFFF
  else (L.memWord a).toNat

/-- An address is inside a memory of the lane map; loop-engine memories end at the offsets of R180. -/
def inMemory (a : Nat) : Bool :=
  a < 0x01000000 || (0x10000000 ≤ a && a < 0x10040000) || (0x10100000 ≤ a && a < 0x10120000) ||
  (0x20000000 ≤ a && a < 0x20400000) || (0x30000000 ≤ a && a < 0x30040000 && a % 0x8000 < 0x4000)

/-- The power domain of a memory address (Table 15.1). -/
def memDom (a : Nat) : Nat :=
  if a < 0x01000000 then 11
  else if a < 0x20000000 then 12
  else if a < 0x30000000 then 13 + (a - 0x20000000) / 0x80000
  else 3

/-- A word of a block's own memory. -/
def inBlkMem (b : Blk) (n a : Nat) : Bool := (blkMem b n).any (fun r => decide (r.1 ≤ a) && decide (a < r.2))

/-- An aligned word as the fabric reads it, without side effects; none is a bus error: outside the map, in a domain that is not ON
(Table 15.3), a poisoned word (R397). -/
def Lane.busRead (L : Lane) (a : Nat) : Option Nat :=
  if a % 4 ≠ 0 then none
  else if inMemory a then (if L.poisoned a || !L.domOn (memDom a) then none else some (L.memRead a))
  else if 0x60000000 ≤ a ∧ a < 0x63000000 then some (L.windowWord a)
  else if 0x4C000000 ≤ a ∧ a < 0x50000000 then some (L.plicRead a)
  else match blockAt a with
    | none => none
    | some (b, n, off) =>
      if !(aonReg a || L.blkPowered b) then none
      else if inBlkMem b n a then (if L.poisoned a then none else some (L.memWord a).toNat)
      else some (L.viewOf b n off (L.rd a).toNat)

/-! ### Writing a register -/

/-- A field of a register word written by its access code. `open_` is false once the Seal has locked the block. -/
def FieldRow.write (f : FieldRow) (open_ : Bool) (old val : Nat) : Nat :=
  let v := bits val f.lo f.w
  let o := bits old f.lo f.w
  match f.acc with
  | .rw => putBits old f.lo f.w v
  | .rwl => if open_ then putBits old f.lo f.w v else old
  | .w1c => putBits old f.lo f.w (o - (o &&& v))
  | .w1s => putBits old f.lo f.w (o ||| v)
  | .ro | .wo => old

/-- The Seal has locked the block instance's RWL fields. -/
def Lane.locked (L : Lane) (b : Blk) (n : Nat) : Bool := L.is (H.STAT_LOCKED b) n

/-- A register word after a write of every field that has no command of its own. -/
def Lane.written (L : Lane) (b : Blk) (n : Nat) (r : RegRow) (old val : Nat) : Nat :=
  (r.fields.filter (fun f => !f.own)).foldl (fun x f => f.write (!L.locked b n) x val) old

/-- The mask of a field. -/
def Fld.mask (f : Fld) : Nat := (2 ^ f.w - 1) * 2 ^ f.lo

/-- All 32 bits. -/
def allBits : Nat := 0xFFFFFFFF

/-- The bits of a register whose writes the block ignores now, with the event it records for such a write. -/
def Lane.frozen (L : Lane) (b : Blk) (n off : Nat) : Nat × Option Event :=
  match b with
  | .loop =>
    if 0x100 ≤ off ∧ off < 0x300 then
      let m := (off - 0x100) / 0x40
      let o := (off - 0x100) % 0x40 + 0x100
      let on := L.is F.LOOP_PRG_CTL_EN n m || L.prgState n m != 0
      let steer := if o = R.LOOP_PRG_CTL.off ∧ L.prgSteer n m then F.LOOP_PRG_CTL_ACTION.mask else 0
      if on then
        if o = R.LOOP_PRG_CTL.off then (allBits - 1, some Ev.LOOP_CFG_ERR)
        else if o = R.LOOP_PRG_CODE.off ∨ o = R.LOOP_PRG_DWIN.off ∨ o = R.LOOP_PRG_SCL.off ∨ o = R.LOOP_PRG_BKC.off then
          (allBits, some Ev.LOOP_CFG_ERR)
        else if o = R.LOOP_PRG_SRC.off then (0xFFFFFF, some Ev.LOOP_CFG_ERR)
        else (0, none)
      else (steer, none)
    else if R.LOOP_OUT.off ≤ off ∧ off < R.LOOP_OUT.off + 32 then
      let m := L.get F.LOOP_OUT_OWNER n ((off - R.LOOP_OUT.off) / 4)
      if L.is F.LOOP_PRG_CTL_EN n m || L.prgState n m != 0 then (0xFFFF, some Ev.LOOP_CFG_ERR) else (0, none)
    else (0, none)
  | .drv =>
    let fld := L.get F.SYS_LC_STATE == 2 && (off == R.DRV_AOFS.off || off == R.DRV_PSCALE.off)
    if fld then (allBits, some Ev.DRV_CFG_ERR)
    else if L.drvIdle n then (0, none)
    else if off = R.DRV_MODE.off then (F.DRV_MODE_SECT12.mask, some Ev.DRV_CFG_ERR)
    else if off = R.DRV_DPER.off ∨ off = R.DRV_MOT_0.off ∨ off = R.DRV_MOT_1.off ∨ off = R.DRV_PSRC.off ∨ off = R.DRV_PSCALE.off then
      (allBits, some Ev.DRV_CFG_ERR)
    else (0, none)
  | .cnv =>
    if (off = R.CNV_RSEQ.off ∨ (R.CNV_RSEL.off ≤ off ∧ off < R.CNV_RSEL.off + 16)) ∧ L.is F.CNV_RSEQ_EN n then
      (allBits - (if off = R.CNV_RSEQ.off then F.CNV_RSEQ_EN.mask ||| F.CNV_RSEQ_GO.mask else 0), some Ev.CNV_SEQ_CFG_ERR)
    else if (off = R.CNV_ISEQ.off ∨ off = R.CNV_ISEL.off) ∧ L.is F.CNV_ISEQ_EN n then
      (allBits - (if off = R.CNV_ISEQ.off then F.CNV_ISEQ_EN.mask ||| F.CNV_ISEQ_GO.mask else 0), some Ev.CNV_SEQ_CFG_ERR)
    else if off = R.CNV_ISEQ.off ∧ n % 2 = 1 then (F.CNV_ISEQ_ILV.mask, none)
    else (0, none)
  | .pos =>
    let chan : Option Nat :=
      if 0x100 ≤ off ∧ off < 0x180 ∧ (off % 0x20 = 0 ∨ off % 0x20 = 4) then some ((off - 0x100) / 0x20)
      else if 0x180 ≤ off ∧ off < 0x1C0 ∧ (off % 0x20 = 0 ∨ off % 0x20 = 4) then some (4 + (off - 0x180) / 0x20)
      else if 0x200 ≤ off ∧ off < 0x280 ∧ (off % 0x20 = 0 ∨ off % 0x20 = 4) then some (6 + (off - 0x200) / 0x20)
      else if R.POS_Q_SCL.off ≤ off ∧ (off - R.POS_Q_SCL.off) % R.POS_Q_SCL.stride = 0 ∧ (off - R.POS_Q_SCL.off) / R.POS_Q_SCL.stride < 14 then
        some (chanOf ((off - R.POS_Q_SCL.off) / R.POS_Q_SCL.stride))
      else none
    match chan with
    | some c => if L.chanOn c then (allBits - b2n (decide (off < 0x280 ∧ off % 0x20 = 0)), some Ev.POS_CFG_ERR) else (0, none)
    | none => (0, none)
  | .can =>
    if !L.is F.CAN_MODE_EN n then (0, none)
    else if off = R.CAN_MODE.off then (0xE, some Ev.CAN_CFG_ERR)
    else if off = R.CAN_NBT.off ∨ off = R.CAN_DBT.off ∨ off = R.CAN_XBT.off ∨ off = R.CAN_XLPWM.off then (allBits, some Ev.CAN_CFG_ERR)
    else (0, none)
  | .flx =>
    if !L.is F.FLX_CTL_EN then (0, none)
    else if off = R.FLX_CTL.off then (0xFE, some Ev.FLX_CFG_ERR)
    else if R.FLX_CYC.off ≤ off ∧ off ≤ R.FLX_INTEG.off then (allBits, some Ev.FLX_CFG_ERR)
    else (0, none)
  | _ => (0, none)

/-- What a block does beside its fields when one of these registers is written: the time of a KVAL source (R200), the test intervals
from a SOPT.EN that rises (R283), CHOP_FAULT with no chopper fitted (R274), the summaries of HSF_ARM (R355), MATCH of the Seals, a SEQ for the next
MULTI request (R452). `old` is the word before. -/
def Lane.afterWrite (L : Lane) (b : Blk) (n off : Nat) (val : Word) (old : Nat) : Lane :=
  match b with
  | .loop =>
    if R.LOOP_KVAL.off ≤ off ∧ off < R.LOOP_KVAL.off + 32 then
      L.onEng n (fun e => { e with kvalAt := e.kvalAt.set ((off - R.LOOP_KVAL.off) / 4) L.mtN })
    else L
  | .gd =>
    if off = R.GD_SOPT.off ∧ !bit old 0 ∧ L.is F.GD_SOPT_EN then
      { L with gate := { L.gate with
        sopDueAt := List.replicate 25 L.now, sopPassed := List.replicate 25 false, sopMiss := List.replicate 25 [] } }
    else L
  | .prot => if off = R.PROT_BRK.off ∧ !L.is F.PROT_BRK_EN then L.put F.PROT_VM_CHOP_FAULT 1 else L
  | .saf => if off = R.SAF_SEALREF.off then L.sealShow else L
  | .hsf => if off = R.HSF_ARM.off then L.hsfShow 5 else if off = R.HSF_SEALREF.off then L.sealShow else L
  | .eth => if off = R.ETH_PTP.off ∧ L.get F.ETH_PTP_DOMMT = L.get F.ETH_PTP_DOMV then L.gmDrop else L
  | .twp => if off = R.TWP_TXSEQ.off then { L with twp := { L.twp with txSeqNext := some val } } else L
  | _ => L

/-- The bits of a register that software can write. -/
def RegRow.writable (r : RegRow) : Nat :=
  (r.fields.filter (fun f => f.acc != .ro)).foldl (fun m f => m ||| ((2 ^ f.w - 1) * 2 ^ f.lo)) 0

/-- A register written: each field by its access code, the bits the block ignores left alone, the flags that an event set in this
cycle kept (R54, R251). An ignored write records its event; DESIGN
CHOICE: where the register has fields that may be written still, such as EN, only a write that would change an ignored one counts as
a write to it (log 35). -/
def Lane.regWrite (L : Lane) (a : Nat) (val : Word) : Lane :=
  match blockAt a with
  | none => L
  | some (b, n, off) =>
    match findRow b off with
    | none => L
    | some r =>
      let old := (L.rd a).toNat
      let new := L.written b n r old val.toNat ||| (old &&& (sget 0 a L.cyc.set).toNat)
      let (ign, ev) := L.frozen b n off
      let hit := (new ^^^ old) &&& ign != 0 || (ign != 0 && r.writable - (r.writable &&& ign) == 0)
      let L1 := L.wr a (BitVec.ofNat 32 ((new - (new &&& ign)) + (old &&& ign)))
      let L2 := match ev with
        | some e => if hit then L1.note e n else L1
        | none => L1
      L2.afterWrite b n off val old

/-! ### Writing the memories of a block -/

/-- The writable bits of a word of a message object (Table 12.2). -/
def objBits (o : Nat) : Nat :=
  if o = 0 then 0x1F7
  else if o = 4 ∨ o = 8 then 0x3FFFFFFF
  else if o = 0x0C then 0xFF01FFFF
  else if o = 0x10 then allBits
  else if o = 0x14 then 0x1FF00FFF
  else if 0x1C ≤ o ∧ o < 0x5C then allBits
  else 0

/-- A word of memory written under a mask of writable bits. -/
def Lane.putMasked (L : Lane) (a mask : Nat) (val : Word) : Lane :=
  let old := (L.memWord a).toNat
  L.setMemWord a (BitVec.ofNat 32 ((old - (old &&& mask)) + (val.toNat &&& mask)))

/-- An object whose payload lies at a pool byte has a request pending. -/
def Lane.canPoolBusy (L : Lane) (n k : Nat) : Bool :=
  (List.range 128).any (fun m => L.og n m 0 19 1 == 1 && 64 < L.og n m 0x14 0 12 &&
    64 * L.og n m 0x14 20 9 ≤ k + 3 && k < 64 * L.og n m 0x14 20 9 + L.og n m 0x14 0 12)

/-- A word of CAN_n's message memory written (R409, R411, R413): RO fields keep, ID_COLLIDE_STICKY clears by 1, a locked object takes
writes of its holder only, a pending one keeps its words 0x04 to 0x58 and its pool bytes. -/
def Lane.canMemWrite (L : Lane) (n a : Nat) (who : Master) (val : Word) : Lane :=
  let o := a % 0x10000
  if o < 0x8000 then
    let m := (o - 0x4000) / 0x80
    let w := o % 0x80
    let other := match (L.canSt n).lockOf m with
      | some k => k.who != who
      | none => false
    if other || (L.og n m 0 19 1 == 1 && decide (4 ≤ w) && decide (w < 0x5C)) then L.note Ev.CAN_OBJ_BUSY n
    else
      let L1 := L.putMasked a (objBits w) val
      if w = 0 ∧ bit val.toNat 24 then L1.op n m 0 24 1 0 else L1
  else if L.canPoolBusy n (o - 0x8000) then L.note Ev.CAN_OBJ_BUSY n
  else L.setMemWord a val

/-- Buffers `m` and `j` of FLX may not both be on: same slot, a common channel, a cycle in which both act (R431). -/
def Lane.bufClash (L : Lane) (m j : Nat) : Bool :=
  j != m && L.bg j 0 0 2 != 0 && L.bg j 0 0 2 != 3 && L.bg j 0 4 11 == L.bg m 0 4 11 &&
  (L.bg j 0 2 2 &&& L.bg m 0 2 2) != 0 && cycMeet (L.bg j 0 15 6) (L.bg j 0 21 3) (L.bg m 0 15 6) (L.bg m 0 21 3)

/-- A payload that runs past the end of the pool (R431). -/
def Lane.bufPast (L : Lane) (m : Nat) : Bool := decide (0x8000 < 8 * L.bg m 4 8 12 + 2 * L.bg m 4 0 7)

/-- A pending buffer's payload lies at a pool byte (R433). -/
def Lane.flxPoolBusy (L : Lane) (k : Nat) : Bool :=
  (List.range 128).any (fun m => L.bg m 8 8 1 == 1 && 8 * L.bg m 4 8 12 ≤ k + 3 && k < 8 * L.bg m 4 8 12 + 2 * L.bg m 4 0 7)

/-- A word of FLX's message memory written (R431, R432, R433). -/
def Lane.flxMemWrite (L : Lane) (a : Nat) (who : Master) (val : Word) : Lane :=
  let o := a % 0x10000
  if o < 0x4800 then
    let m := (o - 0x4000) / 0x10
    let w := o % 0x10
    let other := match L.flx.locks.find? (fun k => k.obj == m) with
      | some k => k.who != who
      | none => false
    if other || L.bg m 8 8 1 == 1 then L.note Ev.FLX_OBJ_BUSY
    else if w = 0 then
      let L1 := L.putMasked a 0x3FFFFFF val
      let on := L1.bg m 0 0 2 != 0 && L1.bg m 0 0 2 != 3
      if on && ((List.range 128).any (L1.bufClash m) || L1.bufPast m) then L.note Ev.FLX_CFG_ERR else L1
    else if w = 4 then
      let L1 := L.putMasked a 0xFFF7F val
      let on := L1.bg m 0 0 2 != 0 && L1.bg m 0 0 2 != 3
      if on && L1.bufPast m then L.note Ev.FLX_CFG_ERR else L1
    else L
  else if o < 0x8000 then L
  else if L.flxPoolBusy (o - 0x8000) then L.note Ev.FLX_OBJ_BUSY
  else L.setMemWord a val

/-- A word of TWP's memory written: the words of a DID entry (R451), whose EN has a command of its own; the counters are RO. -/
def Lane.twpMemWrite (L : Lane) (a : Nat) (val : Word) : Lane :=
  let o := a % 0x10000
  if 0x1000 ≤ o ∧ o < 0x1800 then
    let i := (o - 0x1000) / 0x20
    let w := o % 0x20
    let mask := if w = 0 then 0xFFFEFFFF else if w = 4 then 0x07FFFFFF else if w = 8 then 0x0007FFFF else if w = 0x0C then 0xFFFF else 0
    if L.dg i 0 16 1 = 1 then
      let new := (L.putMasked a mask val)
      if w = 0 ∧ new.memWord a = L.memWord a then L else L.note Ev.TWP_CFG_ERR
    else L.putMasked a mask val
  else if 0x2000 ≤ o ∧ o < 0x2418 then L     -- the window of the oldest frame is RO
  else L.setMemWord a val

/-- A bank's write during its copy, and after it: the reserve takes what the pruned bank is written (R400). Addresses stay those of the
bank, which the model keeps as the bank's own bytes. -/
def Lane.memWrite (L : Lane) (m : Master) (a : Nat) (val : Word) : Lane :=
  if 0x30000000 ≤ a ∧ a < 0x30040000 then
    let n := (a - 0x30000000) / 0x10000
    if 0x8000 ≤ a % 0x10000 then L.dmWrite n ((a % 0x10000 - 0x8000) / 4) (BitVec.ofNat 16 val.toNat)
    else if L.is F.LOOP_ECTL_RUN n then L.busFault m true a
    else (L.setMemWord a val).unpoison a
  else (L.setMemWord a val).unpoison a

/-- An access to the Hedge window put to the link master (R24): it waits its turn, or starts at once. -/
def Lane.hedgeAccess (L : Lane) (write : Bool) (off : Nat) (data : Word) : Lane :=
  { L with link := { L.link with accesses := L.link.accesses ++ [⟨write, off, data, 0, L.now⟩] } }

/-- The word the fabric writes for a master at an aligned address it may reach. A store to the Hedge window goes to the link master. -/
def Lane.busWrite (L : Lane) (m : Master) (a : Nat) (val : Word) : Lane :=
  if a % 4 ≠ 0 then L.busFault m true a
  else if inMemory a then (if L.domOn (memDom a) then L.memWrite m a val else L.busFault m true a)
  else if 0x4C000000 ≤ a ∧ a < 0x50000000 then L.plicWrite a val
  else match blockAt a with
    | none => L.busFault m true a
    | some (b, n, off) =>
      if b.isHedge then (if L.link.trained then L.hedgeAccess true (a - 0x50000000) val else L.busFault m true a)
      else if !(aonReg a || L.blkPowered b) then L.busFault m true a
      else if L.blkIsolated b n && decide (0x40 ≤ off) then L.busFault m true a
      else if inBlkMem b n a then
        match b with
        | .can => L.canMemWrite n a m val
        | .flx => L.flxMemWrite a m val
        | .twp => L.twpMemWrite a val
        | _ => (L.setMemWord a val).unpoison a
      else L.regWrite a val

end Sys2Proof.Machine
end

