-- ==== Sys2Proof/Machine/Freeze.lean ====
section
/-!
DEFINITION. Machine/Freeze.lean: CTL.DBG_FRZ (R50, R142): while a core of the lane is halted in debug, and not in life-cycle state FIELD,
the timers of a block with the bit set stop. A timer is an instant of the lane's clock it runs from or to; it stops by moving with the
clock.
-/

namespace Sys2Proof.Machine

/-- A core of the lane is halted. -/
def Lane.debugHalted (L : Lane) : Bool := L.trio.halted != 0 || L.is F.TRIO_SVC_HALTED

/-- A running instant moved by a tick. -/
def moved (t : Nat) : Nat := t + 1

/-- The same where there may be none. -/
def movedO (t : Option Nat) : Option Nat := t.map moved

/-- A step of a power domain in progress. -/
def DomPhase.moved : DomPhase → DomPhase
  | .stable => .stable
  | .drop a b t => .drop a b (t + 1)
  | .rise a t r => .rise a (t + 1) r

/-- The timers of an outstanding command. -/
def TCmd.moved (c : TCmd) : TCmd := { c with startAt := c.startAt + 1, planned := c.planned + 1 }

/-- The timers of an actuator. -/
def ActSt.moved (x : ActSt) : ActSt := { x with rampEnd := x.rampEnd + 1, disableAt := x.disableAt + 1 }

/-- The falls a safety path waits on. -/
def LimitSt.moved (m : LimitSt) : LimitSt := { m with falls := m.falls.map (fun f => (f.1 + 1, f.2)) }

/-- The timers of a drive engine. -/
def DrvSt.moved (d : DrvSt) : DrvSt :=
  { d with
    stAt := d.stAt + 1, lossAt := d.lossAt + 1, winAt := d.winAt + 1, cycAt := d.cycAt + 1, rearmAt := movedO d.rearmAt
    noregAt := d.noregAt + 1, climSince := movedO d.climSince }

/-- The timers of a block instance stopped for a tick. -/
def Lane.stopTimers (L : Lane) (b : Blk) (n : Nat) : Lane :=
  match b with
  | .hk => L
  | .pwr => { L with pwr := { L.pwr with dom := L.pwr.dom.map DomPhase.moved, quietAt := moved L.pwr.quietAt, bemfAt := moved L.pwr.bemfAt } }
  | .clk => { L with clk := { L.clk with
      lastSteer := moved L.clk.lastSteer, driftSince := movedO L.clk.driftSince, aonLostAt := movedO L.clk.aonLostAt
      phase := match L.clk.phase with
        | .raiseSettle k t => .raiseSettle k (t + 1)
        | p => p } }
  | .trio => { L with trio := { L.trio with
      detectAt := moved L.trio.detectAt, copyAt := moved L.trio.copyAt, stopAt := moved L.trio.stopAt, injAt := moved L.trio.injAt
      injDefer := movedO L.trio.injDefer, svcInjAt := moved L.trio.svcInjAt } }
  | .cmdq => { L with cmdq := { L.cmdq with
      slots := L.cmdq.slots.map (fun r => { r with since := r.since + 1 }), queue := L.cmdq.queue.map TCmd.moved
      dups := L.cmdq.dups.map (fun d => (d.1, d.2.1, d.2.2 + 1)), acts := L.cmdq.acts.map ActSt.moved } }
  | .ozl => { L with ozl := { L.ozl with
      lastHeart := L.ozl.lastHeart.map moved, lastTrain := L.ozl.lastTrain.map moved, mirrorAt := L.ozl.mirrorAt.map moved
      graftAt := moved L.ozl.graftAt, lastAttempt := moved L.ozl.lastAttempt, graftDue := moved L.ozl.graftDue
      readyAt := movedO L.ozl.readyAt, scoreAt := L.ozl.scoreAt.map moved, extLast := moved L.ozl.extLast } }
  | .saf => { L with saf := { L.saf with
      lim := L.saf.lim.moved, conf := L.saf.conf.map movedO, l1From := movedO L.saf.l1From
      sbh := L.saf.sbh.map (fun x => { x with at_ := x.at_ + 1, creeps := x.creeps.map moved })
      run := L.saf.run.map (fun r => { r with endAt := r.endAt + 1 }), recheckAt := moved L.saf.recheckAt } }
  | .cnv => L.onCnv n (fun c => { c with calAt := movedO c.calAt, suspectAt := movedO c.suspectAt })
  | .cnvSq => { L with icv := { L.icv with run := L.icv.run.map (fun r => { r with startAt := r.startAt + 1, endAt := r.endAt + 1 }) } }
  | .pos => { L with pos := { L.pos with
      enc := L.pos.enc.map (fun e => { e with illAt := e.illAt.map moved })
      res := L.pos.res.map (fun r => { r with stepAt := r.stepAt + 1 })
      sent := L.pos.sent.map (fun x => { x with tmoAt := x.tmoAt + 1, trigAt := movedO x.trigAt }) } }
  | .drv => L.onDrv n DrvSt.moved
  | .bist => { L with test := { L.test with
      schedAt := moved L.test.schedAt, fallowAt := movedO L.test.fallowAt
      slice := L.test.slice.map (fun x => { x with startAt := movedO x.startAt }) } }
  | .msup => { L with test := { L.test with
      scrubAt := movedO L.test.scrubAt, decAt := moved L.test.decAt, remap := L.test.remap.map (fun x => (x.1, x.2 + 1)) } }
  | .alm => { L with alm := { L.alm with
      snapEnd := moved L.alm.snapEnd, lc := L.alm.lc.map (fun x => { x with startAt := x.startAt + 1 }) } }
  | .can => { L with can := L.can.modify n (fun c => { c with
      locks := c.locks.map (fun k => { k with at_ := k.at_ + 1 }), lastFrame := c.lastFrame + 1 }) }
  | .flx => { L with flx := { L.flx with
      locks := L.flx.locks.map (fun k => { k with at_ := k.at_ + 1 }), listenAt := moved L.flx.listenAt } }
  | .eth => { L with eth := { L.eth with lastFrame := moved L.eth.lastFrame } }
  | .twp => { L with twp := { L.twp with
      opens := L.twp.opens.map (fun o => { o with endAt := o.endAt + 1 }), watchAt := L.twp.watchAt.map moved } }
  | .preq => { L with pwr := { L.pwr with
      run := L.pwr.run.map (fun r => { r with t0 := r.t0 + 1, nextAt := r.nextAt + 1 }), pollAt := moved L.pwr.pollAt } }
  | .gd => { L with gate := { L.gate with
      offAt := L.gate.offAt.map moved, edgeAt := L.gate.edgeAt.map moved, bothOffAt := L.gate.bothOffAt.map moved
      cpIdleAt := moved L.gate.cpIdleAt, ilkAt := L.gate.ilkAt.map (fun x => x.map moved), aliveAt := moved L.gate.aliveAt
      kickAt := moved L.gate.kickAt, dtAt := moved L.gate.dtAt, sopAt := moved L.gate.sopAt } }
  | .prot => { L with gate := { L.gate with
      scFirst := L.gate.scFirst.map (fun x => x.map (fun p => (p.1, p.2 + 1))), holdEnd := L.gate.holdEnd.map movedO
      brkAt := moved L.gate.brkAt, brkOffAt := moved L.gate.brkOffAt, odAt := moved L.gate.odAt, sopDueAt := L.gate.sopDueAt.map moved, sopMiss := L.gate.sopMiss.map (fun x => x.map moved) } }
  | .hsf => { L with hsf := { L.hsf with
      lim := L.hsf.lim.moved, unavAt := L.hsf.unavAt.map movedO
      run := L.hsf.run.map (fun r => { r with endAt := r.endAt + 1 }), recheckAt := moved L.hsf.recheckAt } }
  | .sdl => { L with sdl := { L.sdl with
      cellAt := L.sdl.cellAt.map moved, lastCellAt := moved L.sdl.lastCellAt, xDecide := L.sdl.xDecide.map movedO
      bothSince := movedO L.sdl.bothSince, oneSince := movedO L.sdl.oneSince, recheckAt := movedO L.sdl.recheckAt
      disAt := moved L.sdl.disAt } }
  | .ths => { L with ths := { L.ths with
      dieAt := moved L.ths.dieAt, tdAt := L.ths.tdAt.map moved, refAt := moved L.ths.refAt
      fuse := L.ths.fuse.map (fun x => { x with at_ := x.at_ + 1 }), round := L.ths.round.map (fun r => { r with startAt := r.startAt + 1 }) } }
  | .hlnk => { L with link := { L.link with
      lastLeg := moved L.link.lastLeg, legsSince := moved L.link.legsSince, lastLegSent := moved L.link.lastLegSent
      lastTimeSent := moved L.link.lastTimeSent, lastTime := moved L.link.lastTime, lastIrq := moved L.link.lastIrq
      accesses := L.link.accesses.map (fun h => { h with sentAt := h.sentAt + 1 }), clkBadAt := moved L.link.clkBadAt } }
  | .sys | .loop | .nvmc | .dbg | .icv => L

/-- The Hedge's blocks, one instance each. -/
def hedgeBlks : List Blk := [.gd, .prot, .icv, .hsf, .sdl, .ths, .hlnk]

/-- The block instances of a lane. -/
def allBlks : List (Blk × Nat) :=
  (logicBlks.flatMap (fun p => (List.range p.2).map (fun n => (p.1, n)))) ++ hedgeBlks.map (fun b => (b, 0))

/-- A tick of the lane's clock as the frozen blocks see it. -/
def Lane.debugFreeze (L : Lane) : Lane :=
  if L.debugHalted && L.get F.SYS_LC_STATE != 2 then
    allBlks.foldl (fun K b => if K.is (H.CTL_DBG_FRZ b.1) b.2 then K.stopTimers b.1 b.2 else K) L
  else L

end Sys2Proof.Machine
end

