-- ==== Sys2Proof/Machine/Clock.lean ====
section
/-!
DEFINITION. Machine/Clock.lean: one tick of 5 ns, which is what a step does while no command waits (R34, R39; log 1).
-/

namespace Sys2Proof.Machine

/-- One tick of the link's two ends: the times a CRC beat in flight was driven at, and the Hedge's copy of module time, advanced at each
RC cycle from the value last loaded (R39, R40). -/
def LinkSt.tick (k : LinkSt) (mt : Word) (now : Nat) (hedge : Bool) : LinkSt :=
  { k with
    mtAgo := [mt, k.mtAgo.getD 0 0]
    hedgeMt :=
      if hedge && now % 5 == 0 then k.rcLoad.1 + BitVec.ofNat 32 ((now / 5 - k.rcLoad.2) * k.inc.1 / k.inc.2)
      else k.hedgeMt }

/-- One tick of a lane: its own clock, its copy of module time while the PLL runs and no tick is to be omitted (R34), the Hedge's copy
(R39); timers of blocks frozen in debug stand (R142); occurrences that waited for a snapshot of the Almanac reach it once the snapshot is over
(R521). -/
def Lane.tick (L : Lane) : Lane :=
  { L with
    now := L.now + 1
    cyc := {}
    mt := if L.clk.pllOn && !L.clk.skipTick then L.mt + 1 else L.mt
    clk := { L.clk with skipTick := L.clk.skipTick && !L.clk.pllOn }
    link := L.link.tick L.mtLo (L.now + 1) L.hedgeUp }.debugFreeze.almDrain.latchIrq

/-- One tick of the three lanes. -/
def State.tick (s : State) : State := { s with laneA := s.laneA.tick, laneB := s.laneB.tick, laneC := s.laneC.tick }

end Sys2Proof.Machine
end

