-- ==== Sys2Proof/Machine/Alm.lean ====
section
/-!
DEFINITION. Machine/Alm.lean: the commands of The Almanac and the life cycle (17): alarm, snapshot, write, calendar, and a
transition that was not confirmed; and the end of the digest recomputation (R87).
-/

namespace Sys2Proof.Machine

/-- The alarm's two conditions (R521): 600 s of calendar with TRIO ON, or the second in WAKEAT. -/
def Lane.alarmDue (L : Lane) : Bool :=
  (L.domOn 1 && decide (600 ≤ L.alm.since)) || (L.reg R.ALM_WAKEAT != 0 && L.reg R.ALM_WAKEAT == L.cal)

/-- ALMANAC_ALARM (R521, R492): the alarm fires, pulses source 86, begins a write and wakes a sleeping lane. -/
def execAlmanacAlarm (l : LaneId) (s : State) : Out :=
  s.on l Lane.alarmDue (fun L =>
    let L1 := if L.reg R.ALM_WAKEAT == L.cal then L.setReg R.ALM_WAKEAT 0 else L
    let L2 := (L1.onAlm (fun a => { a with since := 0 })).pulse 86
    let L3 := if L2.is F.PWR_WAKEEN_ALM && L2.asleep then L2.wake 7 else L2
    (L3.entryVote 10).almBegin)

/-- SNAP (R521): the live record frozen and copied for 20 us. -/
def execSnap (l : LaneId) (s : State) : Out :=
  s.on l (fun L => L.up && decide (L.alm.snapEnd ≤ L.now)) (fun L =>
    L.almDrain.onAlm (fun a => { a with copy := a.rcd, snapEnd := L.now + us 20 }))

/-- ALM_WRITE: a write of ALM_CTL.WRITE requests an Almanac write; ignored while BUSY. -/
def execAlmWrite (l : LaneId) (s : State) : Out := s.on l Lane.up Lane.almBegin

/-- The record as it is programmed: the snapshot with GEN, CAL, the leg-change counts and the erase counts (R521, R518). -/
def Lane.almRecord (L : Lane) : List Host.Cell :=
  let gen := L.almGet 0x004 4 + 1
  let r1 := rcdPut (rcdPut L.alm.copy 0x004 gen 4) 0x008 L.cal 4
  let r2 := [0, 1, 2, 3].foldl (fun r b =>
    rcdPut (rcdPut r (0x040 + 8 * b) (L.reg R.DRV_SWCNT_LO b) 4) (0x044 + 8 * b) (L.reg R.DRV_SWCNT_HI b) 4) r1
  let r3 := (List.range 8).foldl (fun r p => rcdPut r (0x0A0 + 4 * p) (L.alm.erased.getD p 0) 4) r2
  let bytes := (List.range 0x7FC).map (fun i => sget (0 : Byte) i r3)
  rcdPut r3 0x7FC (crc32c bytes).toNat 4

/-- ALMANAC_WRITE_DONE (R521, R141, Table 17.8), by a service pair that runs: a slot that verifies is the last write; one that fails is written again in the next
slot. A slot with an even number erases its block first. -/
def execAlmanacWriteDone (l : LaneId) (ok : Bool) (s : State) : Out :=
  s.on l (fun L => L.is F.ALM_STAT_BUSY && L.svcRuns && decide (L.alm.snapEnd ≤ L.now)) (fun L0 =>
    let L := L0.almDrain
    let k := (L.get F.ALM_STAT_SLOT + 1) % 32
    let L1 := if k % 2 = 0 then L.onAlm (fun a => { a with
        slots := (a.slots.set k none).set (k + 1) none, erased := a.erased.set 3 (a.erased.getD 3 0 + 1) }) else L
    let rcd := L1.almRecord
    let gen := L1.almGet 0x004 4 + 1
    let L2 := (L1.onAlm (fun a => { a with slots := a.slots.set k (some ⟨gen, ok, rcd⟩) })).put F.ALM_STAT_SLOT k
    if ok then
      let L3 := (((L2.almPut 0x004 4 gen).almPut 0x008 4 L2.cal).put F.ALM_STAT_BUSY 0).onAlm (fun a => { a with
        lc := a.lc.map (fun r => if r.written then r else { r with written := true, startAt := L.now }) })
      (L3.unvoteAll 10).pulse 85
    else L2.transient Ev.ALM_WRITE_FAIL)

/-- CALSET (R520): any value in BLANK, COMMISSIONING and SERVICE; in FIELD within 60 s and once per drive cycle; never in
RETIRED. -/
def execCalset (l : LaneId) (val : Word) (s : State) : Out :=
  s.on l Lane.up (fun L =>
    let st := L.get F.SYS_LC_STATE
    let near := decide (val.toNat ≤ L.cal + 60) && decide (L.cal ≤ val.toNat + 60)
    if st = 0 ∨ st = 1 ∨ st = 3 ∨ (st = 2 ∧ near ∧ !L.alm.calSet) then
      (((L.setReg R.ALM_CAL val.toNat).put F.ALM_STAT_CALSTALE 0).almPut 0x015 1 0).onAlm (fun a => { a with calSet := a.calSet || st = 2 })
    else L.note Ev.ALM_CAL_REFUSED)

/-- The band of Table 17.3 of a temperature in 1/16 degree. -/
def hoursBand (t : Int) : Nat :=
  if t < -320 then 0 else if t < 320 then 1 else if t < 960 then 2 else if t < 1440 then 3 else if t < 1760 then 4
  else if t < 2000 then 5 else if t < 2240 then 6 else 7

/-- The governing die temperature at the last furrow round end: the higher of TH_0 and TH_1 in use (Table 17.3). -/
def Lane.dieTemp (L : Lane) : Int := max (L.getS F.HK_TEMP_USE 0 2) (L.getS F.HK_TEMP_USE 0 3)

/-- CALENDAR_SECOND (R518, R520): the calendar counts, and while TRIO is ON the HOURS of the governing temperature's band. -/
def execCalendarSecond (l : LaneId) (s : State) : Out :=
  s.on l Lane.hedgeUp (fun L =>
    let L1 := L.setReg R.ALM_CAL ((L.cal + 1) % 2 ^ 32)
    if L1.domOn 1 then
      (L1.almInc (0x020 + 4 * hoursBand L1.dieTemp) 4).onAlm (fun a => { a with since := a.since + 1 })
    else L1)

/-- The members whose confirmation of a transition is missing (R527). -/
def Lane.lcMissing (L : Lane) (r : LcRun) : Bool :=
  LaneId.all.any (fun x => x != L.strap && L.isMember x && !bit r.conf.toNat x.idx)

/-- LC_CONFIRM_TIMEOUT (R527): a member has not confirmed within 5 ms; copy 0 is restored and the command ends ABORTED. -/
def execLcConfirmTimeout (l : LaneId) (s : State) : Out :=
  s.on l (fun L => L.up && match L.alm.lc with
      | some r => r.written && L.since r.startAt (ms 5) && L.lcMissing r
      | none => false) (fun L =>
    match L.alm.lc with
    | none => L
    | some r =>
      let L1 := L.onAlm (fun a => { a with lc := none })
      match L1.cmd r.tag r.net with
      | some c => L1.finish c St.ABORTED
      | none => L1)

/-- DIGEST_RECHECK_DONE (R87): the recomputed digest compared with the running SDIG; `ok` that they are equal. -/
def execDigestRecheckDone (l : LaneId) (ok : Bool) (s : State) : Out :=
  s.on l (fun L => L.up && L.sdl.resolving && L.sdl.recheckAt.isSome) (fun L =>
    L.onSdl (fun d => { d with recheckAt := none, digestOk := some ok }))

end Sys2Proof.Machine
end

