-- ==== Sys2Proof/Machine/Authority.lean ====
section
/-!
DEFINITION. Machine/Authority.lean: commands of 02_three_lanes_one_authority.md: the Oztin links (R66 to R71), vote cells (R72 to
R74), the Saddle's vote (R75 to R80, R86 to R91), cross-inhibit (R81 to R85), graft and forming (R98 to R101).
-/

namespace Sys2Proof.Machine

/-- The vote sequence number of the next boundary (R72). -/
def Lane.nextSeq (L : Lane) : Word := BitVec.ofNat 32 (L.voteK + 1)

/-! ### Links (R66 to R71) -/

/-- The slot whose start lies nearest to an instant of a link cycle, and the distance from it: slots `unit` apart, the cycle `cyc`
long. -/
def slotAt (cyc unit t : Nat) : Nat × Int :=
  let n := (t + unit / 2) / unit
  if n < 12 then (n, (t : Int) - n * unit)
  else if cyc - t < t - 11 * unit then (0, (t : Int) - cyc)
  else (11, (t : Int) - 11 * unit)

/-- Slot and distance from its expected start, in ns, of a cell whose last byte arrives `ns` after the present tick: the start given
by R66 (R110 on the external port) on the own module time plus the delay measured at training (R69). -/
def Lane.cellOff (L : Lane) (link : Nat) (ns : Nat) : Nat × Int :=
  let unit := if link = 2 then 160 else 80
  let cyc := if link = 2 then 2000 else 1000
  slotAt cyc unit ((5 * L.mtN + ns + 2 * cyc - unit - L.get F.OZL_LINK_DELAY 0 link) % cyc)

/-- The lane at the other end of a port: a peer, or the same lane of the partner module. -/
def portPeer (l : LaneId) (link : Nat) : LaneId := if link = 2 then l else linkPeer l link

/-- A cell taken from a link: discarded outside its guard window (R69, R110), corrected or discarded by the code (R68). What stands
is its header and payload; a cell of another slot, lane or port is none of this link's (log 119). -/
def Lane.linkRx (L : Lane) (link : Nat) (ns : Nat) (cell : List Byte) : Lane × Option (CellHdr × List Byte) :=
  let o := L.cellOff link ns
  if (if link = 2 then 40 else 20) < o.2.natAbs then ((L.incSat F.OZL_LINK_GMISS 0 link).transient Ev.OZL_GUARD_MISS, none)
  else
    let r := decodeCell cell
    if r.1 = .failed then ((L.incSat F.OZL_LINK_RSFAIL 0 link).transient Ev.OZL_RS_FAIL, none)
    else
      let L1 := if r.1 = .corrected then L.note Ev.OZL_RS_CORR else L
      let h := cellHdr r.2
      if h.slot = o.1 ∧ h.src = (portPeer L.strap link).idx ∧ h.dst = L.strap.idx ∧ h.ext = (link == 2) then (L1, some (h, r.2.drop 8))
      else (L1, none)

/-- Member `i` of a list replaced. -/
def upd2 {α : Type} (l : List α) (i : Nat) (x : α) : List α := l.set i x

/-- The direct link between the two peers of a lane is down, as they see it (R71). -/
def peersCut (s : State) (l : LaneId) : Bool :=
  let x := l.next
  let y := l.prev
  -- y is next of x: LINK_0 of x, LINK_1 of y
  !(s.lane x).linkUp 0 || !(s.lane y).linkUp 1

/-- The lane relays between its peers: both ACTIVE, both own links up, the link between them down (R71). -/
def relaying (s : State) (l : LaneId) : Bool :=
  let L := s.lane l
  peersCut s l && L.linkUp 0 && L.linkUp 1 && L.stOf l.next == 1 && L.stOf l.prev == 1

/-- Flags byte of the lane's heartbeat: HSTOP, SOLO, OVR1 and HASC of the own Hedge (R74, R231). -/
def Lane.heartFlags (L : Lane) : Nat :=
  b2n (bit L.link.gateWord.toNat 2) + 2 * b2n (L.is F.CLK_MT_SYNC_SOLO) + 4 * b2n (bit L.link.gateWord.toNat 3)
    + 0x10 * bits L.link.gateWord.toNat 4 4

/-- The lane's heartbeat for a link: its module time as slot 1 starts, compensated for the link delay (R66, R74). -/
def Lane.heartOut (L : Lane) (link : Nat) : Heartbeat where
  src := L.strap
  cyc := BitVec.ofNat 16 (L.mtN / 200)
  mt := L.mt + 16 + BitVec.ofNat 64 (L.get F.OZL_LINK_DELAY 0 link / 5)
  state := BitVec.ofNat 8 L.own
  flags := BitVec.ofNat 8 L.heartFlags
  e2e := 0

/-- The header of a cell the lane sends in a slot of the present cycle (Table 2.2). -/
def Lane.txHdr (L : Lane) (link slot kind : Nat) : CellHdr where
  slot := slot
  kind := kind
  src := L.strap.idx
  dst := (linkPeer L.strap link).idx
  ext := false
  cyc := L.mtN / 200 % 2 ^ 16
  stream := 0
  offset := 0

/-- What the lane shares of a source code: a position quantity with its time and counter, or its speed (R199). -/
def Lane.sharedVal (L : Lane) (c : Nat) : Option SensorVal :=
  if c < 14 then
    let q := L.quant c
    some ⟨BitVec.ofInt 32 q.val, q.t, BitVec.ofNat 8 q.rc.toNat, q.valid && !q.fault⟩
  else if 16 ≤ c then
    let q := L.quant (c - 16)
    some ⟨BitVec.ofInt 32 q.spd, q.st, BitVec.ofNat 8 q.rc.toNat, q.svalid && !q.fault⟩
  else none

/-- The own position quantities shared with the peers at T(k) - 2 us (R199): value, time, rolling counter, validity of each source
code. -/
def Lane.ownSensors (L : Lane) : List StreamItem :=
  (List.range 26).filterMap (fun c =>
    if h : c < 26 then (L.sharedVal c).map (fun v => StreamItem.sensor ⟨c, h⟩ v) else none)

/-- The header words of the own blocks, as a peer's mirror of them holds them (R47, R48). -/
def Lane.ownMirror (L : Lane) : List (Nat × Word) :=
  L.regs.filterMap (fun e => match blockAt e.1 with
    | some (b, _, off) =>
      if off < 0x40 then
        some (windowBase L.strap + (if b.isHedge then 0x00800000 + (e.1 - 0x50000000) else e.1 - 0x40000000), e.2)
      else none
    | none => none)

/-- What slots 2 to 11 of the cycle that starts now carry (Table 2.3): the mirror every 40 us (R48), the sensors at T(k) - 2 us (R199),
the digests after a 10 ms mark (R115), packets (R164), and the relayed traffic (R71). -/
def Lane.streamOut (L : Lane) (link : Nat) (relay : Bool) : List StreamItem :=
  (if L.mtN / 200 % 40 = 0 then [.mirror L.ownMirror] else [])
    ++ (if L.inPeriod = L.periodT - 400 then L.ownSensors else [])
    ++ (match L.ozl.markDig with
      | some (c, d) => if L.mtN ≤ L.ozl.markAt + 200 then [.digests c d] else []
      | none => [])
    ++ (L.cmdq.fwdOut.getD link []).map StreamItem.packet
    ++ (if relay then
        (match L.peerCopy (1 - link) with
          | some c => [.relayed (linkPeer L.strap (1 - link))
              (.moduleTime (BitVec.ofInt 64 (c + 32 + (L.get F.OZL_LINK_DELAY 0 link / 5 : Nat))))]
          | none => []) ++ L.ozl.relayItems.getD link []
      else [])

/-- Start of a slot after the start of its cycle, in ns (R66). -/
def slotStart (slot : Nat) : Nat := 80 * slot

/-- LINK_CYCLE (R66, R67, Table 2.3): at each multiple of 200 ticks the twelve slots of the cycle are laid out: slot 0 carries the vote
cell in the cycle that starts at T(k+1) - 4 us, a relayed cell in the following one, IDLE otherwise; slot 1 the heartbeat; slots 2
to 11 the streams. -/
def execLinkCycle (l : LaneId) (link : Fin 2) (s : State) : Out :=
  s.on l (fun L => L.up && L.linkUp link.val && L.mtN % 200 == 0) (fun L =>
    let i := link.val
    let relay := relaying s l
    let voteNow := L.inPeriod == L.periodT - 800 && L.ozl.cellOut.isSome
    let out := if voteNow then L.ozl.cellOut.map votePayload else L.ozl.relayOut.getD i none
    let kind := if voteNow then 1 else if out.isSome then 4 else 0
    let s0 := sealCell (L.txHdr i 0 kind) (out.getD (List.replicate 64 0))
    let s1 := sealCell (L.txHdr i 1 2) (heartPayload (L.heartOut i))
    ((L.putB F.OZL_LSTATE_RELAY relay).onCmdq (fun q => { q with fwdOut := upd2 q.fwdOut i [] })).onOzl (fun o => { o with
      txCyc := upd2 o.txCyc i (L.mtN / 200 % 2 ^ 16)
      txSlot0 := upd2 o.txSlot0 i (if voteNow then .vote else if out.isSome then .relay else .idle)
      txCells := upd2 o.txCells i [s0, s1]
      txItems := upd2 o.txItems i (L.streamOut i relay)
      relayOut := if voteNow then o.relayOut else upd2 o.relayOut i none
      relayItems := upd2 o.relayItems i [] }))

/-- VOTE (R68, R71): a peer's cell taken and forwarded to the own Hedge; relayed to the third lane while their link is down. -/
def execVote (l : LaneId) (link : Fin 2) (ns : Fin 5) (cell : List Byte) (s : State) : Out :=
  s.on l (fun L => L.up && L.linkUp link.val) (fun L =>
    let r := L.linkRx link.val ns.val cell
    match r.2 with
    | some (h, p) =>
      if h.kind = 1 then
        let relay := relaying s l
        let L1 := r.1.onOzl (fun o => { o with
          peerCells := upd2 o.peerCells link.val (some (voteOf p))
          relayOut := if relay then upd2 o.relayOut (1 - link.val) (some p) else o.relayOut })
        L1.putB F.OZL_LSTATE_RELAY relay
      else r.1
    | none => r.1)

/-- RELAY_VOTE (R71): the cell is its originator's. -/
def execRelayVote (l : LaneId) (link : Fin 2) (ns : Fin 5) (cell : List Byte) (s : State) : Out :=
  s.on l (fun L => L.up && L.linkUp link.val) (fun L =>
    let r := L.linkRx link.val ns.val cell
    match r.2 with
    | some (h, p) =>
      let c := voteOf p
      if h.kind = 4 && c.origin.toNat != l.idx && decide (c.origin.toNat < 3) then
        r.1.onOzl (fun o => { o with peerCells := upd2 o.peerCells (peerIdx l (LaneId.ofIdx c.origin.toNat)) (some c) })
      else r.1
    | none => r.1)

/-- The lane decides that the peer at `i` (0 next, 1 previous) must be stopped: only while its own lane is ACTIVE (R81). -/
def Lane.decideStop (L : Lane) (i : Nat) : Lane :=
  if L.active && (L.sdl.xDecide.getD i none).isNone then
    L.onSdl (fun d => { d with xDecide := upd2 d.xDecide i (some L.now), hstopSeen := upd2 d.hstopSeen i false })
  else L

/-- Everything a lane needs to be ready to form (R100). -/
def Lane.formReady (L : Lane) : Bool :=
  L.own == 0 && L.get F.OZL_GRAFT_PHASE == 0 && (L.linkUp 0 || L.linkUp 1) && L.clk.adopted && L.refDone &&
    L.ozl.odiagDone == 0xF

/-- The instant a lane became ready kept (R100). -/
def Lane.readyCheck (L : Lane) : Lane :=
  if L.formReady && L.ozl.readyAt.isNone then L.onOzl (fun o => { o with readyAt := some L.now }) else L

/-- The copies heard over the links that are up, once each of them has brought one (R36). -/
def Lane.heardCopies (L : Lane) : Option (List Nat) :=
  let up := [0, 1].filter L.linkUp
  let cs := up.filterMap L.peerCopy
  if up.isEmpty || cs.length != up.length then none else some (cs.map Int.toNat)

/-- While no lane of the module votes, the largest copy heard is adopted by one step, never backward (R36). -/
def Lane.adoptFirst (L : Lane) : Lane :=
  if L.members = 0 && !L.clk.adopted && L.stOf L.strap.next != 1 && L.stOf L.strap.prev != 1 then
    match L.heardCopies with
    | some cs => L.adoptTime (cs.foldl max L.mtN)
    | none => L
  else L

/-- HEART (R34, R36, R70, R81): a valid heartbeat keeps the link, brings the peer's time, state and flags; its time is that of its
first byte, 80 ns before its last. -/
def execHeart (l : LaneId) (link : Fin 2) (ns : Fin 5) (cell : List Byte) (s : State) : Out :=
  s.on l (fun L => L.up && L.linkUp link.val) (fun L =>
    let i := link.val
    let r := L.linkRx i ns.val cell
    match r.2 with
    | some (h, p) =>
      let hb := heartOf h p
      if h.kind = 2 && e2eOk h.src h.cyc p then
        let L1 := r.1.onOzl (fun o => { o with
          lastHeart := upd2 o.lastHeart i L.now
          peerMt := upd2 o.peerMt i (some (hb.mt.toNat + 16, L.now))
          peerFlags := upd2 o.peerFlags i hb.flags })
        let L2 := L1.setStOf hb.src (hb.state.toNat % 8)
        let L4 := L2.adoptFirst.syncShow
        let L5 := if bit hb.flags.toNat 0 && (L4.sdl.xDecide.getD i none).isSome then
            L4.onSdl (fun d => { d with hstopSeen := upd2 d.hstopSeen i true }) else L4
        let L6 := if (hb.state.toNat % 8 == 3 || hb.state.toNat % 8 == 4) && L5.isMember hb.src then L5.decideStop i else L5
        -- an over-voltage report of a peer, present or just ended (R231)
        let L7 := if L6.ovReported || L.ovReported then L6.noregReport else L6
        L7.readyCheck
      else r.1
    | none => r.1)

/-- What a stream item of lane `peer` leaves (R48, R71, R115, R164, R199, Table 2.3). Only the offsets 0x000 to 0x03F of a block are
mirrored (R47). -/
def Lane.takeItem (L : Lane) (peer : LaneId) : StreamItem → Lane
  | .mirror words =>
    let L1 := words.foldl (fun K w => if inMirror peer w.1 then K.setMirror w.1 w.2 else K) L
    let L2 := (L1.setMirror (windowBase peer + 0x00F00000) L1.mtLo).setMirror (windowBase peer + 0x00F00004) 0
    L2.onOzl (fun o => { o with mirrorAt := upd2 o.mirrorAt peer.idx L.now })
  | .sensor code v => L.onOzl (fun o => { o with sensors := o.sensors.set (32 * peerIdx L.strap peer + code.val) (some v) })
  | .digests c d => L.onOzl (fun o => { o with
      peerCdig := upd2 o.peerCdig (peerIdx L.strap peer) (some c), peerSdig := upd2 o.peerSdig (peerIdx L.strap peer) (some d) })
  | .graftImage words =>
    if L.own = 0 && L.get F.OZL_GRAFT_PHASE == 3 then
      (words.foldl (fun K w => K.setMemWord w.1 w.2) L).onOzl (fun o => { o with imageSeen := true }) else L
  | .replay words =>
    if L.own = 0 && L.get F.OZL_GRAFT_PHASE == 3 && L.ozl.imageSeen then words.foldl (fun K w => K.setMemWord w.1 w.2) L else L
  | .packet bytes => L.onCmdq (fun q => { q with fwdIn := q.fwdIn ++ [bytes] })
  | .lcConfirm t => L.lcPeer peer t.toNat
  | .challenge c => if L.drawer then L else L.takeChal c
  | .bulk => L
  | .moduleTime mt => L.onOzl (fun o => { o with peerMt := upd2 o.peerMt (peerIdx L.strap peer) (some (mt.toNat + 16, L.now)) })
  | .relayed x item => if x = L.strap then L else L.takeItem x item

/-- STREAM (R48, R71, R115, R164, Table 2.3): what the streams of a peer bring; while the lane relays, they go on to the third lane. What
stream identifiers and offsets stand for, the spec does not lay out: the item is the operand (log 120). -/
def execStream (l : LaneId) (link : Fin 2) (ns : Fin 5) (cell : List Byte) (item : StreamItem) (s : State) : Out :=
  s.on l (fun L => L.up && L.linkUp link.val) (fun L =>
    let i := link.val
    let r := L.linkRx i ns.val cell
    match r.2 with
    | some (h, _) =>
      if h.kind = 3 then
        let peer := linkPeer l i
        let L1 := r.1.takeItem peer item
        if relaying s l then
          L1.onOzl (fun o => { o with relayItems := upd2 o.relayItems (1 - i) (o.relayItems.getD (1 - i) [] ++ [.relayed peer item]) })
        else L1
      else r.1
    | none => r.1)

/-- LINK_HEART_LOSS (R70): no valid HEART for 3 link cycles, on the external port cycles of 2 us (R110). -/
def execLinkHeartLoss (l : LaneId) (link : Fin 3) (s : State) : Out :=
  s.on l (fun L => L.up && L.linkUp link.val && L.since (nthN L.ozl.lastHeart link.val) (us (if link.val = 2 then 6 else 3))) (fun L =>
    let L1 := L.put F.OZL_LINK_UP 0 0 link.val
    (if link.val = 2 then L1.put F.OZL_PAIR_PUP 0 else L1.setStOf (linkPeer l link.val) 7).onOzl (fun o => { o with
      lastTrain := upd2 o.lastTrain link.val L.now, training := upd2 o.training link.val true }))

/-- LINK_RETRAIN (R70): every 1 ms while the link is down; a retraining that did not complete has failed, and the third failure
in succession is recorded. The external port of a module used alone stays down (R112). -/
def execLinkRetrain (l : LaneId) (link : Fin 3) (s : State) : Out :=
  s.on l (fun L => L.up && !L.linkUp link.val && (link.val != 2 || L.is F.OZL_PAIR_PAIRED) &&
      L.since (nthN L.ozl.lastTrain link.val) (ms 1)) (fun L =>
    let i := link.val
    let fails := if nthB L.ozl.training i then nthN L.ozl.trainFails i + 1 else nthN L.ozl.trainFails i
    let L0 := if nthB L.ozl.training i then L.put F.OZL_LINK_TRAINED 0 0 i else L
    let L1 := L0.onOzl (fun o => { o with
      lastTrain := upd2 o.lastTrain i L.now, training := upd2 o.training i true, trainFails := upd2 o.trainFails i fails })
    if fails = 3 && nthB L.ozl.training i then L1.note Ev.OZL_LINK_DOWN else L1)

/-- LINK_TRAINED (R70): the delay measured, the link UP. -/
def execLinkTrained (l : LaneId) (link : Fin 3) (delayNs : Byte) (s : State) : Out :=
  s.on l (fun L => L.up && nthB L.ozl.training link.val) (fun L =>
    let i := link.val
    let L1 := L.setReg R.OZL_LINK (3 + delayNs.toNat * 0x100) 0 i
    (L1.onOzl (fun o => { o with
      training := upd2 o.training i false, trainFails := upd2 o.trainFails i 0, lastHeart := upd2 o.lastHeart i L.now })).readyCheck)

/-! ### Building and sending the own cell (R72, R73, R93) -/

/-- The currents of the disagreement resolution: the deviation of each channel of a bridge in service whose last compared window
is recent enough lies within 2.00 %; none where no channel has such a window (R87). -/
def Lane.resCurrents (L : Lane) : Option Bool :=
  let one (n : Nat) : Option Bool :=
    match (L.cnvs.getD n {}).lastD with
    | some (d, t) =>
      if !L.outOfService (.drv (n / 2)) && decide (t ≤ L.sdl.disAt) && decide (L.sdl.disAt ≤ t + ms 20 + 20 * L.icv.len) then some (decide (d.natAbs ≤ 200)) else none
    | none => none
  let rs := (List.range 8).filterMap one
  if rs.isEmpty then none else some (rs.all id)

/-- The position of the disagreement resolution: own, estimated and received from the peer; the spec states no tolerance
(log 19). DESIGN CHOICE: it names no position either; that of actuator 0 and of its drive engine is compared, with the first peer that
has a value (log 125). -/
def Lane.resPosition (L : Lane) : Option Bool :=
  let c := L.mapOf 0 false
  match L.ownVal c, (LaneId.all.filter (fun x => x != L.strap && L.isMember x)).filterMap (fun x => L.memberVal x c) with
  | some own, peer :: _ => some (Config.posAgree own (L.getS F.DRV_POS_E_POS) peer)
  | _, _ => none

/-- RESOLVE (R87): 1 PASS when every comparison not left out passes, 2 FAIL otherwise, and when all are left out. -/
def Lane.resolution (L : Lane) : Nat :=
  let rs := [L.resCurrents, L.resPosition, L.sdl.digestOk].filterMap id
  if !rs.isEmpty && rs.all id then 1 else 2

/-- ENA of the lane's cell: bridges of actuators being enabled, enabled or ramping down (R170). -/
def Lane.cellEna (L : Lane) : Nat :=
  [0, 1, 2, 3].foldl (fun m b =>
    let t := L.cmdq.acts.getD b {}
    match t.bridge with
    | .enabling | .enabled => m + 2 ^ b
    | .disabling => if L.now < t.rampEnd then m + 2 ^ b else m
    | _ => m) 0

/-- ASC of the lane's cell. -/
def Lane.cellAsc (L : Lane) : Nat :=
  [0, 1, 2, 3].foldl (fun m b => match (L.cmdq.acts.getD b {}).bridge with
    | .asc => m + 2 ^ b
    | _ => m) 0

/-- The cell for boundary T(k+1), without its E2E; `stoMask` names the bridges that the safety functions hold at ENA 0 (R355). -/
def Lane.buildCell (L : Lane) (stoMask : Nat) : VoteCell :=
  let m := L.members
  let ph := L.get F.OZL_GRAFT_PHASE
  { vseq := L.nextSeq
    origin := BitVec.ofNat 2 L.strap.idx
    lstate := BitVec.ofNat 3 L.own
    shadow := L.own == 0 && decide (4 ≤ ph)
    late := L.ozl.shLate || L.loops.any (fun e => e.act.isSome)   -- an activation unfinished at the deadline (R192)
    novote := L.is F.SDL_VSTAT_NOVOTE
    refs :=
      { level := BitVec.ofNat 2 (L.get F.OZL_LSTATE_LEVEL)
        share := BitVec.ofNat 2 L.ozl.shareNow
        member := BitVec.ofNat 3 m
        ena := BitVec.ofNat 4 (L.cellEna - (L.cellEna &&& stoMask))
        asc := BitVec.ofNat 4 L.cellAsc
        leave := L.ozl.leaveNow
        join := L.ozl.joinNow
        tq := [0, 1, 2, 3].map (L.portRef 1)
        fx := [0, 1, 2, 3].map (L.portRef 2) }
    score := BitVec.ofNat 16 L.score
    resolve := if L.sdl.resolving && L.get F.SDL_VSTAT_FRZCNT == 2 then BitVec.ofNat 2 L.resolution else 0
    cdig := L.ozl.cdig
    sdig := BitVec.ofNat 32 (L.get F.TRIO_SDIG_SDIG)
    e2e := 0 }

/-- CELL_BUILD (R72, R93): from T(k+1) - 5 us on. -/
def execCellBuild (l : LaneId) (s : State) : Out :=
  s.on l (fun L => L.up && (L.active || (L.own == 0 && decide (4 ≤ L.get F.OZL_GRAFT_PHASE))) &&
      decide (L.periodT - 1000 ≤ L.inPeriod)) (fun L =>
    let c := L.buildCell (L.get F.SAF_VIOL_STO)
    (L.put F.OZL_VSEQ_VSEQ c.vseq.toNat).onOzl (fun o => { o with
      cellOut := some { c with e2e := cellE2E c c.vseq.toNat }, cellSent := false }))

/-- CELL_SEND (R93): from T(k+1) - 4 us on, on both links and to the own Hedge. -/
def execCellSend (l : LaneId) (s : State) : Out :=
  s.on l (fun L => L.up && L.ozl.cellOut.isSome && !L.ozl.cellSent && decide (L.periodT - 800 ≤ L.inPeriod)) (fun L =>
    L.onOzl (fun o => { o with cellSent := true }))

/-! ### The Saddle (R74 to R80, R86 to R91) -/

/-- VCELL (R22, R44, R74, R93): the 72 bytes of header and payload of a forwarded cell. It is valid only with E2E and VSEQ of the
coming boundary; one complete after T(k+1) - 2.2 us is late, and what came in time, valid or not, is not. -/
def execVcell (l : LaneId) (cell : List Byte) (hdr crc : Half) (s : State) : Out :=
  s.on l Lane.linkOn (fun L =>
    if !xferOk 3 (byteBeats cell) hdr crc || cell.length != 72 then L.transient Ev.HLNK_CRC_ERR
    else
      let p := cell.drop 8
      let c := voteOf p
      let i := c.origin.toNat
      let late := L.periodT - 440 < L.inPeriod
      let L1 := if decide (i < 3) && !late then L.onSdl (fun d => { d with came := upd2 d.came i true, lastCellAt := L.now }) else L
      if decide (i < 3) && c.vseq == L.nextSeq && e2eOk i L.nextSeq.toNat p then
        L1.onSdl (fun d => { d with
          cells := upd2 d.cells i (some c)
          cellAt := upd2 d.cellAt i L.now
          lateMask := upd2 d.lateMask i (decide late) })
      else L1)

/-- The cell of a lane that the Saddle counts: a member's, valid, in time, with SHADOW, LATE and NOVOTE clear, and not the own
lane's while the Hedge holds it out of the vote (R23, R75). -/
def Lane.counted (L : Lane) (x : LaneId) : Option VoteCell :=
  match L.sdl.cells.getD x.idx none with
  | none => none
  | some c =>
    if L.isMember x && !nthB L.sdl.lateMask x.idx && !c.shadow && !c.late && !c.novote && !(decide (x = L.strap) && (L.sdl.held || L.is F.SDL_VSTAT_NOVOTE))
    then some c else none

/-- The discrete fields of Table 2.4 as numbers. -/
def discretes (r : Refs) : List Nat :=
  [r.level.toNat, r.share.toNat, r.member.toNat, r.ena.toNat, r.asc.toNat, r.leave.toNat, r.join.toNat]

/-- References rebuilt from their discrete fields and analogue values. -/
def mkRefs (d : List Nat) (tq fx : List Half) : Refs :=
  { level := BitVec.ofNat 2 (nthN d 0), share := BitVec.ofNat 2 (nthN d 1), member := BitVec.ofNat 3 (nthN d 2)
    ena := BitVec.ofNat 4 (nthN d 3), asc := BitVec.ofNat 4 (nthN d 4), leave := BitVec.ofNat 3 (nthN d 5)
    join := BitVec.ofNat 3 (nthN d 6), tq := tq, fx := fx }

/-- Two analogue values agree: their difference is at most the band (R77). -/
def anAgree (band : Nat) (x y : Half) : Bool := decide ((q15 x - q15 y).natAbs ≤ band)

/-- Lanes that disagree with both others while those agree, as a mask over three values; 8 when all disagree pairwise (R79). -/
def minority3 (ab bc ac : Bool) : Nat :=
  if ab && !bc && !ac then 4 else if bc && !ab && !ac then 1 else if ac && !ab && !bc then 2
  else if !ab && !bc && !ac then 8 else 0

/-- The 2oo3 vote of one discrete field: the value and the minority mask (R78, R79). -/
def voteD3 (a b c : Nat) : Nat × Nat :=
  (if a = b ∨ a = c then a else b, minority3 (a == b) (b == c) (a == c))

/-- The 2oo3 vote of one analogue field: the median and the minority mask (R78, R79). -/
def voteA3 (band : Nat) (a b c : Half) : Half × Nat :=
  (toQ15 (median3 (q15 a) (q15 b) (q15 c)), minority3 (anAgree band a b) (anAgree band b c) (anAgree band a c))

/-- Three lists of values voted place by place. -/
def vote3 {α : Type} (f : α → α → α → α × Nat) : List α → List α → List α → List α × Nat
  | a :: as, b :: bs, c :: cs =>
    let r := f a b c
    let t := vote3 f as bs cs
    (r.1 :: t.1, r.2 ||| t.2)
  | _, _, _ => ([], 0)

/-- The 2oo3 vote of three lanes' references: the voted references and the mask of minorities over all fields, with 8 set where
a field disagrees pairwise (R78, R79). -/
def refs3 (bt bf : Nat) (a b c : Refs) : Refs × Nat :=
  let d := vote3 voteD3 (discretes a) (discretes b) (discretes c)
  let t := vote3 (voteA3 bt) a.tq b.tq c.tq
  let f := vote3 (voteA3 bf) a.fx b.fx c.fx
  (mkRefs d.1 t.1 f.1, d.2 ||| t.2 ||| f.2)

/-- Two references agree in every field (R77). -/
def refsAgree (bt bf : Nat) (a b : Refs) : Bool :=
  discretes a == discretes b && (a.tq.zip b.tq).all (fun p => anAgree bt p.1 p.2) && (a.fx.zip b.fx).all (fun p => anAgree bf p.1 p.2)

/-- The 2oo2 vote of agreeing references: common discrete values, means rounded toward zero (R78). -/
def refs2 (a b : Refs) : Refs :=
  let mean (p : Half × Half) : Half := toQ15 (mean2 (q15 p.1) (q15 p.2))
  mkRefs (discretes a) ((a.tq.zip b.tq).map mean) ((a.fx.zip b.fx).map mean)

/-- References with zero torque on every bridge (R90). -/
def zeroTorque (r : Refs) : Refs := { r with tq := [0, 0, 0, 0] }

/-- The references in force where nothing has been agreed yet: everything 0. -/
def noRefs : Refs := mkRefs [] [0, 0, 0, 0] [0, 0, 0, 0]

/-- The number of ones in a 16-vote history. -/
def pop16 (h : BitVec 16) : Nat := (List.range 16).foldl (fun n i => n + b2n (bit h.toNat i)) 0

/-- The vote history of a lane with this vote's minority bit. -/
def histPush (h : BitVec 16) (m : Bool) : BitVec 16 := BitVec.ofNat 16 (h.toNat * 2 + b2n m)

/-- The histories and MINCNT after a vote with minority mask `m` (R80, R81). -/
def Lane.minPush (L : Lane) (m : Nat) : Lane :=
  let hs := [0, 1, 2].map (fun i => histPush (L.sdl.minHist.getD i 0) (bit m i))
  let c (i : Nat) := satU 15 (pop16 (hs.getD i 0))
  ((((L.onSdl (fun d => { d with minHist := hs })).put F.SDL_MINCNT_MIN_A (c 0)).put F.SDL_MINCNT_MIN_B (c 1)).put
    F.SDL_MINCNT_MIN_C (c 2)).put F.SDL_VSTAT_MINOR (m % 8)

/-- The own lane removed by its Saddle: gates off, NOVOTE, LANE_REMOVED, EXCLUDED (R80). -/
def Lane.removeOwn (L : Lane) : Lane := (L.note Ev.SDL_LANE_REMOVED).outOfVote.exclude

/-- Who is out of this vote: CELL_LATE and the late counts for members no cell of which was complete in time, and the run of votes
each member was out of (R75, R81, R93). -/
def Lane.outPush (L : Lane) : Lane :=
  let one (K : Lane) (x : LaneId) : Lane :=
    if L.isMember x then
      let K1 := if !nthB L.sdl.came x.idx then (K.incSat (F.SDL_LATE_LATE_A.nth 8 x.idx)).transient Ev.SDL_CELL_LATE else K
      let n := if (L.counted x).isSome then 0 else nthN L.sdl.outCnt x.idx + 1
      K1.onSdl (fun d => { d with outCnt := upd2 d.outCnt x.idx n })
    else K.onSdl (fun d => { d with outCnt := upd2 d.outCnt x.idx 0 })
  LaneId.all.foldl one L

/-- The stop decisions of R81 that follow from the counts: minority twice within 16 votes, or out of 3 votes. -/
def Lane.stopDecisions (L : Lane) : Lane :=
  [L.strap.next, L.strap.prev].foldl (fun K x =>
    if K.isMember x && (decide (2 ≤ pop16 (K.sdl.minHist.getD x.idx 0)) || decide (3 ≤ nthN K.sdl.outCnt x.idx))
    then K.decideStop (peerIdx L.strap x) else K) L

/-- The vote's output issued: VREF to the logic die, voted ENA and ASC pending in GD_VCMD (R76, R263), timing (Table 2.7). -/
def Lane.issue (L : Lane) (r : Refs) (agreed : Bool) (mode : Nat) : Lane :=
  let L1 := L.onSdl (fun d => { d with
    voted := some r, vrefOut := some r, decided := true, agreed := if agreed then some r else d.agreed })
  let L2 := ((L1.put F.GD_VCMD_ENA_P r.ena.toNat).put F.GD_VCMD_ASC_P r.asc.toNat).putB F.GD_VCMD_ALONE (mode == 3)
  let L3 := (L2.put F.SDL_TIMING_DEC (satU 255 ((L.now - L.sdl.lastCellAt) / 5))).put F.SDL_TIMING_MARGIN
    ((L.periodT - 400 - L.inPeriod) / 5)
  L3.put F.SDL_VSTAT_MODE mode

/-- The freeze over. -/
def Lane.thaw (L : Lane) : Lane :=
  ((L.put F.SDL_VSTAT_FROZEN 0).put F.SDL_VSTAT_FRZCNT 0).onSdl (fun d => { d with resolving := false, recheckAt := none, digestOk := none })

/-- Zero torque output on every bridge: no reference is held any more (R90). -/
def Lane.zeroVote (L : Lane) (mode : Nat) : Lane :=
  ((L.put F.SDL_VSTAT_FROZEN 0).put F.SDL_VSTAT_FRZCNT 0).issue (zeroTorque (L.sdl.agreed.getD noRefs)) false mode

/-- The last agreed values output for this vote, FROZEN shown with its count, FREEZE recorded as the freeze begins (R86, R90). No
reference is held for more than two periods: DESIGN CHOICE, a vote that would hold it for a third outputs zero torque (log 126). -/
def Lane.freeze (L : Lane) (mode : Nat) : Lane :=
  let n := L.get F.SDL_VSTAT_FRZCNT
  if 2 ≤ n then L.zeroVote mode
  else
    (((if n = 0 then L.transient Ev.SDL_FREEZE else L).put F.SDL_VSTAT_FROZEN 1).put F.SDL_VSTAT_FRZCNT (n + 1)).issue
      (L.sdl.agreed.getD noRefs) false mode

/-- A disagreement: the values frozen, the resolution of R87 begun with the digest recomputation. -/
def Lane.disagree (L : Lane) (mode : Nat) : Lane :=
  (L.freeze mode).onSdl (fun d => { d with resolving := true, recheckAt := some L.now, digestOk := none, disAt := L.now })

/-- The better record between two lanes (R89): lower SCORE, then the fallow completed later, then the order A, B, C. -/
def betterOwn (own peer : LaneId) (so sp doneO doneP : Nat) : Bool :=
  if so ≠ sp then decide (so < sp) else if doneO ≠ doneP then decide (doneP < doneO) else decide (own.idx < peer.idx)

/-- The lane that continues after a disagreement among counted cells (Table 2.6): the one that passed where every other failed, else
the one with the better record (R89). -/
def resolveWinner (done : LaneId → Nat) (cs : List (LaneId × VoteCell)) : Option (LaneId × VoteCell) :=
  match cs.filter (fun c => c.2.resolve.toNat == 1), cs.all (fun c => c.2.resolve.toNat == 1 || c.2.resolve.toNat == 2) with
  | [c], true => some c
  | _, _ => match cs with
    | [] => none
    | c :: t => some (t.foldl (fun b x =>
        if betterOwn b.1 x.1 b.2.score.toNat x.2.score.toNat (done b.1) (done x.1) then b else x) c)

/-- The outcome in the second vote after a disagreement (Table 2.6): where every lane reports PASS and the fields agree, `voted` is
output; else the winner's references, and an own lane that is not the winner is removed under R80. DESIGN CHOICE: Table 2.6 speaks of
two lanes; after a failed vote of three the same rule runs over three cells (log 127). -/
def Lane.resolveVote (L : Lane) (done : LaneId → Nat) (cs : List (LaneId × VoteCell)) (voted : Option Refs) (mode : Nat) : Lane :=
  let T := L.thaw
  match (if cs.all (fun c => c.2.resolve.toNat == 1) then voted else none), resolveWinner done cs with
  | some r, _ => T.issue r true mode
  | none, none => T
  | none, some w =>
    let T1 := if cs.any (fun c => c.1 == L.strap && c.2.resolve.toNat == 2) then T.onOzl (fun o => { o with failedRes := o.failedRes + 1 }) else T
    let T2 := T1.issue w.2.refs true mode
    if cs.any (fun c => c.1 == L.strap) && w.1 != L.strap then T2.removeOwn else T2

/-- Losing contact (R90, R91): the last agreed values, at the third vote zero torque; from the fourth vote on the lane votes alone,
so that it continues at the boundary after that of the third. The Saddle of a lane outside a membership of one outputs what that lane
references, the voted values its shadow cells are compared with (Table 2.11). -/
def Lane.noPeerVote (L : Lane) : Lane :=
  let own := L.counted L.strap
  let split := L.sdl.splitDue && L.active && !L.is F.SDL_XINH_STOPPED
  let alone := L.members == 2 ^ L.strap.idx || L.is F.OZL_LSTATE_SPLIT
  if alone || split then
    match own with
    | some c => (if split then L.put F.SDL_VSTAT_SPLIT 1 else L).thaw.issue c.refs true 3
    | none => L.issue (L.sdl.agreed.getD noRefs) false 0
  else if L.active then
    let n := L.sdl.noPeer + 1
    let L1 := L.onSdl (fun d => { d with noPeer := n })
    if n < 3 then L1.freeze 0 else (L1.zeroVote 0).onSdl (fun d => { d with splitDue := true })
  else
    match (LaneId.all.filter (fun x => L.members == 2 ^ x.idx)).filterMap L.counted with
    | c :: _ => L.thaw.issue c.refs true 3
    | [] => L.issue (L.sdl.agreed.getD noRefs) false 0

/-- The shadow vote of graft phase 4 (Table 2.11): consecutive agreements, the third restart fails the phase. -/
def Lane.shadowVote (L : Lane) (voted : Refs) : Lane :=
  if L.own == 0 && L.get F.OZL_GRAFT_PHASE == 4 then
    match L.sdl.cells.getD L.strap.idx none with
    | some c =>
      if c.shadow && refsAgree (L.get F.SDL_BAND_TQ_BAND) (L.get F.SDL_BAND_FX_BAND) c.refs voted then
        L.onOzl (fun o => { o with shadowOk := o.shadowOk + 1 })
      else
        let n := L.ozl.shadowRestarts + 1
        let L1 := L.onOzl (fun o => { o with shadowOk := 0, shadowRestarts := n })
        if 3 ≤ n then L1.failGraft else L1
    | none => L
  else L

/-- What a vote over counted cells comes to (R76 to R79): its output where the vote stands, its mask of minorities, and whether it
failed because all three disagree pairwise on a field. -/
def voteOver (bt bf : Nat) (cs : List (LaneId × VoteCell)) : Option Refs × Nat × Bool :=
  match cs with
  | [a, b, c] =>
    let v := refs3 bt bf a.2.refs b.2.refs c.2.refs
    if v.2.testBit 3 then (none, 0, true) else (some v.1, v.2, false)
  | [a, b] => (if refsAgree bt bf a.2.refs b.2.refs then some (refs2 a.2.refs b.2.refs) else none, 0, false)
  | _ => (none, 0, false)

/-- The own lane's part in a minority (R80): MINORITY, and its removal at the second within 16 votes. -/
def Lane.ownMinority (L : Lane) (m : Nat) : Lane :=
  if bit m L.strap.idx then
    let L1 := L.transient Ev.SDL_MINORITY
    if 2 ≤ pop16 (L.sdl.minHist.getD L.strap.idx 0) then L1.removeOwn else L1
  else L

/-- The Saddle's decision over the counted cells (R76 to R80, R86 to R91). The vote after a disagreement is held with the last agreed
values whatever it brings; the second one applies Table 2.6. `done` is the module time of each lane's last completed fallow. -/
def Lane.saddle (L : Lane) (done : LaneId → Nat) : Lane :=
  let bt := L.get F.SDL_BAND_TQ_BAND
  let bf := L.get F.SDL_BAND_FX_BAND
  let L0 := L.outPush
  let cs := LaneId.all.filterMap (fun x => (L.counted x).map (fun c => (x, c)))
  let present := cs.foldl (fun m x => m + 2 ^ x.1.idx) 0
  let v := voteOver bt bf cs
  let mode := if cs.length = 3 then 1 else 2
  let L1 := ((L0.put F.SDL_VSTAT_PRESENT present).putB F.SDL_VSTAT_VFAIL v.2.2).minPush v.2.1
  let L2 := if v.2.2 then L1.note Ev.SDL_VOTE_FAIL else L1
  let n := L.get F.SDL_VSTAT_FRZCNT
  let K :=
    if cs.length < 2 then L2.noPeerVote
    else
      let M := L2.onSdl (fun d => { d with noPeer := 0, splitDue := false })
      if L.sdl.resolving && n == 1 then M.freeze mode
      else if L.sdl.resolving && decide (2 ≤ n) then M.resolveVote done cs v.1 mode
      else match v.1 with
        | some r => (M.thaw.issue r true mode).ownMinority v.2.1
        | none => M.disagree mode
  ((K.stopDecisions).shadowVote (K.sdl.voted.getD noRefs)).showNovote

/-- Every member's cell is complete at the Hedge. -/
def Lane.cellsIn (L : Lane) : Bool := LaneId.all.all (fun x => !L.isMember x || nthB L.sdl.came x.idx)

/-- SADDLE_DECISION (R76, Table 2.7): once per period, after the last cell of the coming boundary, or when those still missing are late
at T(k+1) - 2.2 us, and no later than T(k+1) - 2 us. -/
def execSaddleDecision (l : LaneId) (s : State) : Out :=
  s.on l (fun L => L.hedgeUp && !L.sdl.decided && decide (L.periodT - 800 ≤ L.inPeriod) && decide (L.inPeriod ≤ L.periodT - 400) &&
      (L.cellsIn || decide (L.periodT - 440 ≤ L.inPeriod))) (fun L =>
    L.saddle (fun x => (s.lane x).ozl.fallowDone))

/-! ### Cross-inhibit (R82 to R85) -/

/-- A lane's two incoming lines and when they came to this state (R83, R84). -/
def Lane.setIn (L : Lane) (fromNext : Bool) (level : Bool) : Lane :=
  let L1 := L.putB (if fromNext then F.SDL_XINH_IN_NX else F.SDL_XINH_IN_PV) level
  let n := L1.is F.SDL_XINH_IN_NX
  let p := L1.is F.SDL_XINH_IN_PV
  L1.onSdl (fun d => { d with
    bothSince := if n && p then (match d.bothSince with
      | some t => some t
      | none => some L.now) else none
    oneSince := if n != p then (match d.oneSince with
      | some t => some t
      | none => some L.now) else none
    singleDone := if n != p then d.singleDone else false })

/-- The output of a Hedge toward a peer: what it drives. -/
def Lane.xinhOut (L : Lane) (peer : LaneId) : Bool := L.is (if peer = L.strap.next then F.SDL_XINH_OUT_NX else F.SDL_XINH_OUT_PV)

/-- The level of the line from lane `l` toward `peer`: stuck, or what a running Hedge drives (R84). -/
def State.xinhLine (s : State) (l peer : LaneId) : Bool :=
  match (s.lane l).sdl.lineStuck.getD (peerIdx l peer) none with
  | some v => v
  | none => (s.lane l).hedgeUp && (s.lane l).xinhOut peer

/-- The peer's input takes the level of the line from lane `l`. -/
def State.seeXinh (s : State) (l peer : LaneId) : State := s.upd peer (fun P => P.setIn (decide (peer ≠ l.next)) (s.xinhLine l peer))

/-- The line from lane `l` toward `peer` driven to a level: the output of `l`, and the input of `peer` where the line is not stuck. -/
def State.driveXinh (s : State) (l peer : LaneId) (level : Bool) : State :=
  let s1 := s.upd l (fun L => L.putB (if peer = l.next then F.SDL_XINH_OUT_NX else F.SDL_XINH_OUT_PV) level)
  s1.seeXinh l peer

/-- XINH_ASSERT (R82): 10 us after the decision, unless the peer reported HSTOP meanwhile; the decision is then spent. -/
def execXinhAssert (l peer : LaneId) (s : State) : Out :=
  let L := s.lane l
  let i := peerIdx l peer
  match L.sdl.xDecide.getD i none with
  | none => .next s
  | some t =>
    if L.hedgeUp && decide (peer ≠ l) && L.since t (us 10) then
      let s1 := s.upd l (fun K => K.onSdl (fun d => { d with xDecide := upd2 d.xDecide i none }))
      if nthB L.sdl.hstopSeen i then .next s1
      else .next ((s1.driveXinh l peer true).upd l (fun K => K.note Ev.SDL_XINH_ASSERT))
    else .next s

/-- XINH_STOPPED (R83): both incoming lines asserted for 100 ns. -/
def execXinhStopped (l : LaneId) (s : State) : Out :=
  s.on l (fun L => L.hedgeUp && !L.is F.GD_LSTOP_XINH && (match L.sdl.bothSince with
      | some t => L.since t 20
      | none => false)) (fun L =>
    let L1 := ((L.put F.SDL_XINH_STOPPED 1).note Ev.SDL_XINH_STOPPED).laneStop F.GD_LSTOP_XINH
    if L1.own == 1 then L1.outOfVote.exclude else L1)

/-- XINH_RELEASE (R83): both incoming lines released; lane stop XINH clears. -/
def execXinhRelease (l : LaneId) (s : State) : Out :=
  s.on l (fun L => L.hedgeUp && !L.is F.SDL_XINH_IN_NX && !L.is F.SDL_XINH_IN_PV) (fun L => L.laneStopEnd F.GD_LSTOP_XINH)

/-- XINH_SINGLE (R84): exactly one incoming line asserted for 1 ms; recorded once, no gate stops. -/
def execXinhSingle (l : LaneId) (s : State) : Out :=
  s.on l (fun L => L.hedgeUp && !L.sdl.singleDone && (match L.sdl.oneSince with
      | some t => L.since t (ms 1)
      | none => false)) (fun L => (L.note Ev.SDL_XINH_SINGLE).onSdl (fun d => { d with singleDone := true }))

/-- XINH_READBACK (R84, R109): the line toward a peer carries `level`. Other than what the Hedge drives, the line is stuck there and the
mismatch is recorded; as driven, the line is sound. -/
def execXinhReadback (l peer : LaneId) (level : Bool) (s : State) : Out :=
  let L := s.lane l
  if L.hedgeUp && decide (peer ≠ l) then
    let bad := L.xinhOut peer != level
    let s1 := s.upd l (fun K =>
      let K1 := K.onSdl (fun d => { d with lineStuck := upd2 d.lineStuck (peerIdx l peer) (if bad then some level else none) })
      if bad then (K1.put F.SDL_XINH_RB_ERR 1).note Ev.SDL_XINH_READBACK else K1)
    .next (s1.seeXinh l peer)
  else .next s

/-- SDL_XINH_STOPPED_CLEAR (R83): effective only while both inputs are released. -/
def execSdlXinhStoppedClear (l : LaneId) (s : State) : Out :=
  s.on l (fun L => L.hedgeUp && !L.is F.SDL_XINH_IN_NX && !L.is F.SDL_XINH_IN_PV) (fun L => L.put F.SDL_XINH_STOPPED 0)

/-! ### Graft and forming (R94, R98 to R101) -/

/-- The lane hears of an ACTIVE lane: a membership that can donate (R99). -/
def Lane.hostHeard (L : Lane) : Bool := L.stOf L.strap.next == 1 || L.stOf L.strap.prev == 1

/-- The ACTIVE lanes that reach lane `l`: the membership it can graft from (R99). -/
def State.hosts (s : State) (l : LaneId) : List LaneId := [l.next, l.prev].filter (fun x => (s.lane x).active && reaches s x l)

/-- GRAFT_HOLDOFF (R94, R99): the hold-off of an EXCLUDED lane has ended, fewer than three attempts were made, and there is a membership
to graft from. -/
def execGraftHoldoff (l : LaneId) (s : State) : Out :=
  s.on l (fun L => L.up && L.own == 3 && decide (L.get F.OZL_GRAFT_ATTEMPTS < 3) && decide (L.ozl.graftDue ≤ L.now) && L.hostHeard)
    Lane.startGraft

/-- Limit of a graft phase in ms after entry into GRAFT (Table 2.11). -/
def phaseLimitMs (p : Nat) : Nat :=
  match p with
  | 1 => 2
  | 2 => 25
  | 3 => 40
  | 4 => 60
  | 5 => 230
  | _ => 250

/-- Votes that phase 4 needs: 10,000 ÷ P rounded up. -/
def Lane.shadowNeed (L : Lane) : Nat := (10000 + L.period - 1) / L.period

/-- The drive engines of the bridges that the vote enables run on a confident estimate (Table 2.11, phase 5). -/
def Lane.observersOk (L : Lane) : Bool :=
  [0, 1, 2, 3].all (fun k => L.outOfService (.drv k) || !(L.drv k).ena ||
    (L.drvState k == 3 && decide (L.dget F.DRV_CONF_CTH k ≤ L.get F.DRV_SPD_CONF k)))

/-- The condition of the graft phase in progress, as far as the lane holds it (Table 2.11); `donor` is the lane it grafts from. -/
def Lane.phasePasses (L : Lane) (donor : Option LaneId) : Bool :=
  match L.get F.OZL_GRAFT_PHASE with
  | 1 => donor.isSome && L.hostHeard && L.ozl.peerCdig.all (fun c => match c with
      | some w => w == L.ozl.cdig
      | none => true)
  | 2 => L.refDone && L.ozl.odiagDone == 0xF
  | 3 => L.ozl.imageSeen && (match donor.bind (fun d => L.ozl.peerSdig.getD (peerIdx L.strap d) none) with
      | some w => w == BitVec.ofNat 32 (L.get F.TRIO_SDIG_SDIG)
      | none => false)
  | 4 => decide (L.shadowNeed ≤ L.ozl.shadowOk)
  | 5 => L.observersOk
  | _ => true

/-! ### What lanes compare before they form or graft (R63, R100, R524, R528) -/

/-- The values of the sealed fields that differ from their reset values: equal lists are equal parameter images (R362). -/
def Lane.sealedVals (L : Lane) : List (Nat × Word) :=
  L.regs.filterMap (fun e =>
    match blockAt e.1 with
    | some (b, _, o) =>
      match findRow b o with
      | some r =>
        let m := BitVec.ofNat 32 r.sealed
        if e.2 &&& m = resetWord L.strap e.1 &&& m then none else some (e.1, e.2 &&& m)
      | none => none
    | none => none)

/-- Peer `x` runs and is heard by lane `l`. -/
def heard (s : State) (l x : LaneId) : Bool := (s.lane x).up && (s.lane l).linkUp (peerIdx l x)

/-- The life-cycle state of the lane set, with the debug port it opens (Table 17.6). -/
def Lane.setLc (L : Lane) (st : Nat) : Lane :=
  ((L.put F.SYS_LC_STATE st).putB F.SYS_LC_DBGOPEN (st != 2)).onAlm (fun a => { a with lcRec := st })

/-- ID_MISMATCH (R63; its code is open, log 7). -/
def idMismatch : Event := ⟨.sys, Config.idMismatchCode.toNat, .permanent⟩

/-- A mismatch found at boot, recorded once; the lane does not vote (R63, R528). -/
def Lane.bootFail (L : Lane) (e : Event) : Lane × Bool :=
  (if L.ozl.bootBad then L else (L.note e).onOzl (fun o => { o with bootBad := true }), false)

/-- Identity and life-cycle state compared with the peers heard (R63, R528): the lane as it goes on, and whether it may form or
graft. -/
def bootCheck (s : State) (l : LaneId) : Lane × Bool :=
  let L := s.lane l
  let ps := [l.next, l.prev].filter (heard s l)
  let st (x : LaneId) := (s.lane x).get F.SYS_LC_STATE
  let own := st l
  if ps.any (fun x => (s.lane x).reg R.SYS_SERIAL != L.reg R.SYS_SERIAL || (s.lane x).reg R.SYS_ASSY != L.reg R.SYS_ASSY) then
    L.bootFail idMismatch
  else if (l :: ps).any (fun x => (s.lane x).get F.SYS_LC_FLOOR == 2) then L.bootFail Ev.SYS_LC_MISMATCH
  else
    match ps with
    | [x, y] =>
      if own = st x ∨ own = st y then (L, true)
      else if st x = st y then ((L.setLc (st x)).note Ev.SYS_LC_ADOPT, true)
      else L.bootFail Ev.SYS_LC_MISMATCH
    | [x] => if own = st x then (L, true) else L.bootFail Ev.SYS_LC_MISMATCH
    | _ => (L, true)

/-- A lane that may be in a vote at all: no BLANK and no RETIRED part, identity and life cycle matching at boot, its trio not out of
the vote unless for a graft that is to bring it back (R63, R129, R139, R369, R528, R529, Table 17.6). -/
def Lane.mayVote (L : Lane) : Bool :=
  L.get F.SYS_LC_STATE != 0 && L.get F.SYS_LC_STATE != 4 && !L.ozl.bootBad && (!L.is F.TRIO_MODE_NOVOTE || L.trio.graftAfter)

/-- The membership as the lanes grafted from hold it, for a lane that joins it. -/
def State.peerMembers (s : State) (l : LaneId) : Nat :=
  match s.hosts l with
  | x :: _ => (s.lane x).members
  | [] => 0

/-- The donor of a graft: the member lane with the better record (R89, R98), none without a membership (R99). -/
def State.donor (s : State) (l : LaneId) : Option LaneId :=
  match s.hosts l with
  | [x, y] => some (if betterOwn x y (s.lane x).score (s.lane y).score (s.lane x).ozl.fallowDone (s.lane y).ozl.fallowDone then x else y)
  | [x] => some x
  | _ => none

/-- The module time a grafting lane adopts: what its members' copies heard agree on, the mean of two, the copy of one (R34, R36; a
mean that is no whole tick is rounded down, log 122). -/
def State.graftTime (s : State) (l : LaneId) : Option Nat :=
  match (s.hosts l).filterMap (fun x => (s.lane l).peerCopy (peerIdx l x)) with
  | [x, y] => some ((x + y) / 2).toNat
  | [x] => some x.toNat
  | _ => none

/-- The lane that joins put into JOIN of the next cell of every ACTIVE lane that hears of it (R5, R96). -/
def State.announceJoin (s : State) (l : LaneId) : State :=
  LaneId.all.foldl (fun t y => t.upd y (fun K => if K.active && reaches s l y then
    K.onOzl (fun o => { o with joinPend := BitVec.ofNat 3 (putBits o.joinPend.toNat l.idx 1 1) }) else K)) s

/-- What graft phase 3 brings beside the streamed memories: trajectories, outstanding network commands with their tags (R167),
the membership, the role in a pair, ramp states (R204) and the observers of the drive engines. -/
def Lane.takeDonor (L D : Lane) (members : Nat) : Lane :=
  let L1 := (L.onCmdq (fun q => { q with
    acts := D.cmdq.acts
    queue := q.queue ++ D.cmdq.queue.filter (fun c => c.net && !q.queue.any (fun d => d.net && d.tag == c.tag)) })).outst
  let ramp (K : Lane) (n : Nat) : Lane :=
    (List.range 8).foldl (fun J m => J.put F.LOOP_PRG_RSP_RSP (D.get F.LOOP_PRG_RSP_RSP n m) n m)
      (K.onEng n (fun e => { e with startP := List.replicate 8 false }))
  let obs (K : Lane) (k : Nat) : Lane :=
    let d := D.drv k
    ((K.onDrv k (fun e => { e with psi := d.psi, psiO := d.psiO, w := d.w, thPrev := d.thPrev, posAcc := d.posAcc })).put
      F.DRV_ANG_E_THETA_E (D.get F.DRV_ANG_E_THETA_E k) k).put F.DRV_POS_E_POS (D.get F.DRV_POS_E_POS k) k
  let L2 := [0, 1, 2, 3].foldl ramp L1
  (([0, 1, 2, 3].foldl obs L2).putB F.OZL_PAIR_ROLE (D.is F.OZL_PAIR_ROLE)).setMembers members

/-- Graft phase 1 passes (Table 2.11): Seal, CDIG, identity and life cycle equal every member's, and the members' module time is
adopted (R36); any mismatch fails the phase. The reference check of phase 2 begins. -/
def State.graftPhase1 (s : State) (l : LaneId) : State :=
  let b := bootCheck s l
  let same := (s.hosts l).all (fun x => (s.lane x).sealedVals == (s.lane l).sealedVals)
  match s.graftTime l with
  | none => s
  | some ref =>
    if b.2 && same && b.1.mayVote then s.setLane l (((b.1.adoptTime ref).put F.OZL_GRAFT_PHASE 2).refAsk 0xFF 20000 .graft)
    else s.setLane l b.1.failGraft

/-- GRAFT_PHASE_DONE (R98): the phase in progress passes within its limit. After phase 3 the lane holds the donor's state; entry into
phase 5 makes the peers release their cross-inhibit lines (R85); with phase 6 JOIN is announced, and the lane is a member once the
membership holds it. -/
def execGraftPhaseDone (l : LaneId) (s : State) : Out :=
  let L := s.lane l
  let p := L.get F.OZL_GRAFT_PHASE
  let d := s.donor l
  if L.up && L.own == 0 && decide (1 ≤ p) && L.phasePasses d && !L.since L.ozl.graftAt (ms (phaseLimitMs p) + 1) then
    if p = 1 then .next (s.graftPhase1 l)
    else if p = 3 then
      match d with
      | some x => .next (s.upd l (fun K => (K.takeDonor (s.lane x) (s.peerMembers l)).put F.OZL_GRAFT_PHASE 4))
      | none => .next s
    else if p = 4 then
      let s1 := s.upd l (fun K => K.put F.OZL_GRAFT_PHASE 5)
      .next (([l.next, l.prev].filter (reaches s l)).foldl (fun t x => t.driveXinh x l false) s1)
    else if p = 5 then .next ((s.upd l (fun K => K.put F.OZL_GRAFT_PHASE 6)).announceJoin l)
    else if p = 6 then
      if bit (s.peerMembers l) l.idx then
        .next (s.upd l (fun K => (K.becomeActive (s.peerMembers l)).onOzl (fun o => { o with lastAttempt := K.now })))
      else .next s
    else .next (s.upd l (fun K => K.put F.OZL_GRAFT_PHASE (p + 1)))
  else .next s

/-- GRAFT_PHASE_TIMEOUT (R98): the phase did not end by its limit. -/
def execGraftPhaseTimeout (l : LaneId) (s : State) : Out :=
  s.on l (fun L => L.up && L.own == 0 && decide (1 ≤ L.get F.OZL_GRAFT_PHASE) &&
      L.since L.ozl.graftAt (ms (phaseLimitMs (L.get F.OZL_GRAFT_PHASE)))) Lane.failGraft

/-- Two ready lanes can form together: equal Seal, CDIG and life cycle, none with lost retention (R480), and they hear each
other (R100). -/
def formsWith (s : State) (x y : LaneId) : Bool :=
  let X := s.lane x
  let Y := s.lane y
  X.ozl.readyAt.isSome && Y.ozl.readyAt.isSome && X.ozl.cdig == Y.ozl.cdig && X.sealedVals == Y.sealedVals &&
    X.get F.SYS_LC_STATE == Y.get F.SYS_LC_STATE && X.reg R.PWR_RETLOST == 0 && Y.reg R.PWR_RETLOST == 0 &&
    X.linkUp (peerIdx x y) && Y.linkUp (peerIdx y x)

/-- The lanes that form with lane `l`, itself included: all three where each forms with each, else `l` and a peer. -/
def formGroup (s : State) (l : LaneId) : List LaneId :=
  let x := l.next
  let y := l.prev
  if formsWith s l x && formsWith s l y && formsWith s x y then [l, x, y]
  else if formsWith s l x then [l, x]
  else if formsWith s l y then [l, y] else [l]

/-- The second lane of a group became ready at least 5 ms ago (R100). -/
def secondReady (s : State) (g : List LaneId) : Bool :=
  decide (2 ≤ (g.filter (fun x => match (s.lane x).ozl.readyAt with
    | some t => (s.lane x).since t (ms 5)
    | none => false)).length)

/-- A membership exists where a lane of the group is ACTIVE or hears of one (R100). -/
def noMembership (s : State) (g : List LaneId) : Bool := g.all (fun x => !(s.lane x).active && !(s.lane x).hostHeard)

/-- Identity and life cycle checked by every lane of a group (R63, R528); the Bool says whether all of them may form. -/
def State.bootChecks (s : State) (g : List LaneId) : State × Bool :=
  g.foldl (fun r x => (r.1.setLane x (bootCheck r.1 x).1, r.2 && (bootCheck r.1 x).2 && (bootCheck r.1 x).1.mayVote)) (s, true)

/-- The lanes of a group form the membership together at a boundary; the first of them draws the challenge (R526). -/
def State.formWith (s : State) (g : List LaneId) : State :=
  let m := g.foldl (fun n x => n + 2 ^ x.idx) 0
  let (k, s1) := s.draw
  g.foldl (fun t x => t.upd x (fun L => ((L.becomeActive m).drawChal (Config.freeWord k)).onOzl (fun o => { o with readyAt := none }))) s1

/-- FORMATION (R100, R63, R528): at a boundary, ready lanes that hear each other form the membership, once identity and life cycle
agree. A lane that became ready beside a membership grafts. -/
def execFormation (l : LaneId) (s : State) : Out :=
  let L := s.lane l
  if L.up && L.own == 0 && L.get F.OZL_GRAFT_PHASE == 0 && L.ozl.readyAt.isSome then
    if L.hostHeard then .next (s.upd l Lane.startGraft)
    else
      let g := formGroup s l
      if L.atBoundary && secondReady s g && noMembership s g then
        let r := s.bootChecks g
        .next (if r.2 then r.1.formWith g else r.1)
      else .next s
  else .next s

/-- FORM_ALONE (R101): no second lane ready 100 ms after this one, and no membership heard of. -/
def execFormAlone (l : LaneId) (s : State) : Out :=
  let L := s.lane l
  if L.up && L.own == 0 && L.get F.OZL_GRAFT_PHASE == 0 && L.reg R.PWR_RETLOST == 0 && (match L.ozl.readyAt with
      | some t => L.since t (ms 100)
      | none => false) && [l.next, l.prev].all (fun x => !(reaches s x l && (s.lane x).ozl.readyAt.isSome)) && !L.hostHeard then
    let r := s.bootChecks [l]
    .next (if r.2 then r.1.formWith [l] else r.1)
  else .next s

/-- FALLOW_OVERDUE (R104): AGE reached 120 min. -/
def execFallowOverdue (l : LaneId) (s : State) : Out :=
  s.on l (fun L => L.up && decide (120 ≤ L.get F.OZL_FALLOW_AGE) && !L.is F.OZL_FALLOW_OVERDUE) (fun L =>
    (L.put F.OZL_FALLOW_OVERDUE 1).note Ev.OZL_FALLOW_OVERDUE)

/-! ### The pair's link (R110) -/

/-- What the lane sends to its partner in slots 0 and 1: role, level, PRIMARY, serial number, module time and trajectories. -/
def Lane.extBeat (L : Lane) : ExtBeat where
  active := L.is F.OZL_PAIR_ROLE
  level := BitVec.ofNat 2 (L.get F.OZL_LSTATE_LEVEL)
  primary := L.is F.OZL_PAIR_PRIMARY
  serial := L.rd (R.SYS_SERIAL.addr 0 0)
  mt := L.mt + 32
  traj := L.cmdq.acts.map (fun a => a.setpoint)
  seqs := (List.range 64).map (fun i => L.memWord (0x40171010 + 0x20 * i))

/-- The heartbeat cell of the external port: slot 1 starts 160 ns after the cycle (R110). -/
def Lane.extCell (L : Lane) : List Byte :=
  let h : CellHdr := { L.txHdr 2 1 2 with dst := L.strap.idx, ext := true }
  sealCell h (heartPayload { L.heartOut 2 with mt := L.mt + 32 })

/-- EXT_LINK_CYCLE (R110): the external port's 2 us cycle carries role, level and trajectories in slot 0, the heartbeat in slot 1, the
mirrored state after them; ports of a module used alone stay down (R112). -/
def execExtLinkCycle (l : LaneId) (s : State) : Out :=
  s.on l (fun L => L.up && L.linkUp 2 && L.mtN % 400 == 0) (fun L =>
    let L1 := if L.since L.ozl.extLast (us 6) then (L.put F.OZL_PAIR_PUP 0).pairStep else L
    L1.onOzl (fun o => { o with extCyc := L.mtN / 200 % 2 ^ 16, extOut := some L1.extBeat, extCell := L1.extCell }))

end Sys2Proof.Machine
end

