-- ==== Sys2Proof/Machine/Miokin.lean ====
section
/-!
DEFINITION. Machine/Miokin.lean: the encoding of Miokin loop code (Tables 5.2, 5.3, 5.4): which words are well formed, and the two
directions between a word and an instruction.
-/

namespace Sys2Proof.Machine

/-- Operands that an encoding exists for: mode 0b11 of format P, COND 13 to 15 and ITEM 7 to 15 are illegal (R188). -/
def MIns.wf : MIns → Bool
  | .mpyp _ p q | .macp _ p q | .msbp _ p q => p.m != 3 && q.m != 3
  | .get _ item => item.toNat < 7
  | .jmp cond _ => cond.toNat < 13
  | _ => true

/-- A word from its opcode and the fields of [25:0]. -/
def mWord (op : Nat) (rest : Nat) : Word := BitVec.ofNat 32 (op * 0x4000000 + rest)

/-- Format D. -/
def encD (op : Nat) (a : BitVec 2) (e : Ea) : Word :=
  mWord op (a.toNat * 0x1000000 + e.x.toNat * 0x200000 + e.m.toNat * 0x80000 + e.addr.toNat)

/-- Format P. -/
def encP (op : Nat) (a : BitVec 2) (p q : PEa) : Word :=
  mWord op (a.toNat * 0x1000000 + p.x.toNat * 0x200000 + p.m.toNat * 0x80000 + q.x.toNat * 0x10000 + q.m.toNat * 0x4000)

/-- Format R. -/
def encR (op : Nat) (a b : BitVec 2) (n : Nat := 0) : Word := mWord op (a.toNat * 0x1000000 + b.toNat * 0x400000 + n)

/-- Format I. -/
def encI (op : Nat) (a : BitVec 2) (x : BitVec 3) (imm : Nat) : Word := mWord op (a.toNat * 0x1000000 + x.toNat * 0x200000 + imm)

/-- The word of an instruction. -/
def encodeM : MIns → Word
  | .ld a e => encD 0x01 a e | .st a e => encD 0x02 a e | .add a e => encD 0x03 a e | .sub a e => encD 0x04 a e
  | .ldk e => encD 0x05 0 e | .mpy a e => encD 0x06 a e | .mac a e => encD 0x07 a e | .msu a e => encD 0x08 a e
  | .cmp a e => encD 0x09 a e | .lim a e => encD 0x0A a e | .ldx x ad => encD 0x0B 0 ⟨x, 0, ad⟩
  | .stx x ad => encD 0x0C 0 ⟨x, 0, ad⟩ | .lut a e => encD 0x0D a e | .div a e => encD 0x0E a e
  | .mpyp a p q => encP 0x10 a p q | .macp a p q => encP 0x11 a p q | .msbp a p q => encP 0x12 a p q
  | .mov a b => encR 0x18 a b | .adda a b => encR 0x19 a b | .suba a b => encR 0x1A a b | .neg a => encR 0x1B a 0
  | .abs a => encR 0x1C a 0 | .clr a => encR 0x1D a 0 | .sha a n => encR 0x1E a 0 n.toNat | .sat a => encR 0x1F a 0
  | .max a b => encR 0x20 a b | .min a b => encR 0x21 a b | .mulk a b => encR 0x22 a b | .cmpa a b => encR 0x23 a b
  | .movk a => encR 0x24 a 0
  | .ldi a imm => encI 0x28 a 0 imm.toNat | .addi a imm => encI 0x29 a 0 imm.toNat | .lki imm => encI 0x2A 0 0 imm.toNat
  | .lxi x imm => encI 0x2B 0 x imm.toNat | .axi x imm => encI 0x2C 0 x imm.toNat | .rep imm => encI 0x2D 0 0 imm.toNat
  | .get a item => mWord 0x30 (a.toNat * 0x1000000 + item.toNat)
  | .out a port s => mWord 0x31 (a.toNat * 0x1000000 + (if s then 8 else 0) + port.toNat)
  | .jmp c t => mWord 0x38 (c.toNat * 0x400000 + t.toNat)
  | .call t => mWord 0x39 t.toNat | .ret => mWord 0x3A 0 | .endI => mWord 0x3B 0 | .nop => mWord 0x3C 0

/-- Opcode, A, X or XP, M or MP of a word. -/
def mA (w : Word) : BitVec 2 := BitVec.ofNat 2 (bits w.toNat 24 2)
def mB (w : Word) : BitVec 2 := BitVec.ofNat 2 (bits w.toNat 22 2)
def mX (w : Word) : BitVec 3 := BitVec.ofNat 3 (bits w.toNat 21 3)
def mAddr (w : Word) : BitVec 12 := BitVec.ofNat 12 (bits w.toNat 0 12)
def mEa (w : Word) : Ea := ⟨mX w, BitVec.ofNat 2 (bits w.toNat 19 2), mAddr w⟩
def mP (w : Word) : PEa := ⟨mX w, BitVec.ofNat 2 (bits w.toNat 19 2)⟩
def mQ (w : Word) : PEa := ⟨BitVec.ofNat 3 (bits w.toNat 16 3), BitVec.ofNat 2 (bits w.toNat 14 2)⟩
def mImm (w : Word) : Half := BitVec.ofNat 16 (bits w.toNat 0 16)

/-- The instruction where its zero fields are zero. -/
def only (ok : Bool) (i : MIns) : Option MIns := if ok then some i else none

/-- The word of format D: bits [18:12] are 0. -/
def okD (w : Word) : Bool := bits w.toNat 12 7 == 0

/-- The word of format P: bits [13:0] are 0 and no mode is 0b11. -/
def okP (w : Word) : Bool := bits w.toNat 0 14 == 0 && bits w.toNat 19 2 != 3 && bits w.toNat 14 2 != 3

/-- The word of format R: bits [21:0] are 0, in SHA bits [21:6]. -/
def okR (w : Word) : Bool := bits w.toNat 0 22 == 0

/-- The word of format I with IMM16: bits [20:16] are 0. -/
def okI (w : Word) : Bool := bits w.toNat 16 5 == 0

/-- The word of format I with IMM12, and A 0. -/
def okI12 (w : Word) : Bool := bits w.toNat 12 9 == 0 && mA w == 0

/-- The instruction of a word; none where R188 calls it an illegal word (FCODE 1). -/
def decodeM (w : Word) : Option MIns :=
  match bits w.toNat 26 6 with
  | 0x01 => only (okD w) (.ld (mA w) (mEa w))
  | 0x02 => only (okD w) (.st (mA w) (mEa w))
  | 0x03 => only (okD w) (.add (mA w) (mEa w))
  | 0x04 => only (okD w) (.sub (mA w) (mEa w))
  | 0x05 => only (okD w && mA w == 0) (.ldk (mEa w))
  | 0x06 => only (okD w) (.mpy (mA w) (mEa w))
  | 0x07 => only (okD w) (.mac (mA w) (mEa w))
  | 0x08 => only (okD w) (.msu (mA w) (mEa w))
  | 0x09 => only (okD w) (.cmp (mA w) (mEa w))
  | 0x0A => only (okD w) (.lim (mA w) (mEa w))
  | 0x0B => only (okD w && bits w.toNat 19 2 == 0) (.ldx (mX w) (mAddr w))
  | 0x0C => only (okD w && bits w.toNat 19 2 == 0) (.stx (mX w) (mAddr w))
  | 0x0D => only (okD w) (.lut (mA w) (mEa w))
  | 0x0E => only (okD w) (.div (mA w) (mEa w))
  | 0x10 => only (okP w) (.mpyp (mA w) (mP w) (mQ w))
  | 0x11 => only (okP w) (.macp (mA w) (mP w) (mQ w))
  | 0x12 => only (okP w) (.msbp (mA w) (mP w) (mQ w))
  | 0x18 => only (okR w) (.mov (mA w) (mB w))
  | 0x19 => only (okR w) (.adda (mA w) (mB w))
  | 0x1A => only (okR w) (.suba (mA w) (mB w))
  | 0x1B => only (okR w) (.neg (mA w))
  | 0x1C => only (okR w) (.abs (mA w))
  | 0x1D => only (okR w) (.clr (mA w))
  | 0x1E => only (bits w.toNat 6 16 == 0) (.sha (mA w) (BitVec.ofNat 6 (bits w.toNat 0 6)))
  | 0x1F => only (okR w) (.sat (mA w))
  | 0x20 => only (okR w) (.max (mA w) (mB w))
  | 0x21 => only (okR w) (.min (mA w) (mB w))
  | 0x22 => only (okR w) (.mulk (mA w) (mB w))
  | 0x23 => only (okR w) (.cmpa (mA w) (mB w))
  | 0x24 => only (okR w) (.movk (mA w))
  | 0x28 => only (okI w) (.ldi (mA w) (mImm w))
  | 0x29 => only (okI w) (.addi (mA w) (mImm w))
  | 0x2A => only (okI w && mA w == 0) (.lki (mImm w))
  | 0x2B => only (okI12 w) (.lxi (mX w) (mAddr w))
  | 0x2C => only (okI12 w) (.axi (mX w) (mAddr w))
  | 0x2D => only (bits w.toNat 8 13 == 0) (.rep (BitVec.ofNat 8 (bits w.toNat 0 8)))
  | 0x30 => only (bits w.toNat 4 20 == 0 && decide (bits w.toNat 0 4 < 7)) (.get (mA w) (BitVec.ofNat 4 (bits w.toNat 0 4)))
  | 0x31 => only (bits w.toNat 4 20 == 0) (.out (mA w) (BitVec.ofNat 3 (bits w.toNat 0 3)) (bit w.toNat 3))
  | 0x38 => only (bits w.toNat 12 10 == 0 && decide (bits w.toNat 22 4 < 13)) (.jmp (BitVec.ofNat 4 (bits w.toNat 22 4)) (mAddr w))
  | 0x39 => only (bits w.toNat 12 14 == 0) (.call (mAddr w))
  | 0x3A => only (bits w.toNat 0 26 == 0) .ret
  | 0x3B => only (bits w.toNat 0 26 == 0) .endI
  | 0x3C => only (bits w.toNat 0 26 == 0) .nop
  | _ => none

end Sys2Proof.Machine
end

