-- ==== Sys2Proof/Machine/Trio.lean ====
section
/-!
DEFINITION. Machine/Trio.lean: commands of 03_trio_execution.md: the comparators and their checks (R119 to R123), the trio modes
(Table 3.4), resync (Table 3.6), core self-test (R130, R553), digests at the 10 ms mark (R131 to R134), split and join (R125,
R135 to R138), debug halts (R139 to R141) and the service pair (R143).
-/

namespace Sys2Proof.Machine

/-- Cores of a mask, in order. -/
def coresOf (m : Nat) : List Nat := [0, 1, 2].filter (fun c => bit m c)

/-- The trio enters a mode; LIVE names the cores in lock-step or free (Table 3.3). Entering a mode in which injections run again
restarts their 1 ms schedule (R122). -/
def Lane.setTrioMode (L : Lane) (m live : Nat) : Lane :=
  let paused (x : Nat) := x == 1 || x == 3 || x == 5 || x == 6 || x == 7
  let L1 := (L.put F.TRIO_MODE_MODE m).put F.TRIO_MODE_LIVE live
  if paused L.trioMode && !paused m then L1.onTrio (fun t => { t with injAt := L.now, injDefer := none }) else L1

/-- A core pruned until the next lane reset (R128). -/
def Lane.pruneCore (L : Lane) (c : Nat) : Lane :=
  (((L.putBit F.TRIO_MODE_PRUNED c true).putBit F.TRIO_MODE_LIVE c false).setReg R.TRIO_ADIG 0 0 c).prune (.core c)

/-- The trio commands of the queue end: those of an opcode that are outstanding, with the trio mode reached as result. -/
def Lane.endTrioCmds (L : Lane) (op status : Nat) : Lane :=
  (L.cmdq.queue.filter (fun c => c.live && c.op == op && (c.phase == .running || c.phase == .deferred))).foldl
    (fun K c => K.finish c status (if status = St.DONE then [BitVec.ofNat 8 K.trioMode] else [])) L

/-- Entry to STOPPED: all cores held, the free core's work abandoned, NOVOTE toward the Hedge (R119, R129, Table 3.4). A split
or join in progress ends. -/
def Lane.stopTrio (L : Lane) : Lane :=
  let L1 := ((L.setTrioMode 6 0).put F.TRIO_MODE_NOVOTE 1).note Ev.TRIO_NO_MAJORITY
  let L2 := L1.onTrio (fun t => { t with drain := none, copying := none, deferred := none, stopAt := L.now, cstFailed := 0 })
  (((L2.put F.TRIO_SPLIT_BUSY 0).put F.TRIO_SPLIT_DEFER 0).endTrioCmds 0x73 St.ABORTED |>.endTrioCmds 0x74 St.ABORTED).showNovote

/-- A mismatch shown in TRIO_CMP. -/
def Lane.cmpShow (L : Lane) (odd kind : Nat) : Lane :=
  ((L.put F.TRIO_CMP_ODD odd).put F.TRIO_CMP_KIND kind).incSat F.TRIO_CMP_COUNT

/-- RESYNC of the cores of a mask begun: odd cores stopped, the pair drains (Table 3.6). -/
def Lane.beginResync (L : Lane) (mask : Nat) (join : Bool) : Lane :=
  (L.setTrioMode 1 (L.soundCores - (L.soundCores &&& mask))).onTrio (fun t => { t with
    drain := some (.resync (BitVec.ofNat 3 mask) join), copying := none, detectAt := L.now })

/-- An odd core located in TRIO: the transient count, then RESYNC, or PAIR with the core pruned at THRESH (Table 3.4, R128), which ends
a split that was draining: Table 3.4 has none from PAIR. Before a RESYNC such a split is deferred until TRIO is reached again
(Table 3.5). -/
def Lane.oddCore (L : Lane) (e : Event) (c kind : Nat) : Lane :=
  let r := (L.cmpShow (2 ^ c) kind).transientRaw e 0 c
  if r.2 then
    let K := (r.1.note Ev.TRIO_CORE_PRUNED).pruneCore c
    let K1 := (K.setTrioMode 2 K.soundCores).onTrio (fun t => { t with drain := none, deferred := none })
    ((K1.put F.TRIO_SPLIT_BUSY 0).put F.TRIO_SPLIT_DEFER 0).endTrioCmds 0x73 St.ABORTED
  else
    let again := match r.1.trio.drain with
      | some .split => some SplitReq.split
      | some .free3 => some SplitReq.free3
      | _ => r.1.trio.deferred
    let K := (r.1.onTrio (fun t => { t with deferred := again })).putB F.TRIO_SPLIT_DEFER again.isSome
    K.beginResync (2 ^ c) false

/-- KIND of TRIO_CMP for an output of Table 3.2. -/
def outKind : CoreOut → Nat
  | .bus .. => 0
  | .csr .. | .trap .. => 1
  | .claim .. | .complete .. | .haltAck | .resumeAck => 3

/-- The comparators' outcome (R117, R119): the majority output, none where there is none; the odd core. -/
structure Compared where
  issue : Option CoreOut
  odd : Option Nat
  deriving DecidableEq, Repr

/-- Two out of three in TRIO, two out of two over two lock-step cores, no comparison of a single one. -/
def Lane.compareOut (L : Lane) (o : Nat → CoreOut) : Compared :=
  match coresOf L.lockStep with
  | [x, y, z] =>
    match minority3 (o x == o y) (o y == o z) (o x == o z) with
    | 0 => ⟨some (o x), none⟩
    | 8 => ⟨none, none⟩
    | k => let c := if k = 4 then 2 else k - 1; ⟨some (o (if c = 0 then 1 else 0)), some c⟩
  | [x, y] => if o x = o y then ⟨some (o x), none⟩ else ⟨none, none⟩
  | [x] => ⟨some (o x), none⟩
  | _ => ⟨none, none⟩

/-- What a found comparison does to the trio (Table 3.4): nothing with a majority and no odd core; RESYNC or PAIR with one; STOPPED
without a majority. -/
def Lane.trioCompared (L : Lane) (r : Compared) (kind : Nat) : Lane :=
  match r.issue, r.odd with
  | some _, none => L
  | _, some c => L.oddCore Ev.TRIO_CORE_MISMATCH c kind
  | none, none => (L.cmpShow 7 kind).stopTrio

/-- The start address of a free core (TRIO_FREE_PC). -/
def Lane.freePc (L : Lane) : Word := BitVec.ofNat 32 (L.reg R.TRIO_FREE_PC) &&& 0xFFFFFFFE

/-- HAND_OVER_POINT (R127, R135, R138): the pair has drained; the copy starts, or the split takes effect and the freed cores start. -/
def execHandOverPoint (l : LaneId) (s : State) : Out :=
  s.on l (fun L => L.up && L.trio.drain.isSome) (fun L =>
    match L.trio.drain with
    | none => L
    | some (.resync m j) => L.onTrio (fun t => { t with drain := none, copying := some (.resync m j), copyAt := L.now })
    | some .split =>
      let L0 := ((L.setTrioMode 4 7).put F.TRIO_MODE_FREE 2).setReg R.TRIO_ADIG 0 0 2
      let L1 := L0.onCores 4 (fun c k => k.start c L.freePc)
      let L2 := (L1.onTrio (fun t => { t with drain := none })).put F.TRIO_SPLIT_BUSY 0
      ((L2.note Ev.TRIO_SPLIT_DONE).pulse 10).endTrioCmds 0x73 St.DONE
    | some .free3 =>
      let L1 := (L.setTrioMode 5 7).put F.TRIO_MODE_NOVOTE 1
      let L2 := ([0, 1, 2].foldl (fun K c => K.setReg R.TRIO_ADIG 0 0 c) L1).onCores 7 (fun c k => k.start c L.freePc)
      let L3 := (L2.onTrio (fun t => { t with drain := none })).put F.TRIO_SPLIT_BUSY 0
      (((L3.note Ev.TRIO_SPLIT_DONE).pulse 10).endTrioCmds 0x73 St.DONE).showNovote)

/-- Copy and release time in ticks at the present frequency level: 256 CLK_SYS cycles and 50 ns, rounded up (Table 3.6). -/
def Lane.copyTicks (L : Lane) : Nat :=
  match L.get F.CLK_LEVEL_CUR with
  | 0 => 138
  | 1 => 181
  | _ => 266

/-- The mode of a number of live cores (Table 3.4). -/
def modeOfLive (n : Nat) : Nat := if n = 3 then 0 else if n = 2 then 2 else if n = 1 then 3 else 6

/-- A debug halt of the lock-step cores takes effect (R139). DESIGN CHOICE: LIVE, "cores in lock-step or free", reads 0 in STOPPED and in
DEBUG, where no core is either (log 134). -/
def Lane.breakStep (L : Lane) : Lane :=
  let h := L.lockStep
  let L1 := ((L.setTrioMode 7 0).put F.TRIO_MODE_NOVOTE 1).note Ev.TRIO_DBG_BROKEN
  (L1.onTrio (fun t => { t with
    halted := t.halted ||| BitVec.ofNat 3 h, haltHeld := none, graftAfter := true, drain := none })).showNovote

/-- A request of Table 3.5 and Table 3.4: started, deferred, or refused with a status. -/
inductive ReqEnd where
  | started
  | deferred
  | refused (status : Nat)
  deriving DecidableEq, Repr

/-- A split request (Table 3.4, Table 3.5). DESIGN CHOICE: a request while another one still drains to its hand-over point, for which
Table 3.5 has no row, ends NOT_IN_STATE (log 134). The life cycle is judged before the membership and both before the mode (log 14). -/
def Lane.splitRequest (L : Lane) (all : Bool) : Lane × ReqEnd :=
  if all && L.get F.SYS_LC_STATE != 3 then (L, .refused St.LOCKED)
  else if all && L.isMember L.strap then (L, .refused St.NOT_IN_STATE)
  else if L.trioMode == 1 then
    (((L.put F.TRIO_SPLIT_DEFER 1).put F.TRIO_SPLIT_BUSY 1).onTrio (fun t => { t with deferred := some (if all then .free3 else .split) }),
      .deferred)
  else if L.trioMode == 0 && L.soundCores == 7 && L.trio.drain.isNone then
    ((L.put F.TRIO_SPLIT_BUSY 1).onTrio (fun t => { t with drain := some (if all then .free3 else .split), detectAt := L.now }),
      .started)
  else (L, .refused St.NOT_IN_STATE)

/-- A join request (Table 3.4, Table 3.5): SPLIT reloads core 2, FREE3 cores 1 and 2; in RESYNC it is deferred and supersedes a
deferred split. -/
def Lane.joinRequest (L : Lane) : Lane × ReqEnd :=
  match L.trioMode with
  | 4 => (((L.put F.TRIO_SPLIT_BUSY 1).put F.TRIO_MODE_FREE 0).beginResync (2 ^ L.get F.TRIO_MODE_FREE) true, .started)
  | 5 => (((L.put F.TRIO_SPLIT_BUSY 1).beginResync (L.soundCores &&& 6) true).onTrio (fun t => { t with graftAfter := true }),
      .started)
  | 1 =>
    let L1 := ((L.endTrioCmds 0x73 St.SUPERSEDED).put F.TRIO_SPLIT_DEFER 1).put F.TRIO_SPLIT_BUSY 1
    (L1.onTrio (fun t => { t with deferred := some .join }), .deferred)
  | _ => (L, .refused St.NOT_IN_STATE)

/-- The deferred request when RESYNC ends: a split starts in TRIO and waits on in other modes; a join is judged in the mode
reached (Table 3.5). -/
def Lane.runDeferred (L : Lane) : Lane :=
  match L.trio.deferred with
  | none => L
  | some .join =>
    let K := ((L.onTrio (fun t => { t with deferred := none })).put F.TRIO_SPLIT_DEFER 0).put F.TRIO_SPLIT_BUSY 0
    let r := K.joinRequest
    match r.2 with
    | .refused st => r.1.endTrioCmds 0x74 st
    | _ => r.1
  | some q =>
    if L.trioMode = 0 then
      let K := ((L.onTrio (fun t => { t with deferred := none })).put F.TRIO_SPLIT_DEFER 0).put F.TRIO_SPLIT_BUSY 0
      let r := K.splitRequest (q == .free3)
      match r.2 with
      | .refused st => r.1.endTrioCmds 0x73 st
      | _ => r.1
    else L

/-- The two cores an image is read from hold different contents: the comparators through which it is read find a pair mismatch (R126). -/
def Lane.imageDiffers (L : Lane) : Bool :=
  match coresOf L.lockStep with
  | x :: y :: _ => L.core x != L.core y
  | _ => false

/-- The resync image of the lowest lock-step core loaded into the cores of a mask (R126). -/
def Lane.loadImage (L : Lane) (mask : Nat) : Lane :=
  match coresOf L.lockStep with
  | x :: _ => L.onCores mask (fun _ _ => L.core x)
  | [] => L

/-- RESYNC_DONE (R126, R127, Table 3.4, Table 3.6): the copy has taken its time; cores loaded and released, the mode by the live cores;
held halts and deferred requests follow. Where the two cores the image is read from differ, the trio stops. A lane that must graft first
leaves the vote (Table 3.4). -/
def execResyncDone (l : LaneId) (s : State) : Out :=
  s.on l (fun L => L.up && L.trioMode == 1 && L.trio.copying.isSome && L.since L.trio.copyAt L.copyTicks) (fun L =>
    match L.trio.copying with
    | some (.resync m join) =>
      if L.imageDiffers then (L.cmpShow 7 0).stopTrio else
      let mask := m.toNat
      let top := if bit mask 2 then 2 else if bit mask 1 then 1 else 0
      let ns := satU 65535 (5 * (L.now - L.trio.detectAt))
      let L1 := (((L.incSat F.TRIO_RSYNC_COUNT).put F.TRIO_RSYNC_LAST_NS ns).put F.TRIO_RSYNC_CORE top).put F.TRIO_RSYNC_MASK mask
      let L2 := ((L1.loadImage mask).note Ev.TRIO_RESYNC_DONE).pulse 9
      let L3 := (L2.setTrioMode (modeOfLive (pop3 L2.soundCores)) L2.soundCores).onTrio (fun t => { t with copying := none })
      let L4 := if join then
          (((L3.note Ev.TRIO_JOIN_DONE).pulse 10).put F.TRIO_SPLIT_BUSY 0).endTrioCmds 0x74 St.DONE
        else L3
      let L5 := if L4.trio.graftAfter then L4.laneFault else L4
      if L5.trio.haltHeld.isSome then L5.breakStep else L5.runDeferred
    | _ => L)

/-- The next core to inject: the next lock-step core in turn (R120). -/
def Lane.nextInj (L : Lane) (c : Nat) : Nat :=
  let m := L.lockStep
  if bit m ((c + 1) % 3) then (c + 1) % 3 else if bit m ((c + 2) % 3) then (c + 2) % 3 else c % 3

/-- INJECTION (R120 to R122): due every 1 ms, +-10 us; a real mismatch in its cycle moves it 1 us later. A comparator with equal rails,
delay-register copies that differ or a parity failure show at any time, with or without an injection due. -/
def execInjection (l : LaneId) (out : InjOut) (s : State) : Out :=
  if out = .checker then s.on l (fun L => L.up && L.lockStep != 0) Lane.chkFault
  else s.on l (fun L => L.up && (L.trioMode == 0 || L.trioMode == 2 || L.trioMode == 4) &&
      (match L.trio.injDefer with
        | some t => L.since t (us 1)
        | none => L.since L.trio.injAt (us 990))) (fun L =>
    if out = .real then (L.note Ev.TRIO_INJ_DEFERRED).onTrio (fun t => { t with injDefer := some L.now })
    else
      let c := if bit L.lockStep L.trio.injNext then L.trio.injNext else L.nextInj L.trio.injNext
      let ok := match out with
        | .named k => L.trioMode == 0 && k.val == c
        | .pairMismatch => L.trioMode != 0
        | _ => false
      let L1 := ((L.incMod F.TRIO_INJ_RUNS).putB F.TRIO_INJ_LAST_OK ok).onTrio (fun t => { t with
        injAt := L.now, injDefer := none, injNext := L.nextInj c })
      if ok then L1 else L1.chkFault)

/-- The service pair pruned until the next lane reset (R143). -/
def Lane.pruneSvc (L : Lane) : Lane :=
  ((((L.put F.TRIO_SVC_LIVE 0).put F.TRIO_SVC_RESTART 0).put F.TRIO_SVC_PRUNED 1).note Ev.TRIO_SVC_PRUNED).prune .svc

/-- SVC_INJECTION (R123): once every 1 ms; one not caught prunes the service pair. DESIGN CHOICE: TRIO_INJ.RUNS, "injections performed
since lane reset", counts the trio's injections only (log 134). -/
def execSvcInjection (l : LaneId) (caught : Bool) (s : State) : Out :=
  s.on l (fun L => L.up && L.svcRuns && L.since L.trio.svcInjAt (ms 1)) (fun L =>
    let L1 := (L.putB F.TRIO_INJ_SVC_OK caught).onTrio (fun t => { t with svcInjAt := L.now })
    if caught then L1 else (L1.note Ev.TRIO_SVC_CHK).pruneSvc)

/-- SVC_MISMATCH (R143): reset and restart, counted; pruned at THRESH. -/
def execSvcMismatch (l : LaneId) (s : State) : Out :=
  s.on l (fun L => L.up && L.svcRuns) (fun L =>
    let r := L.transientRaw Ev.TRIO_SVC_MISMATCH 0 3
    if r.2 then r.1.pruneSvc
    else ((r.1.put F.TRIO_SVC_LIVE 0).put F.TRIO_SVC_RESTART 1).incSat F.TRIO_SVC_RESTARTS)

/-- SVC_RESTART_DONE (R143): the service pair runs again from its NVM image. -/
def execSvcRestartDone (l : LaneId) (s : State) : Out :=
  s.on l (fun L => L.up && L.is F.TRIO_SVC_RESTART) (fun L =>
    ((L.put F.TRIO_SVC_RESTART 0).put F.TRIO_SVC_LIVE 1).onTrio (fun t => { t with svcInjAt := L.now }))

/-- One core's self-test failed: CST_FAIL, pruned (R553). -/
def Lane.cstPrune (L : Lane) (c : Nat) : Lane := (L.note Ev.TRIO_CST_FAIL).pruneCore c

/-- Every core passed: each transient count incremented, cores at THRESH pruned (R553). -/
def Lane.cstCount (L : Lane) (c : Nat) : Lane :=
  let K := L.lbAdd .trio 0 c
  if K.lbThresh .trio 0 ≤ K.tokenCount .trio 0 c then
    let P := ((K.estat .trio 0 0x20).note (Ev.LB_PROMOTED .trio)).lbEmpty .trio 0 c
    (P.note Ev.TRIO_CORE_PRUNED).pruneCore c
  else K

/-- The lock-step cores start from boot ROM in one state after the self-test (log 132). -/
def Lane.loadAll (L : Lane) : Lane := L.onCores L.lockStep (fun _ _ => {})

/-- CST_COMPLETE (R130, R553): `passed` names the cores whose signature matched. The live cores decide the mode; a lane that
leaves STOPPED grafts, one without a live core is PRUNED. -/
def execCstComplete (l : LaneId) (passed : BitVec 3) (s : State) : Out :=
  s.on l (fun L => L.up && L.trioMode == 6 && L.soundCores != 0 && L.since L.trio.stopAt (us 1500)) (fun L =>
    let ok := passed.toNat &&& (7 - L.trio.cstFailed.toNat)
    let bad := coresOf (L.soundCores - (L.soundCores &&& ok))
    let L1 := bad.foldl Lane.cstPrune L
    let L2 := if bad.isEmpty && L.soundCores == 7 then [0, 1, 2].foldl Lane.cstCount L1 else L1
    if L2.soundCores = 0 then
      let L4 := L2.pruneLane
      match L4.trio.haltHeld with
      | some c => L4.onTrio (fun t => { t with haltHeld := none, halted := t.halted ||| BitVec.ofNat 3 (2 ^ c.val) })
      | none => L4
    else
      let L3 := (L2.setTrioMode (modeOfLive (pop3 L2.soundCores)) L2.soundCores).loadAll
      let L4 := (L3.put F.TRIO_MODE_NOVOTE 0).laneFault.showNovote
      if L4.trio.haltHeld.isSome then L4.breakStep else L4.runDeferred)

/-- CST_TIMEOUT (R130): a core not finished after 2 ms has failed. -/
def execCstTimeout (l : LaneId) (core : Fin 3) (s : State) : Out :=
  s.on l (fun L => L.up && L.trioMode == 6 && bit L.soundCores core.val && L.since L.trio.stopAt (ms 2)) (fun L =>
    L.onTrio (fun t => { t with cstFailed := t.cstFailed ||| BitVec.ofNat 3 (2 ^ core.val) }))

/-- TRIO_SPLIT_REQ (R125, R135). -/
def execTrioSplitReq (l : LaneId) (s : State) : Out := s.on l Lane.up (fun L => (L.splitRequest false).1)

/-- TRIO_SPLIT_ALL (R125, R138). -/
def execTrioSplitAll (l : LaneId) (s : State) : Out := s.on l Lane.up (fun L => (L.splitRequest true).1)

/-- TRIO_SPLIT_JOIN (R125, R137). -/
def execTrioSplitJoin (l : LaneId) (s : State) : Out := s.on l Lane.up (fun L => L.joinRequest.1)

/-- DEBUG_HALT (R139, R140): only while the debug port is open (R531). DESIGN CHOICE: a request addressed to a pruned core does nothing,
for such a core is out of the trio until the next lane reset (log 134). In STOPPED it is held until the self-test ends; where the
trio stays in STOPPED, the addressed core halts on its own. -/
def execDebugHalt (l : LaneId) (core : Fin 3) (s : State) : Out :=
  s.on l (fun L => L.up && L.is F.SYS_LC_DBGOPEN && (bit L.soundCores core.val || L.trioMode == 6)) (fun L =>
    let one := L.onTrio (fun t => { t with halted := t.halted ||| BitVec.ofNat 3 (2 ^ core.val) })
    match L.trioMode with
    | 0 | 2 | 3 => L.breakStep
    | 4 => if L.get F.TRIO_MODE_FREE = core.val then one else L.breakStep
    | 1 => L.onTrio (fun t => { t with haltHeld := some core })
    | 6 => if L.soundCores = 0 then one else L.onTrio (fun t => { t with haltHeld := some core })
    | _ => one)

/-- DEBUG_RESUME (Table 3.4): all halted cores resume; from DEBUG the live cores are reloaded from the lowest-numbered one. -/
def execDebugResume (l : LaneId) (s : State) : Out :=
  s.on l (fun L => L.up && L.trio.halted != 0) (fun L =>
    let L1 := L.onTrio (fun t => { t with halted := 0 })
    if L.trioMode = 7 then
      let live := L.soundCores
      let low := if bit live 0 then 1 else if bit live 1 then 2 else 4
      L1.beginResync (live - (live &&& low)) false
    else L1)

/-- SVC_HALT (R141): a halt of either service-pair core halts both. -/
def execSvcHalt (l : LaneId) (_core : Fin 2) (s : State) : Out :=
  s.on l (fun L => L.up && L.is F.SYS_LC_DBGOPEN && L.is F.TRIO_SVC_LIVE) (fun L => L.put F.TRIO_SVC_HALTED 1)

/-- SVC_RESUME (R141). -/
def execSvcResume (l : LaneId) (s : State) : Out := s.on l Lane.up (fun L => L.put F.TRIO_SVC_HALTED 0)

/-! ### Digests (R131 to R134) -/

/-- The replicated region in 16-byte words of the trio TCM: first word and number of words (TRIO_DIG_BASE, TRIO_DIG_SIZE). -/
def Lane.digRegion (L : Lane) : Nat × Nat :=
  let b := L.get F.TRIO_DIG_BASE_BASE
  let n := min 0x1000 (L.get F.TRIO_DIG_SIZE_SIZE)
  (0x1000000 + b, min n (0x4000 - min b 0x4000))

/-- The 16-byte words of a region that hold a byte other than 0, by word address. -/
def Lane.usedWords (L : Lane) (first n : Nat) : List Nat :=
  (L.mem.map (fun c => c.1 / 16)).filter (fun a => decide (first ≤ a) && decide (a < first + n)) |>.eraseDups

/-- A command of the queue state in the replicated region, as one memory word: its header and the CRC of its parameters. -/
def TCmd.item (c : TCmd) : List Byte :=
  bytesBE 1 c.op ++ bytesBE 1 (b2n c.rreq + 2 * b2n c.urgent + 4 * b2n c.net) ++ bytesBE 2 c.tag.toNat ++ bytesBE 1 c.act ++
    bytesBE 1 c.lanes ++ bytesBE 2 c.ring ++ bytesBE 4 c.issue ++ bytesBE 4 (crc32c c.params).toNat

/-- An actuator's trajectory and bridge state as one memory word. -/
def ActSt.item (a : Nat) (t : ActSt) : List Byte :=
  bytesBE 1 (a + 1) ++ bytesBE 1 (match t.bridge with
    | .disabled => 0 | .enabling => 1 | .enabled => 2 | .disabling => 3 | .asc => 4) ++
    bytesBE 2 (match t.kind with
      | .none => 0 | .angle => 1 | .torque => 2 | .force => 3 | .release => 4 | .hold => 5 | .brakeHold => 6 | .zero => 7
      | .kiss => 8 | .align => 9) ++
    bytesBE 4 (ofSigned 32 t.setpoint) ++ bytesBE 4 (ofSigned 32 t.target) ++ bytesBE 4 t.step

/-- The Trellis queue state that every member lane holds identically (R165, R170): the admitted commands of module scope, the
actuators that have left their reset state. -/
def Lane.queueItems (L : Lane) : List (List Byte) :=
  (L.cmdq.queue.filter (fun c => c.lanes == 7 && c.phase != .held)).map TCmd.item ++
    (L.cmdq.acts.zipIdx.filter (fun t => t.1.bridge != .disabled || t.1.kind != .none)).map (fun t => t.1.item t.2)

/-- The difference that one memory word makes to a digest of zeros. -/
def itemDigest (a : Nat) (d : List Byte) : Word := wordHash a d ^^^ wordHash a (List.replicate 16 0)

/-- SDIG (R132): the XOR of h over every 128-bit word of the replicated region, the most significant byte first in d. The Trellis
queue state is part of the region (R165), at words the spec does not name (log 88). -/
def Lane.sdigNow (L : Lane) : Word :=
  let r := L.digRegion
  let x := (L.usedWords r.1 r.2).foldl (fun x a => x ^^^ itemDigest a (L.memBytes (16 * a) 16).reverse) (zeroDigest r.2 r.1)
  L.queueItems.zipIdx.foldl (fun y i => y ^^^ itemDigest (Config.queueWord i.2) i.1) x

/-- The digests at the 10 ms mark (R133, R134). -/
def Lane.digestMark (L : Lane) : Lane :=
  let L1 := (L.setReg R.TRIO_SDIG L.sdigNow.toNat).pulse 11
  let L2 := L1.onTrio (fun t => { t with markDue := (L.mtN / 2000000 + 1) * 2000000 })
  let m := L2.trioMode
  if m = 0 ∨ m = 2 ∨ m = 3 ∨ m = 4 then
    let d (c : Nat) := if bit L2.lockStep c then (L2.core c).digest.toNat else 0
    let L3 := [0, 1, 2].foldl (fun K c => K.setReg R.TRIO_ADIG (d c) 0 c) L2
    if m = 0 then
      match minority3 (d 0 == d 1) (d 1 == d 2) (d 0 == d 2) with
      | 0 => L3
      | 8 => (L3.cmpShow 7 2).stopTrio
      | k => L3.oddCore Ev.TRIO_DIGEST_ODD (if k = 4 then 2 else k - 1) 2
    else if m = 3 then L3
    else
      match coresOf L3.lockStep with
      | [x, y] => if d x = d y then L3 else (L3.cmpShow 7 2).stopTrio
      | _ => L3
  else L2

end Sys2Proof.Machine
end

