-- ==== Sys2Proof/Machine/Rings.lean ====
section
/-!
DEFINITION. Machine/Rings.lean: the submission and completion rings and intake (04_trellis_commands.md, R152 to R164, R178,
Tables 4.1, 4.4, 4.5, 4.9).
-/

namespace Sys2Proof.Machine

/-! ### Opcodes (Table 4.9) -/

/-- The scope of an opcode (R163). -/
inductive Scope where
  | module | lanes | single
  deriving DecidableEq, Repr

/-- One opcode: its code, scope, the actuator kinds its ACT may have (0 for ACT 0x00, 1 STEER, 2 CLAMP, 3 LOCK), its parameter
length (`perN` bytes for each of a counted list after 4 bytes, up to `maxN`), and whether it is immediate (R160). -/
structure OpRow where
  op : Nat
  scope : Scope
  acts : List Nat
  plen : Nat
  perN : Nat := 0
  maxN : Nat := 0
  imm : Bool := false
  deriving DecidableEq, Repr

/-- Table 4.9, motion and lane part. -/
def opRowsA : List OpRow :=
  [⟨0x01, .single, [0], 4, 0, 0, true⟩, ⟨0x02, .single, [0], 0, 0, 0, true⟩, ⟨0x03, .module, [0], 12, 0, 0, false⟩,
   ⟨0x10, .module, [1], 8, 0, 0, false⟩, ⟨0x11, .module, [1], 8, 0, 0, false⟩, ⟨0x12, .module, [2], 8, 0, 0, false⟩,
   ⟨0x13, .module, [2], 4, 0, 0, false⟩, ⟨0x14, .module, [1, 2, 3], 4, 0, 0, false⟩, ⟨0x15, .module, [1, 2, 3], 0, 0, 0, false⟩,
   ⟨0x16, .module, [1, 2, 3], 4, 0, 0, false⟩, ⟨0x17, .module, [1, 2, 3], 0, 0, 0, false⟩, ⟨0x20, .lanes, [0], 4, 0, 0, false⟩,
   ⟨0x21, .module, [1], 4, 0, 0, false⟩, ⟨0x22, .module, [2], 4, 0, 0, false⟩, ⟨0x23, .single, [1, 2, 3], 8, 0, 0, false⟩]

/-- Table 4.9, the rest. -/
def opRowsB : List OpRow :=
  [⟨0x30, .lanes, [0], 4, 0, 0, false⟩, ⟨0x31, .single, [0], 0, 0, 0, false⟩, ⟨0x32, .lanes, [0, 1, 2, 3], 0, 0, 0, false⟩,
   ⟨0x33, .lanes, [0], 8, 0, 0, false⟩, ⟨0x40, .lanes, [0], 4, 0, 0, false⟩, ⟨0x41, .lanes, [0], 4, 0, 0, false⟩,
   ⟨0x42, .single, [0], 0, 0, 0, false⟩, ⟨0x50, .lanes, [0], 4, 8, 5, false⟩, ⟨0x51, .single, [0], 4, 4, 10, true⟩,
   ⟨0x52, .module, [0], 4, 0, 0, false⟩, ⟨0x53, .module, [0], 0, 0, 0, true⟩, ⟨0x60, .single, [0], 8, 0, 0, true⟩,
   ⟨0x61, .module, [0], 20, 0, 0, false⟩, ⟨0x70, .single, [0], 0, 0, 0, true⟩, ⟨0x71, .single, [0], 0, 0, 0, false⟩,
   ⟨0x72, .single, [0], 4, 0, 0, false⟩, ⟨0x73, .single, [0], 8, 0, 0, false⟩, ⟨0x74, .single, [0], 0, 0, 0, false⟩]

/-- The row of an opcode. -/
def opRow (op : Nat) : Option OpRow := (opRowsA ++ opRowsB).find? (fun r => r.op == op)

/-! ### Ring slots (R152, R153) -/

/-- Free slots of a ring, lowest first. -/
def Lane.freeSlots (L : Lane) (ring : Nat) : List Nat :=
  (List.range 64).filter (fun i => !L.cmdq.slots.any (fun r => r.ring == ring && r.slot == i))

/-- CMDQ_RING_n_FREE brought up to date. -/
def Lane.freeShow (L : Lane) (ring : Nat) : Lane := L.put F.CMDQ_RING_FREE_FREE (L.freeSlots ring).length 0 ring

/-- ALLOC (R152): the read reserves a free slot and returns its index (which one is open, log 4), or returns 0xFFFF. -/
def execAlloc (l : LaneId) (m : Master) (ring : Fin 4) (s : State) : Out := s.gate l m false (R.CMDQ_RING_ALLOC.addr 0 ring.val) (fun s =>
  let L := s.lane l
  if L.up then
    let n := ring.val
    match L.freeSlots n with
    | [] => .next (s.upd l (fun K => K.onCmdq (fun q => { q with starved := q.starved.set n true, busData := 0xFFFF })))
    | f :: fs =>
      let (k, s1) := s.draw
      let idx := (f :: fs).getD (Config.freeNat k % (f :: fs).length) f
      .next (s1.upd l (fun K => (K.onCmdq (fun q => { q with
        slots := q.slots ++ [⟨n, idx, false, false, K.now⟩], starved := q.starved.set n false
        busData := BitVec.ofNat 32 idx })).freeShow n))
  else .next s)

/-- POST (R152, R153): a reserved slot enters its ring's order; any other slot is POST_ERR. -/
def execPost (l : LaneId) (m : Master) (ring : Fin 4) (slot : Nat) (s : State) : Out :=
  s.on l (fun L => L.up && L.masterRuns m) (fun L =>
    let i := slot % 64
    let mine (r : RingSlot) := r.ring == ring.val && r.slot == i
    if L.cmdq.slots.any (fun r => mine r && !r.posted) then
      L.onCmdq (fun q => { q with
        slots := q.slots.filter (fun r => !mine r) ++ [⟨ring.val, i, true, decide (m = .svc), L.now⟩] })
    else L.note Ev.CMDQ_POST_ERR)

/-- ALLOC_LAPSE (R153): reserved and not posted within 1 ms. -/
def execAllocLapse (l : LaneId) (ring : Fin 4) (slot : Nat) (s : State) : Out :=
  let late (L : Lane) (r : RingSlot) := r.ring == ring.val && r.slot == slot && !r.posted && L.since r.since (ms 1)
  s.on l (fun L => L.up && L.cmdq.slots.any (late L)) (fun L =>
    ((L.onCmdq (fun q => { q with slots := q.slots.filter (fun r => !late L r) })).freeShow ring.val).note Ev.CMDQ_ALLOC_LAPSE)

/-! ### Intake (R154, Table 4.5) -/

/-- Kind of an actuator from CMDQ_ACTKIND: 0 NONE, 1 STEER, 2 CLAMP, 3 LOCK. -/
def Lane.actKind (L : Lane) (act : Nat) : Nat :=
  if act = 0 ∨ 4 < act then 0
  else
    let k := L.get (F.CMDQ_ACTKIND_KIND_1.nth 4 (act - 1))
    if 3 < k then 0 else k

/-- ACT is valid for an opcode (Tables 4.3, 4.9). -/
def Lane.actOk (L : Lane) (r : OpRow) (act : Nat) : Bool :=
  if act = 0 then r.acts.contains 0
  else decide (act ≤ 4) && L.actKind act != 0 && r.acts.contains (L.actKind act)

/-- LANES satisfies the scope (R163). -/
def scopeOk (sc : Scope) (lanes : Nat) : Bool :=
  match sc with
  | .module => lanes == 7
  | .lanes => lanes != 0
  | .single => lanes == 1 || lanes == 2 || lanes == 4

/-- The ring a network command is counted in (R162). -/
def netRing (op : Nat) (urgent : Bool) : Nat :=
  if urgent then 0
  else if 0x10 ≤ op ∧ op ≤ 0x17 then 1
  else if (1 ≤ op ∧ op ≤ 3) ∨ op = 0x70 then 2
  else 3

/-- ADMIT and UADMIT in us, with their limits (CMDQ_ADMIT). -/
def Lane.admitUs (L : Lane) (urgent : Bool) : Nat :=
  let a := min 4000 (max 100 (L.get F.CMDQ_ADMIT_ADMIT))
  if urgent then min a (max (3 * L.period) (L.get F.CMDQ_ADMIT_UADMIT)) else a

/-- ISSUE less module time in us, modulo 2^32 (R158); module time means pair time here (R459). -/
def Lane.issueAhead (L : Lane) (issue : Nat) : Int := toSigned 32 (issue + 2 ^ 32 - L.pairUs)

/-- The index of the admission boundary: the first at or after ISSUE + ADMIT (R158). -/
def Lane.admitK (L : Lane) (issue : Nat) (urgent : Bool) : Nat :=
  let due := ((L.mtN / 200 : Nat) + L.issueAhead issue + L.admitUs urgent).toNat * 200
  (due + L.periodT - 1) / L.periodT

/-- The parameter length is the opcode's. -/
def plenOk (r : OpRow) (plen : Nat) (params : List Byte) : Bool :=
  if r.perN = 0 then plen == r.plen
  else
    let n := fieldLE params 0 1
    decide (1 ≤ n) && decide (n ≤ r.maxN) && plen == r.plen + r.perN * n

/-- The opcodes that a RETIRED part still carries out (R529). -/
def retiredOp (op : Nat) : Bool := [0x01, 0x02, 0x51, 0x53, 0x60, 0x70].contains op

/-- What intake makes of a packet. -/
inductive IntakeEnd where
  | drop                       -- a network duplicate (R164)
  | reject (status : Nat)
  | take (c : TCmd)
  deriving DecidableEq, Repr

/-- The fields of a packet, whatever they hold (Table 4.1). -/
def packetCmd (bs : List Byte) (ring : Nat) (now : Nat) : TCmd :=
  let fl := fieldLE bs 1 1
  { op := fieldLE bs 0 1, tag := BitVec.ofNat 16 (fieldLE bs 2 2), net := bit fl 2, rreq := bit fl 0, urgent := bit fl 1
    act := fieldLE bs 4 1, lanes := fieldLE bs 5 1 % 8, params := (bs.drop 16).take (fieldLE bs 6 2), issue := fieldLE bs 8 4
    due := 0, ring := ring, phase := .held, startAt := now, limited := 0, planned := 0 }

/-- The checks of Table 4.5 in order. `ring` is the ring posted to, `fromNet` whether the packet entered through the network
intake. Step 8 concerns the opcodes that wait for admission (R160; log 15). -/
def Lane.intakeCheck (L : Lane) (bs : List Byte) (ring : Nat) (fromNet : Bool) : IntakeEnd :=
  let c := packetCmd bs ring L.now
  let fl := fieldLE bs 1 1
  let plen := fieldLE bs 6 2
  if 48 < plen ∨ bit fl 3 then .reject St.BAD_PARAM
  else if (crc32c (bs.take 12 ++ c.params)).toNat ≠ fieldLE bs 12 4 then .reject St.BAD_CRC
  else if fromNet && c.net && L.cmdq.dups.any (fun d => d.1 == c.tag && d.2.1.toNat == fieldLE bs 12 4 && decide (L.now ≤ d.2.2 + ms 10))
  then .drop
  else if bits fl 4 4 ≠ 1 then .reject St.BAD_OPCODE
  else
    match opRow c.op with
    | none => .reject St.BAD_OPCODE
    | some r =>
      let ring' := if c.net then netRing c.op c.urgent else ring
      if L.get F.SYS_LC_STATE = 4 && !retiredOp c.op then .reject St.NOT_IN_STATE   -- R529
      else if c.tag = 0 || bits (fieldLE bs 5 1) 3 5 != 0 || !L.actOk r c.act || !scopeOk r.scope c.lanes ||
          (c.urgent && !(ring' == 0 && (c.op == 0x14 || c.op == 0x16 || c.op == 0x17))) || (c.net && !fromNet) ||
          !plenOk r plen c.params then .reject St.BAD_PARAM
      else if (L.cmd c.tag c.net).isSome then .reject St.TAG_BUSY
      else if 256 ≤ L.cmdq.queue.length then .reject St.QUEUE_FULL
      else if 1000 < L.issueAhead c.issue then .reject St.BAD_PARAM
      else
        let k := L.admitK c.issue c.urgent
        if !r.imm && k * L.periodT < L.mtN + 2000 then .reject St.TIMEOUT
        else .take { c with due := k, ring := ring', phase := if r.imm then .admitted else .held }

/-- A packet through intake: refused with its reply and counts, dropped, or taken; a network packet that passes is forwarded to
both peers, and its tag and CRC kept for 10 ms (R164). A lane that the packet does not name executes nothing (R163). DESIGN CHOICE:
a packet taken out of a ring counts as taken in whether or not a check refuses it, so the tag and CRC of a refused one are kept too,
but not those of a packet whose CRC is wrong (log 15). -/
def Lane.takeIn (L : Lane) (bs : List Byte) (ring : Nat) (fromNet : Bool) : Lane :=
  let key := (BitVec.ofNat 16 (fieldLE bs 2 2), BitVec.ofNat 32 (fieldLE bs 12 4), L.now)
  let keep (K : Lane) := if fromNet && bit (fieldLE bs 1 1) 2 then
      K.onCmdq (fun q => { q with dups := key :: q.dups.filter (fun d => decide (L.now ≤ d.2.2 + ms 10)) }) else K
  match L.intakeCheck bs ring fromNet with
  | .drop => (L.incSat F.CMDQ_CNT_DUP).note Ev.CMDQ_NET_DUP
  | .reject st =>
    let L1 := (if st = St.BAD_CRC then L else keep L).incSat F.CMDQ_CNT_REJECT
    let L2 := if st = St.TIMEOUT then (L1.incSat F.CMDQ_CNT_LATE).note Ev.CMDQ_LATE_PKT else L1.note Ev.CMDQ_INTAKE_REJECT
    L2.postReply (packetCmd bs ring L.now) st [] false
  | .take c =>
    let L1 := keep L
    let L2 := if c.net then L1.onCmdq (fun q => { q with fwdOut := q.fwdOut.map (· ++ [bs]) }) else L1
    if bit c.lanes L.strap.idx then (L2.onCmdq (fun q => { q with queue := q.queue ++ [c] })).outst else L2

/-- Address of a submission slot (Table 4.4). -/
def subSlot (ring slot : Nat) : Nat := 0x40048000 + 0x1000 * ring + 64 * slot

/-- The kernel's check of a network packet (R458): the twin-path CRC over the header and the payload the service pair handed on. -/
def twinOk (head bs : List Byte) : Bool :=
  head.length == 24 && decide (fieldBE head 12 2 ≤ bs.length) &&
    fieldBE head 20 4 == (twpCrc (fieldBE head 2 2) (head.take 20) (bs.take (fieldBE head 12 2))).toNat

/-- INTAKE (R154, R164, R458): the oldest posted packet of a ring, its slot freed, or the oldest packet a peer forwarded. A packet of
the service pair with NET set entered through the network intake; `twin` is the twin-path header it placed with it, whose place beside
the slot the spec does not give (log 149), and a packet whose twin-path CRC fails is refused. -/
def execIntake (l : LaneId) (src : IntakeSrc) (s : State) : Out :=
  s.on l Lane.up (fun L =>
    match src with
    | .ring n twin =>
      match L.cmdq.slots.find? (fun r => r.ring == n.val && r.posted) with
      | none => L
      | some r =>
        let bs := L.memBytes (subSlot n.val r.slot) 64
        let L1 := (L.onCmdq (fun q => { q with slots := q.slots.filter (fun x => x != r) })).freeShow n.val
        if r.svc && bit (fieldLE bs 1 1) 2 && !twinOk twin bs then
          ((L1.incSat F.CMDQ_CNT_REJECT).note Ev.CMDQ_INTAKE_REJECT).postReply (packetCmd bs n.val L1.now) St.BAD_CRC [] false
        else L1.takeIn bs n.val r.svc
    | .forwarded =>
      match L.cmdq.fwdIn with
      | [] => L
      | bs :: rest => (L.onCmdq (fun q => { q with fwdIn := rest })).takeIn bs 3 true)

/-! ### The completion ring (R156, R157, R178) -/

/-- CPL_HEAD_WRITE (R178): HEAD moves up to TAIL, never past it. -/
def execCplHeadWrite (l : LaneId) (head : Byte) (s : State) : Out :=
  s.on l Lane.up (fun L =>
    let h := L.get F.CMDQ_CPL_HEAD_HEAD
    let d (x : Nat) := (x + 256 - h) % 256
    if d (L.get F.CMDQ_CPL_TAIL_TAIL) < d head.toNat then L.note Ev.CMDQ_POST_ERR else L.put F.CMDQ_CPL_HEAD_HEAD head.toNat)

/-- REPLY_POST (R157): the first waiting local reply goes into the slot that has freed; a final one frees its tag. -/
def execReplyPost (l : LaneId) (s : State) : Out :=
  s.on l (fun L => L.up && !L.cplFull) (fun L =>
    match L.cmdq.waiting with
    | [] => L
    | (c, st, res, final) :: rest =>
      let L1 := (L.onCmdq (fun q => { q with waiting := rest })).cplPut (replyBytes c st res L.mtUs)
      if final then L1.dropCmd c else L1)

end Sys2Proof.Machine
end

