-- ==== Sys2Proof/Machine/Loop.lean ====
section
/-!
DEFINITION. Machine/Loop.lean: commands of 05_loop_engines.md: the write buffer (R182), deadline and overrun (R191, R192),
reselection (R202), and one meaning per Miokin instruction (R183 to R189, R196, R197). What a boundary does to the engines
stands in LoopBoundary.lean.
-/

namespace Sys2Proof.Machine

/-! ### Issue of an instruction -/

/-- What one execution of an instruction gives: the data memory and activation after it, where it goes on (the next word when
none), and its cycles; or a program fault (R188). -/
inductive LRes where
  | ok (L : Lane) (A : LoopAct) (next : Option Nat) (cyc : Nat)
  | fault (code : Nat)

/-- Cycles from the snapshot to the deadline cycle: T(k+1) - 5 us (R191). -/
def Lane.deadline (L : Lane) : Nat := L.periodT - 1000

/-- LAST, MAX and SAT of an activation that ended or was stopped. -/
def Lane.cycShow (L : Lane) (n : Nat) (A : LoopAct) : Lane :=
  let c := satU 65535 A.cycles
  ((L.put F.LOOP_PRG_CYC_LAST c n A.prog).put F.LOOP_PRG_CYC_MAX (max c (L.get F.LOOP_PRG_CYC_MAX n A.prog)) n A.prog).putB
    F.LOOP_PRG_STAT_SAT A.sat n A.prog

/-- The last program of the boundary has ended or been stopped: LOAD and DONE. -/
def Lane.loopDone (L : Lane) (n cyc : Nat) : Lane :=
  let c := satU 65535 cyc
  (((L.put F.LOOP_LOAD_LAST c n).put F.LOOP_LOAD_MAX (max c (L.get F.LOOP_LOAD_MAX n)) n).put F.LOOP_DONE_DONE 1 n).onEng n
    (fun e => { e with act := none, due := [], hold := false })

/-- Up to `k` entries of the write buffer drained, in order (R182); the first stalled write enters the buffer as it gets room. -/
def Lane.drainBuf (L : Lane) (n : Nat) : Nat → Lane
  | 0 => L
  | k + 1 =>
    match (L.eng n).wbuf with
    | [] => L
    | (a, v) :: rest =>
      ((L.setDm n a v.toInt).onEng n (fun e => { e with
        wbuf := rest ++ e.stalled.take 1, stalled := e.stalled.drop 1 })).drainBuf n k

/-- The next due program starts 4 cycles after cycle `c`; with none left the boundary is done (R191). Table 5.1's registers start
cleared. DESIGN CHOICE: so do Z, N and CLP, whose start R185 leaves open: persistent program state lives in data memory only
(log 135). -/
def Lane.nextProgram (L : Lane) (n c : Nat) : Lane :=
  match (L.eng n).due with
  | [] => L.loopDone n c
  | m :: rest =>
    (L.drainBuf n 4).onEng n (fun e => { e with
      act := some { prog := m, pc := L.get F.LOOP_PRG_CODE_ENTRY n m, startAt := c + 4 }, due := rest, hold := false })

/-- A program fault (R188): the program stopped at `fpc`, its staged outputs discarded, PRG_FAULT, FAULT, FCODE, FPC, and its
ACTION taken; then the next due program (R189). A promotion prunes the engine. -/
def Lane.progFault (L : Lane) (n : Nat) (A : LoopAct) (code fpc : Nat) : Lane :=
  let m := A.prog
  let L1 := (((L.cycShow n A).put F.LOOP_PRG_STAT_FAULT 1 n m).put F.LOOP_PRG_STAT_FCODE code n m).put F.LOOP_PRG_STAT_FPC fpc n m
  let L2 := (L1.onEng n (fun e => { e with act := none })).transient Ev.LOOP_PRG_FAULT n
  if L2.outOfService (.loop n) then L2.loopDone n (A.startAt + A.cycles)
  else (L2.takeAction n m).nextProgram n (A.startAt + A.cycles)

/-- The pc lies in the program's code window (CSIZE 0 means 4,096). -/
def Lane.inCode (L : Lane) (n m pc : Nat) : Bool :=
  let e := L.get F.LOOP_PRG_CODE_ENTRY n m
  let c := L.get F.LOOP_PRG_CODE_CSIZE n m
  decide (e ≤ pc) && decide (pc < e + (if c = 0 then 4096 else c)) && decide (pc < 4096)

/-- The data word lies in the program's data window (DSIZE 0 means 4,096). -/
def Lane.inData (L : Lane) (n m a : Nat) : Bool :=
  let b := L.get F.LOOP_PRG_DWIN_DBASE n m
  let c := L.get F.LOOP_PRG_DWIN_DSIZE n m
  decide (b ≤ a) && decide (a < b + (if c = 0 then 4096 else c)) && decide (a < 4096)

/-- The instruction at a word of program memory. -/
def Lane.fetchM (L : Lane) (n pc : Nat) : Option MIns := decodeM (L.memWord (pmemA n pc))

/-- Engine `n` issues instruction `i` at its pc (R186, R188, R191): a fetch outside the window or an illegal word is a program
fault; a word that is another instruction leaves everything as it is; an instruction that would reach into the deadline cycle
has no effect. -/
def Lane.issueM (L : Lane) (n : Nat) (i : MIns) (f : Lane → LoopAct → LRes) : Lane :=
  match (L.eng n).act with
  | none => L
  | some A =>
    if L.deadline ≤ A.startAt + A.cycles ∨ L.deadline ≤ L.inPeriod then L
    else if !L.inCode n A.prog A.pc then L.progFault n A 2 A.pc
    else
      match L.fetchM n A.pc with
      | none => L.progFault n A 1 A.pc
      | some j =>
        if j ≠ i then L
        else
          match f L A with
          | .fault code => L.progFault n A code A.pc
          | .ok L' A' next cyc =>
            if L.deadline < A.startAt + A.cycles + cyc then L
            else
              let pc := match next with
                | some p => p
                | none => if 1 < A.rep then A.pc else A.pc + 1
              L'.onEng n (fun e => { e with act := some { A' with
                pc := pc, rep := if next.isSome then A'.rep else A'.rep - 1, cycles := A.cycles + cyc } })

/-- A Miokin command: engine `n` of lane `l` issues `i` with effect `f`. -/
def issueOn (l : LaneId) (n : Fin 4) (i : MIns) (f : Lane → LoopAct → LRes) (s : State) : Out :=
  s.on l (fun L => L.up && (L.eng n.val).act.isSome) (fun L => L.issueM n.val i f)

/-! ### Arithmetic (R183 to R185) -/

/-- An accumulator. -/
def LoopAct.accOf (A : LoopAct) (a : BitVec 2) : Int := A.acc.getD a.toNat 0

/-- An index register. -/
def LoopAct.xOf (A : LoopAct) (x : BitVec 3) : Nat := A.x.getD x.toNat 0

/-- An index register set, modulo 4,096. -/
def LoopAct.setX (A : LoopAct) (x : BitVec 3) (v : Int) : LoopAct := { A with x := A.x.set x.toNat (v % 4096).toNat }

/-- Z and N from a result (R185). -/
def LoopAct.flags (A : LoopAct) (v : Int) : LoopAct := { A with z := v == 0, n := decide (v < 0) }

/-- An accumulator written: saturated to Q10.30 with the SAT flag, Z and N from the result (R183, R185). -/
def LoopAct.setAcc (A : LoopAct) (a : BitVec 2) (v : Int) : LoopAct :=
  let r := satS 40 v
  ({ A with acc := A.acc.set a.toNat r, sat := A.sat || r != v }).flags r

/-- The Q1.15 conversion of ACC ÷ `d`: the lower 15 bits dropped, to nearest with ties away from zero, saturated (R184, R196). -/
def qConv (v : Int) (d : Nat := 1) : Int := satS 16 (roundDiv v (32768 * d))

/-- The conversion saturates. -/
def qSat (v : Int) (d : Nat := 1) : Bool := qConv v d != roundDiv v (32768 * d)

/-- The SAT flag after a conversion. -/
def LoopAct.qFlag (A : LoopAct) (v : Int) (d : Nat := 1) : LoopAct := { A with sat := A.sat || qSat v d }

/-- A data word in an accumulator's format (R183). -/
def wide (d : Int) : Int := d * 32768

/-! ### Operands (Table 5.3) -/

/-- The effective address of format D. -/
def LoopAct.ea (A : LoopAct) (e : Ea) : Nat :=
  if e.m = 0 then e.addr.toNat else (A.xOf e.x + e.addr.toNat) % 4096

/-- The index register after a use of format D. -/
def LoopAct.eaStep (A : LoopAct) (e : Ea) : LoopAct :=
  if e.m = 2 then A.setX e.x (A.xOf e.x + 1) else if e.m = 3 then A.setX e.x ((A.xOf e.x : Int) - 1) else A

/-- The index register after a use of format P. -/
def LoopAct.pStep (A : LoopAct) (p : PEa) : LoopAct :=
  if p.m = 1 then A.setX p.x (A.xOf p.x + 1) else if p.m = 2 then A.setX p.x ((A.xOf p.x : Int) - 1) else A

/-- A format D instruction that reads its data word: `f` gets the activation after the index step, and the word. -/
def withMem (n : Nat) (e : Ea) (f : LoopAct → Int → LoopAct) (cyc : Nat := 1) (L : Lane) (A : LoopAct) : LRes :=
  let a := A.ea e
  if L.inData n A.prog a then .ok L (f (A.eaStep e) (L.dm n a)) none cyc else .fault 3

/-- A format P instruction: `f` gets the activation after both index steps, and the product of the two words. -/
def withPair (n : Nat) (p q : PEa) (f : LoopAct → Int → LoopAct) (L : Lane) (A : LoopAct) : LRes :=
  let a := A.xOf p.x
  let b := A.xOf q.x
  if L.inData n A.prog a && L.inData n A.prog b then .ok L (f ((A.pStep p).pStep q) (L.dm n a * L.dm n b)) none 1 else .fault 3

/-- An instruction on registers alone, of one cycle. -/
def regOnly (f : LoopAct → LoopAct) (L : Lane) (A : LoopAct) : LRes := .ok L (f A) none 1

/-! ### Format D -/

/-- LD A, ea: A := mem. -/
def execLd (l : LaneId) (n : Fin 4) (a : BitVec 2) (ea : Ea) (s : State) : Out :=
  issueOn l n (.ld a ea) (withMem n.val ea (fun A m => A.setAcc a (wide m))) s

/-- ST A, ea: mem := q(A). -/
def execSt (l : LaneId) (n : Fin 4) (a : BitVec 2) (ea : Ea) (s : State) : Out :=
  issueOn l n (.st a ea) (fun L A =>
    let w := A.ea ea
    if L.inData n.val A.prog w then
      .ok (L.setDm n.val w (qConv (A.accOf a))) ((A.eaStep ea).qFlag (A.accOf a)) none 1
    else .fault 3) s

/-- ADD A, ea: A := A + mem. -/
def execAdd (l : LaneId) (n : Fin 4) (a : BitVec 2) (ea : Ea) (s : State) : Out :=
  issueOn l n (.add a ea) (withMem n.val ea (fun A m => A.setAcc a (A.accOf a + wide m))) s

/-- SUB A, ea: A := A - mem. -/
def execSub (l : LaneId) (n : Fin 4) (a : BitVec 2) (ea : Ea) (s : State) : Out :=
  issueOn l n (.sub a ea) (withMem n.val ea (fun A m => A.setAcc a (A.accOf a - wide m))) s

/-- LDK ea: K := mem. -/
def execLdk (l : LaneId) (n : Fin 4) (ea : Ea) (s : State) : Out :=
  issueOn l n (.ldk ea) (withMem n.val ea (fun A m => { A with k := m })) s

/-- MPY A, ea: A := K × mem. -/
def execMpy (l : LaneId) (n : Fin 4) (a : BitVec 2) (ea : Ea) (s : State) : Out :=
  issueOn l n (.mpy a ea) (withMem n.val ea (fun A m => A.setAcc a (A.k * m))) s

/-- MAC A, ea: A := A + K × mem. -/
def execMac (l : LaneId) (n : Fin 4) (a : BitVec 2) (ea : Ea) (s : State) : Out :=
  issueOn l n (.mac a ea) (withMem n.val ea (fun A m => A.setAcc a (A.accOf a + A.k * m))) s

/-- MSU A, ea: A := A - K × mem. -/
def execMsu (l : LaneId) (n : Fin 4) (a : BitVec 2) (ea : Ea) (s : State) : Out :=
  issueOn l n (.msu a ea) (withMem n.val ea (fun A m => A.setAcc a (A.accOf a - A.k * m))) s

/-- CMP A, ea: flags from A - mem. -/
def execCmp (l : LaneId) (n : Fin 4) (a : BitVec 2) (ea : Ea) (s : State) : Out :=
  issueOn l n (.cmp a ea) (withMem n.val ea (fun A m => A.flags (A.accOf a - wide m))) s

/-- LIM A, ea: A := max(A, mem[ea]), then min(A, mem[ea + 1]); CLP says whether it clamped. -/
def execLim (l : LaneId) (n : Fin 4) (a : BitVec 2) (ea : Ea) (s : State) : Out :=
  issueOn l n (.lim a ea) (fun L A =>
    let w := A.ea ea
    if L.inData n.val A.prog w && L.inData n.val A.prog (w + 1) then
      let v := A.accOf a
      let r := min (max v (wide (L.dm n.val w))) (wide (L.dm n.val (w + 1)))
      .ok L { (A.eaStep ea).setAcc a r with clp := r != v } none 1
    else .fault 3) s

/-- LDX X, ea: X := mem [11:0]. -/
def execLdx (l : LaneId) (n : Fin 4) (x : BitVec 3) (addr : BitVec 12) (s : State) : Out :=
  issueOn l n (.ldx x addr) (withMem n.val ⟨x, 0, addr⟩ (fun A m => A.setX x m)) s

/-- STX X, ea: mem := X, zero-extended. -/
def execStx (l : LaneId) (n : Fin 4) (x : BitVec 3) (addr : BitVec 12) (s : State) : Out :=
  issueOn l n (.stx x addr) (fun L A =>
    if L.inData n.val A.prog addr.toNat then .ok (L.setDm n.val addr.toNat (A.xOf x)) A none 1 else .fault 3) s

/-- The interpolated value of R187 in Q10.30: y0 + f × (y1 - y0) with f in 1/65,536, the exact sum rounded. -/
def lutValue (y0 y1 f : Int) : Int := roundDiv (y0 * 65536 + (y1 - y0) * f) 2

/-- LUT A, ea (R187): interpolation of the table at ea at q(A), in 4 cycles. -/
def execLut (l : LaneId) (n : Fin 4) (a : BitVec 2) (ea : Ea) (s : State) : Out :=
  issueOn l n (.lut a ea) (fun L A =>
    let w := A.ea ea
    let sg := L.dm n.val w
    if L.inData n.val A.prog w && decide (1 ≤ sg) && decide (sg ≤ 255) then
      let v := A.accOf a
      let num := (qConv v + 32768) * sg
      let i := min (num / 65536) (sg - 1)
      let y := w + 1 + i.toNat
      if L.inData n.val A.prog y && L.inData n.val A.prog (y + 1) then
        .ok L (((A.eaStep ea).qFlag v).setAcc a (lutValue (L.dm n.val y) (L.dm n.val (y + 1)) (num - 65536 * i))) none 4
      else .fault 3
    else .fault 3) s

/-- The quotient of DIV: to the nearest Q10.30 value, ties away from zero; a divisor of 0 gives an end of the range, or 0. -/
def divValue (v m : Int) : Int :=
  if m = 0 then (if 0 < v then 2 ^ 39 - 1 else if v < 0 then -(2 ^ 39) else 0) else roundDiv (v * 32768) m

/-- DIV A, ea: A := A ÷ mem, in 18 cycles; a divisor of 0 sets SAT. -/
def execDivA (l : LaneId) (n : Fin 4) (a : BitVec 2) (ea : Ea) (s : State) : Out :=
  issueOn l n (.div a ea) (withMem n.val ea (fun A m =>
    let B := A.setAcc a (divValue (A.accOf a) m)
    if m = 0 then { B with sat := true } else B) 18) s

/-! ### Format P -/

/-- MPYP A, [XP], [XQ]: A := mem[XP] × mem[XQ]. -/
def execMpyp (l : LaneId) (n : Fin 4) (a : BitVec 2) (p q : PEa) (s : State) : Out :=
  issueOn l n (.mpyp a p q) (withPair n.val p q (fun A m => A.setAcc a m)) s

/-- MACP A, [XP], [XQ]: A := A + mem[XP] × mem[XQ]. -/
def execMacp (l : LaneId) (n : Fin 4) (a : BitVec 2) (p q : PEa) (s : State) : Out :=
  issueOn l n (.macp a p q) (withPair n.val p q (fun A m => A.setAcc a (A.accOf a + m))) s

/-- MSBP A, [XP], [XQ]: A := A - mem[XP] × mem[XQ]. -/
def execMsbp (l : LaneId) (n : Fin 4) (a : BitVec 2) (p q : PEa) (s : State) : Out :=
  issueOn l n (.msbp a p q) (withPair n.val p q (fun A m => A.setAcc a (A.accOf a - m))) s

/-! ### Format R -/

/-- MOV A, B. -/
def execMovA (l : LaneId) (n : Fin 4) (a b : BitVec 2) (s : State) : Out :=
  issueOn l n (.mov a b) (regOnly (fun A => A.setAcc a (A.accOf b))) s

/-- ADDA A, B. -/
def execAdda (l : LaneId) (n : Fin 4) (a b : BitVec 2) (s : State) : Out :=
  issueOn l n (.adda a b) (regOnly (fun A => A.setAcc a (A.accOf a + A.accOf b))) s

/-- SUBA A, B. -/
def execSuba (l : LaneId) (n : Fin 4) (a b : BitVec 2) (s : State) : Out :=
  issueOn l n (.suba a b) (regOnly (fun A => A.setAcc a (A.accOf a - A.accOf b))) s

/-- NEG A. -/
def execNeg (l : LaneId) (n : Fin 4) (a : BitVec 2) (s : State) : Out :=
  issueOn l n (.neg a) (regOnly (fun A => A.setAcc a (-A.accOf a))) s

/-- ABS A. -/
def execAbsA (l : LaneId) (n : Fin 4) (a : BitVec 2) (s : State) : Out :=
  issueOn l n (.abs a) (regOnly (fun A => A.setAcc a ((A.accOf a).natAbs : Int))) s

/-- CLR A. -/
def execClr (l : LaneId) (n : Fin 4) (a : BitVec 2) (s : State) : Out :=
  issueOn l n (.clr a) (regOnly (fun A => A.setAcc a 0)) s

/-- The shifted value of SHA: left exactly, right toward minus infinity. -/
def shaValue (v n : Int) : Int := if 0 ≤ n then v * 2 ^ n.toNat else v / 2 ^ (-n).toNat

/-- SHA A, N. -/
def execSha (l : LaneId) (n : Fin 4) (a : BitVec 2) (k : BitVec 6) (s : State) : Out :=
  issueOn l n (.sha a k) (regOnly (fun A => A.setAcc a (shaValue (A.accOf a) k.toInt))) s

/-- SAT A: limited to the Q1.15 range; CLP says whether it limited, the SAT flag is left alone (R185). -/
def execSat (l : LaneId) (n : Fin 4) (a : BitVec 2) (s : State) : Out :=
  issueOn l n (.sat a) (regOnly (fun A =>
    let v := A.accOf a
    let r := clampI (-(2 ^ 30)) (0x7FFF * 32768) v
    { A.setAcc a r with clp := r != v })) s

/-- MAX A, B. -/
def execMaxA (l : LaneId) (n : Fin 4) (a b : BitVec 2) (s : State) : Out :=
  issueOn l n (.max a b) (regOnly (fun A => A.setAcc a (max (A.accOf a) (A.accOf b)))) s

/-- MIN A, B. -/
def execMinA (l : LaneId) (n : Fin 4) (a b : BitVec 2) (s : State) : Out :=
  issueOn l n (.min a b) (regOnly (fun A => A.setAcc a (min (A.accOf a) (A.accOf b)))) s

/-- MULK A, B: A := K × q(B). -/
def execMulk (l : LaneId) (n : Fin 4) (a b : BitVec 2) (s : State) : Out :=
  issueOn l n (.mulk a b) (regOnly (fun A => (A.qFlag (A.accOf b)).setAcc a (A.k * qConv (A.accOf b)))) s

/-- CMPA A, B: flags from A - B. -/
def execCmpa (l : LaneId) (n : Fin 4) (a b : BitVec 2) (s : State) : Out :=
  issueOn l n (.cmpa a b) (regOnly (fun A => A.flags (A.accOf a - A.accOf b))) s

/-- MOVK A: K := q(A). -/
def execMovk (l : LaneId) (n : Fin 4) (a : BitVec 2) (s : State) : Out :=
  issueOn l n (.movk a) (regOnly (fun A => { A.qFlag (A.accOf a) with k := qConv (A.accOf a) })) s

/-! ### Format I -/

/-- LDI A, IMM16. -/
def execLdi (l : LaneId) (n : Fin 4) (a : BitVec 2) (imm : Half) (s : State) : Out :=
  issueOn l n (.ldi a imm) (regOnly (fun A => A.setAcc a (wide imm.toInt))) s

/-- ADDI A, IMM16. -/
def execAddi (l : LaneId) (n : Fin 4) (a : BitVec 2) (imm : Half) (s : State) : Out :=
  issueOn l n (.addi a imm) (regOnly (fun A => A.setAcc a (A.accOf a + wide imm.toInt))) s

/-- LKI IMM16: K := IMM16. -/
def execLki (l : LaneId) (n : Fin 4) (imm : Half) (s : State) : Out :=
  issueOn l n (.lki imm) (regOnly (fun A => { A with k := imm.toInt })) s

/-- LXI X, IMM12. -/
def execLxi (l : LaneId) (n : Fin 4) (x : BitVec 3) (imm : BitVec 12) (s : State) : Out :=
  issueOn l n (.lxi x imm) (regOnly (fun A => A.setX x imm.toNat)) s

/-- AXI X, IMM12: X := X + IMM12, signed, modulo 4,096. -/
def execAxi (l : LaneId) (n : Fin 4) (x : BitVec 3) (imm : BitVec 12) (s : State) : Out :=
  issueOn l n (.axi x imm) (regOnly (fun A => A.setX x (A.xOf x + imm.toInt))) s

/-- Instructions that REP may not repeat (R188, code 6). -/
def noRep : MIns → Bool
  | .jmp _ _ | .call _ | .ret | .endI | .rep _ | .get _ _ | .out _ _ _ => true
  | _ => false

/-- REP IMM8: the next instruction is executed IMM8 + 1 times; one that may not be repeated is fault 6 at the REP. -/
def execRep (l : LaneId) (n : Fin 4) (imm : BitVec 8) (s : State) : Out :=
  issueOn l n (.rep imm) (fun L A =>
    let bad := L.inCode n.val A.prog (A.pc + 1) && (match L.fetchM n.val (A.pc + 1) with
      | some j => noRep j
      | none => false)
    if bad then .fault 6 else .ok L { A with rep := imm.toNat + 1 } (some (A.pc + 1)) 1) s

/-! ### Format S -/

/-- The snapshot of the running program. -/
def Lane.snapOf (L : Lane) (n m : Nat) : LoopSnap := (L.eng n).snaps.getD m {}

/-- SHARE as OUT uses it: 0 is treated as 1 (R196). -/
def LoopEng.shareOf (e : LoopEng) : Nat := if e.share = 0 then 1 else e.share

/-- The item of Table 5.6. -/
def getItem (e : LoopEng) (p : LoopSnap) (item : Nat) : Int :=
  match item with
  | 0 => p.fb
  | 1 => p.spr
  | 2 => p.spt
  | 3 => p.vrefT
  | 4 => p.vrefF
  | 5 => if e.shareOf = 3 then 0x2AAB else if e.shareOf = 2 then 0x4000 else 0x7FFF
  | _ => p.alt

/-- GET A, ITEM. -/
def execGet (l : LaneId) (n : Fin 4) (a : BitVec 2) (item : BitVec 4) (s : State) : Out :=
  issueOn l n (.get a item) (fun L A =>
    .ok L (A.setAcc a (wide (getItem (L.eng n.val) (L.snapOf n.val A.prog) item.toNat))) none 1) s

/-- OUT A, PORT, S (R196, R197): stages q(A), or q(A ÷ SHARE); a port the program does not own is fault 5. -/
def execOutP (l : LaneId) (n : Fin 4) (a : BitVec 2) (port : BitVec 3) (share : Bool) (s : State) : Out :=
  issueOn l n (.out a port share) (fun L A =>
    if (L.ownedPorts n.val A.prog).contains port.toNat then
      let d := if share then (L.eng n.val).shareOf else 1
      .ok L { A.qFlag (A.accOf a) d with staged := A.staged.set port.toNat (some (qConv (A.accOf a) d)) } none 1
    else .fault 5) s

/-! ### Format J -/

/-- COND holds (Table 5.5). -/
def condHolds (A : LoopAct) (p : LoopSnap) (c : Nat) : Bool :=
  match c with
  | 0 => true
  | 1 => A.z
  | 2 => !A.z
  | 3 => A.n
  | 4 => !A.n
  | 5 => !A.n && !A.z
  | 6 => A.n || A.z
  | 7 => A.sat
  | 8 => !A.sat
  | 9 => p.xfer
  | 10 => !p.xfer
  | 11 => A.clp
  | 12 => p.degr
  | _ => false

/-- JMP COND, TARGET: 2 cycles when taken, 1 when not. -/
def execJmp (l : LaneId) (n : Fin 4) (cond : BitVec 4) (target : BitVec 12) (s : State) : Out :=
  issueOn l n (.jmp cond target) (fun L A =>
    if condHolds A (L.snapOf n.val A.prog) cond.toNat then .ok L A (some target.toNat) 2 else .ok L A (some (A.pc + 1)) 1) s

/-- CALL TARGET: fault 4 with four entries on the return stack. -/
def execCall (l : LaneId) (n : Fin 4) (target : BitVec 12) (s : State) : Out :=
  issueOn l n (.call target) (fun L A =>
    if 4 ≤ A.stack.length then .fault 4
    else .ok L { A with stack := (A.pc + 1) :: A.stack } (some target.toNat) 2) s

/-- RET: fault 4 on an empty return stack. -/
def execRet (l : LaneId) (n : Fin 4) (s : State) : Out :=
  issueOn l n .ret (fun L A =>
    match A.stack with
    | [] => .fault 4
    | p :: rest => .ok L { A with stack := rest } (some p) 2) s

/-- The staged outputs copied to the port shadows. -/
def Lane.commitPorts (L : Lane) (n : Nat) (st : List (Option Int)) : Lane :=
  (List.range 8).foldl (fun K p => match st.getD p none with
    | some v => (K.setShadow n p v).onEng n (fun e => { e with committed := e.committed.set p v })
    | none => K) L

/-- END (R191, R197): the activation ends, its staged outputs go to the port shadows, and the next due program starts. -/
def execEndAct (l : LaneId) (n : Fin 4) (s : State) : Out :=
  s.on l (fun L => L.up && (L.eng n.val).act.isSome) (fun L =>
    let L1 := L.issueM n.val .endI (fun K A => .ok K A none 1)
    match (L.eng n.val).act, (L1.eng n.val).act with
    | some A, some B =>
      if B.cycles = A.cycles + 1 then
        ((((L1.commitPorts n.val B.staged).cycShow n.val B).onEng n.val (fun e => { e with act := none })).nextProgram n.val
          (B.startAt + B.cycles))
      else L1
    | _, _ => L1)

/-- NOP: one cycle. -/
def execNop (l : LaneId) (n : Fin 4) (s : State) : Out := issueOn l n .nop (regOnly (fun A => A)) s

/-! ### Deadline, reselection, write buffer -/

/-- OVERRUN (R192): the program in progress has not reached END by T(k+1) - 5 us; it is stopped, later ones do not run, and the
next cell carries LATE (R93). -/
def execOverrun (l : LaneId) (n : Fin 4) (s : State) : Out :=
  s.on l (fun L => L.up && (L.eng n.val).act.isSome && decide (L.deadline ≤ L.inPeriod)) (fun L =>
    match (L.eng n.val).act with
    | none => L
    | some A =>
      let L1 := (L.cycShow n.val A).loopDone n.val L.deadline
      (L1.onOzl (fun o => { o with shLate := true })).transient Ev.LOOP_OVERRUN n.val)

/-- RESEL (R202): pending until the program's next activation. -/
def execResel (l : LaneId) (n : Fin 4) (m : Fin 8) (s : State) : Out :=
  s.on l Lane.up (fun L => L.put F.LOOP_PRG_SRC_RESEL 1 n.val m.val)

/-- WBUF_WRITE (R182): with RUN set the write enters the 16-entry buffer, or stalls on a full one; with RUN clear it goes to the
data memory. -/
def execWbufWrite (l : LaneId) (n : Fin 4) (addr : BitVec 12) (val : Half) (s : State) : Out :=
  s.on l Lane.up (fun L => L.dmWrite n.val addr.toNat val)

/-- WBUF_DRAIN (R182): one entry, in order, while no activation is in progress and none is awaited. -/
def execWbufDrain (l : LaneId) (n : Fin 4) (s : State) : Out :=
  s.on l (fun L => L.up && (L.eng n.val).act.isNone && !(L.eng n.val).hold) (fun L => L.drainBuf n.val 1)

end Sys2Proof.Machine
end

