-- ==== Sys2Proof/Machine/LoopBoundary.lean ====
section
/-!
DEFINITION. Machine/LoopBoundary.lean: what a vote boundary does to a loop engine: states of its programs (Table 5.9), the
snapshot (Table 5.7), sources and their supervision (R198 to R202, R554), ramp (R203), the programs due (R190, R191).
-/

namespace Sys2Proof.Machine

/-! ### Sources (Table 5.8, R198, R199) -/

/-- A source as the snapshot takes it: raw value, timestamp, rolling counter of a SENT source, validity. -/
structure LoopSrc where
  raw : Int := 0
  t : Word := 0
  rc : Option Nat := none
  valid : Bool := false
  deriving DecidableEq, Repr

/-- A code of a SENT quantity. -/
def sentCode (c : Nat) : Bool := (decide (6 ≤ c) && decide (c < 14)) || (decide (22 ≤ c) && decide (c < 26))

/-- A selector that Table 5.8 lists. -/
def srcSelOk (sel : Nat) : Bool :=
  let k := sel / 32
  let c := sel % 32
  if k = 0 then c == 0
  else if k ≤ 3 then decide (c < 14) || (decide (16 ≤ c) && decide (c < 26))
  else if k ≤ 5 then decide (c < 8) else false

/-- An own position quantity or speed. -/
def Lane.srcOwn (L : Lane) (c : Nat) : LoopSrc :=
  let q := L.quant (if c < 16 then c else c - 16)
  let rc := if sentCode c then some q.rc.toNat else none
  if c < 16 then { raw := q.val, t := L.quantT c, rc := rc, valid := q.valid && !q.fault }
  else { raw := q.spd, t := q.st, rc := rc, valid := q.svalid && !q.fault }

/-- The newest value received from a peer, which counts while the peer is a member. -/
def Lane.srcPeer (L : Lane) (link c : Nat) : LoopSrc :=
  match L.ozl.sensors.getD (32 * link + c) none with
  | some v =>
    { raw := v.value.toInt, t := v.t, rc := if sentCode c then some v.rc.toNat else none
      valid := v.valid && L.isMember (if link = 0 then L.strap.next else L.strap.prev) }
  | none => {}

/-- An estimate of a drive engine (R244): valid in RUN and ASC with CONF at CTH, the engine in service. -/
def Lane.srcDrv (L : Lane) (c : Nat) : LoopSrc :=
  let k := c % 4
  let st := L.drvState k
  { raw := if c < 4 then L.getS F.DRV_POS_E_POS k else L.getS F.DRV_SPD_L_SPD k
    t := BitVec.ofNat 32 (L.get F.DRV_EST_T_TIME k)
    valid := (st == 3 || st == 5) && decide (L.dget F.DRV_CONF_CTH k ≤ L.get F.DRV_SPD_CONF k) && !L.outOfService (.drv k) }

/-- The source a selector names, now. -/
def Lane.srcNow (L : Lane) (n sel : Nat) : LoopSrc :=
  let c := sel % 32
  if !srcSelOk sel then {}
  else
    match sel / 32 with
    | 1 => L.srcOwn c
    | 2 => L.srcPeer 0 c
    | 3 => L.srcPeer 1 c
    | 4 => L.srcDrv c
    | 5 => { raw := L.getS F.LOOP_KVAL_VALUE n c, t := BitVec.ofNat 32 (nthN (L.eng n).kvalAt c), valid := true }
    | _ => {}

/-! ### Supervision (R200) -/

/-- The supervision of an entry carried over one activation; `exc` says that the excitation holds. A run of equal samples ends with
a change or without excitation, and begins anew at a later activation. -/
def LoopTrack.step (k : LoopTrack) (s : LoopSrc) (exc : Bool) (frz : Nat) : LoopTrack :=
  let run := if frz = 0 then 0 else if !exc then 0 else if k.run = 0 then 1 else if k.raw = some s.raw then satU 255 (k.run + 1) else 0
  let stall := match k.t, s.rc with
    | some t, some rc => if t = s.t.toNat then k.stall else if k.rc = some rc then satU 255 (k.stall + 1) else 0
    | _, _ => 0
  { raw := some s.raw, run := run, t := some s.t.toNat, rc := s.rc, stall := if frz = 0 then 0 else stall }

/-- What supervision says of an entry. -/
inductive SrcHealth where
  | healthy | stale | frozen | invalid
  deriving DecidableEq, Repr

/-- Age of a 32-bit timestamp at the snapshot, in ticks. DEDUCED: a peer's clock may run ahead, so a timestamp less than 10 us in the
future is of age 0 (log 31). -/
def Lane.ageOf (L : Lane) (t : Word) : Nat :=
  let d := (L.mtLo.toNat + 2 ^ 32 - t.toNat) % 2 ^ 32
  if 2 ^ 32 - 2000 < d then 0 else d

/-- Classing of an entry with its supervision brought up to date. -/
def Lane.classSrc (L : Lane) (staleLim frz : Nat) (s : LoopSrc) (k : LoopTrack) : SrcHealth :=
  if !s.valid then .invalid
  else if 2000 * (max 1 staleLim) < L.ageOf s.t then .stale
  else if frz ≠ 0 ∧ (frz ≤ k.run ∨ (s.rc.isSome ∧ frz ≤ k.stall)) then .frozen
  else .healthy

/-- Selectors and shifts of a program's list. -/
def selF : List Fld := [F.LOOP_PRG_SRC_SEL_0, F.LOOP_PRG_SRC_SEL_1, F.LOOP_PRG_SRC_SEL_2]
def shiftF : List Fld := [F.LOOP_PRG_SCL_SHIFT_0, F.LOOP_PRG_SCL_SHIFT_1, F.LOOP_PRG_SCL_SHIFT_2]

/-- The entries of a program's list in this snapshot. -/
def Lane.entries (L : Lane) (n m : Nat) : List LoopSrc := selF.map (fun f => L.srcNow n (L.get f n m))

/-- The excitation: the last committed output of the lowest owned port is at least EXC. -/
def Lane.excited (L : Lane) (n m : Nat) : Bool :=
  match L.ownedPorts n m with
  | p :: _ => decide (L.get F.LOOP_PRG_SUP_EXC n m ≤ ((L.eng n).committed.getD p 0).natAbs)
  | [] => L.get F.LOOP_PRG_SUP_EXC n m == 0

/-- What one activation knows of the three entries: their classes and their scaled values. -/
structure LoopView where
  cls : List SrcHealth
  fb : List Int
  deriving DecidableEq, Repr

/-- Entry `i` is healthy. -/
def LoopView.ok (v : LoopView) (i : Nat) : Bool := v.cls.getD i .invalid == .healthy

/-- fb(i). -/
def LoopView.val (v : LoopView) (i : Nat) : Int := v.fb.getD i 0

/-- The first healthy entry from `i` on. -/
def LoopView.first (v : LoopView) (i : Nat) : Option Nat := [0, 1, 2].find? (fun e => decide (i ≤ e) && v.ok e)

/-- Supervision of all entries: tracks kept, HEALTH shown. -/
def Lane.supervise (L : Lane) (n m : Nat) : Lane × LoopView :=
  let es := L.entries n m
  let frz := L.get F.LOOP_PRG_SUP_FRZ n m
  let exc := L.excited n m
  let tr := (es.zip ((L.eng n).track.getD m [])).map (fun p => p.2.step p.1 exc frz)
  let cls := (es.zip tr).map (fun p => L.classSrc (L.get F.LOOP_PRG_SUP_STALE n m) frz p.1 p.2)
  let fb := (es.zip shiftF).map (fun p => scaleSrc p.1.raw (L.get p.2 n m))
  let v : LoopView := { cls := cls, fb := fb }
  ((L.onEng n (fun e => { e with track := e.track.set m tr })).put F.LOOP_PRG_STAT_HEALTH
    (b2n (v.ok 0) + 2 * b2n (v.ok 1) + 4 * b2n (v.ok 2)) n m, v)

/-! ### Selection (R201, R202, R554) -/

/-- The integrator after the back-calculation of R201: `kp` and the integrator as Q1.15 words. -/
def backValue (integ kp df : Int) (ksh : Nat) : Int := satS 16 (integ + qConv (kp * df) * 2 ^ ksh)

/-- The back-calculation of a switch from entry `cur` to `nxt`. -/
def Lane.backCalc (L : Lane) (n m : Nat) (v : LoopView) (nxt cur : Nat) : Lane :=
  if L.is F.LOOP_PRG_BKC_BKEN n m then
    let a := L.get F.LOOP_PRG_BKC_INTG n m
    L.setDm n a (backValue (L.dm n a) (L.dm n (L.get F.LOOP_PRG_BKC_KP n m)) (v.val nxt - v.val cur) (L.get F.LOOP_PRG_BKC_KSH n m))
  else L

/-- The source changes: back-calculation, ACTIVE, SWITCHES. -/
def Lane.switchTo (L : Lane) (n m : Nat) (v : LoopView) (nxt cur : Nat) : Lane :=
  ((L.backCalc n m v nxt cur).put F.LOOP_PRG_SRC_ACTIVE nxt n m).incSat F.LOOP_PRG_STAT_SWITCHES n m

/-- FB_STALE or FB_FROZEN when the selected source fails (R200). -/
def Lane.noteLoss (L : Lane) (n : Nat) (c : SrcHealth) : Lane :=
  match c with
  | .stale => L.note Ev.LOOP_FB_STALE n
  | .frozen => L.note Ev.LOOP_FB_FROZEN n
  | _ => L

/-- Soft start at this activation (R203). -/
def Lane.softStart (L : Lane) (n m : Nat) : Lane := L.onEng n (fun e => { e with startP := e.startP.set m true })

/-- The selection at an activation; the Bool is XFER. A program whose ACTION is taken here leaves RUN. -/
def Lane.select (L : Lane) (n m : Nat) (v : LoopView) : Lane × Bool :=
  let cur := min 2 (L.get F.LOOP_PRG_SRC_ACTIVE n m)
  let st := L.prgState n m
  if nthB (L.eng n).selP m then
    -- R554: a selection, not a switch; a pending RESEL chooses the same entry and is cleared (R202)
    let L1 := (L.onEng n (fun e => { e with selP := e.selP.set m false })).put F.LOOP_PRG_SRC_RESEL 0 n m
    match v.first 0 with
    | some e => (L1.put F.LOOP_PRG_SRC_ACTIVE e n m, false)
    | none => ((L1.put F.LOOP_PRG_SRC_ACTIVE 0 n m).takeAction n m, false)
  else
    let L0 := if st = 1 && !v.ok cur then L.noteLoss n (v.cls.getD cur .invalid) else L
    if L0.is F.LOOP_PRG_SRC_RESEL n m then
      let L1 := (L0.put F.LOOP_PRG_SRC_RESEL 0 n m).note Ev.LOOP_SRC_RESEL n
      match v.first 0 with
      | none => (if st = 1 then L1.takeAction n m else L1, false)
      | some e =>
        if st = 1 then (if e = cur then (L1, false) else (L1.switchTo n m v e cur, true))
        else if L1.is F.LOOP_PRG_STAT_FAULT n m then (L1, false)
        else (((L1.put F.LOOP_PRG_SRC_ACTIVE e n m).setPrgState n m 1).softStart n m, false)
    else if st = 1 && !v.ok cur then
      match v.first (cur + 1) with
      | some e => ((L0.switchTo n m v e cur).note Ev.LOOP_SRC_SWITCH n, true)
      | none => (L0.takeAction n m, false)
    else (L0, false)

/-- SPR one step toward SPT by at most RATE; 0 behaves as 0x7FFF (R203, R204). -/
def rampStep (spr spt : Int) (rate : Nat) : Int :=
  let r : Int := if rate = 0 then 0x7FFF else rate
  spr + clampI (-r) r (spt - spr)

/-- One due program at its activation: supervision, selection, ramp, its snapshot; one that does not run acts on its ports. -/
def Lane.activate (L : Lane) (n m : Nat) : Lane :=
  let r := L.supervise n m
  let st0 := L.prgState n m
  let p := r.1.select n m r.2
  let K := p.1
  let cur := min 2 (K.get F.LOOP_PRG_SRC_ACTIVE n m)
  let K1 := K.put F.LOOP_PRG_RSP_FBV (ofSigned 16 (r.2.val cur)) n m
  let st := K1.prgState n m
  if st = 1 then
    let spt := K1.getS F.LOOP_PRG_SP_SP n m
    let spr := if nthB (K1.eng n).startP m then r.2.val cur
      else rampStep (K1.getS F.LOOP_PRG_RSP_RSP n m) spt (K1.get F.LOOP_PRG_RAMP_RATE n m)
    let b := match K1.ownedPorts n m with
      | q :: _ => some (K1.get F.LOOP_OUT_BRIDGE n q)
      | [] => none
    let vref (vs : List Int) : Int := match b with
      | some k => vs.getD k 0
      | none => 0
    let alt := match [0, 1, 2].find? (fun e => decide (cur < e) && r.2.ok e) with
      | some e => r.2.val e
      | none => r.2.val cur
    let snap : LoopSnap := {
      fb := r.2.val cur, spr := spr, spt := spt, vrefT := vref (K1.eng n).vrefT, vrefF := vref (K1.eng n).vrefF, alt := alt
      xfer := p.2, degr := decide (cur ≠ 0) }
    (K1.putS F.LOOP_PRG_RSP_RSP spr n m).onEng n (fun e => { e with
      startP := e.startP.set m false, snaps := e.snaps.set m snap })
  -- an ACTION taken at this activation has acted already (R205)
  else if st0 = 1 then K1 else K1.portActions n m st

/-! ### Enable and disable (Table 5.9, R190, R195) -/

/-- A descriptor valid under R190. -/
def Lane.descOk (L : Lane) (n m : Nat) : Bool :=
  let mult := max 1 (L.get F.LOOP_PRG_CTL_MULT n m)
  let win (first size : Nat) := first + (if size = 0 then 4096 else size)
  decide (mult * L.period ≤ 400) && decide (L.get F.LOOP_PRG_CTL_PHASE n m < mult) &&
    decide (win (L.get F.LOOP_PRG_CODE_ENTRY n m) (L.get F.LOOP_PRG_CODE_CSIZE n m) ≤ 4096) &&
    decide (win (L.get F.LOOP_PRG_DWIN_DBASE n m) (L.get F.LOOP_PRG_DWIN_DSIZE n m) ≤ 4096) &&
    selF.all (fun f => srcSelOk (L.get f n m))

/-- The vote-cell references a program's ports name: destination and bridge. -/
def Lane.refsNamed (L : Lane) (n m : Nat) : List (Nat × Nat) :=
  ((L.ownedPorts n m).map (fun p => (L.get F.LOOP_OUT_DEST n p, L.get F.LOOP_OUT_BRIDGE n p))).filter (fun r => r.1 == 1 || r.1 == 2)

/-- Another enabled program of the lane names one of its references already (R195). -/
def Lane.routeTaken (L : Lane) (n m : Nat) : Bool :=
  let mine := L.refsNamed n m
  [0, 1, 2, 3].any (fun n' => (List.range 8).any (fun m' =>
    (n' != n || m' != m) && L.prgState n' m' != 0 && (L.refsNamed n' m').any (fun r => mine.contains r)))

/-- A program whose descriptor or routing is invalid is refused, with RUN set or not (Table 5.9, R190, R195). -/
def Lane.refusePrg (L : Lane) (n m : Nat) : Lane :=
  if !L.descOk n m then (L.put F.LOOP_PRG_CTL_EN 0 n m).note Ev.LOOP_CFG_ERR n
  else if L.routeTaken n m then (L.put F.LOOP_PRG_CTL_EN 0 n m).note Ev.LOOP_ROUTE_CONFLICT n
  else L

/-- A program enabled at a boundary, or refused. A lane in a graft after phase 3 resumes the donor's ramp (R204). -/
def Lane.enablePrg (L : Lane) (n m : Nat) : Lane :=
  if !L.descOk n m || L.routeTaken n m then L.refusePrg n m
  else
    let graft := L.own == 0 && decide (3 ≤ L.get F.OZL_GRAFT_PHASE)
    let L1 := ((L.setPrgState n m 1).note Ev.LOOP_PRG_START n).onEng n (fun e => { e with
      selP := e.selP.set m true, startP := e.startP.set m (!graft), track := e.track.set m (List.replicate 3 {}) })
    (L1.put F.LOOP_PRG_STAT_SWITCHES 0 n m).put F.LOOP_PRG_CYC_MAX 0 n m

/-- EN and RUN sampled for one program (R208). -/
def Lane.samplePrg (L : Lane) (n m : Nat) : Lane :=
  let on := L.is F.LOOP_PRG_CTL_EN n m && L.is F.LOOP_ECTL_RUN n
  let st := L.prgState n m
  if !on then
    let L1 := if st = 0 then L else (L.setPrgState n m 0).put F.LOOP_PRG_STAT_FAULT 0 n m
    if L1.is F.LOOP_PRG_CTL_EN n m then L1.refusePrg n m else L1
  else if st = 0 then L.enablePrg n m
  else L

/-- The ports of programs in OFF hold 0 (R197). -/
def Lane.zeroPorts (L : Lane) (n : Nat) : Lane :=
  (List.range 8).foldl (fun K p => if K.prgState n (K.get F.LOOP_OUT_OWNER n p) = 0 then K.setShadow n p 0 else K) L

/-- LOOP_n_IN_j written to data memory (Table 5.7). -/
def Lane.inputs (L : Lane) (n : Nat) : Lane :=
  (List.range 16).foldl (fun K j =>
    let sel := K.get F.LOOP_IN_SEL n j
    if sel / 32 = 0 || !srcSelOk sel then K
    else K.setDm n (K.get F.LOOP_IN_DEST n j) (scaleSrc (L.srcNow n sel).raw (K.get F.LOOP_IN_SHIFT n j))) L

/-- A program is due at the present boundary (R190). -/
def Lane.due (L : Lane) (n m : Nat) : Bool :=
  L.prgState n m != 0 && L.voteK % (max 1 (L.get F.LOOP_PRG_CTL_MULT n m)) == L.get F.LOOP_PRG_CTL_PHASE n m

/-- The snapshot of an engine: SHARE and the voted references in effect. -/
def Lane.latchShare (L : Lane) (n : Nat) : Lane :=
  (L.onEng n (fun e => { e with
    share := L.ozl.shareNow
    vrefT := [0, 1, 2, 3].map (fun b => L.getS F.DRV_TQREF_VOTED b)
    vrefF := [0, 1, 2, 3].map (fun b => L.getS F.DRV_FXREF_VOTED b) })).put F.LOOP_SHARE_SHARE L.ozl.shareNow n

/-- HANDOVER ends as the membership falls to one: the ramp starts from the present shadow (Table 5.9). -/
def Lane.aloneStep (L : Lane) (n : Nat) : Lane :=
  if L.memberCount ≤ 1 then (List.range 8).foldl (fun K m => if K.prgState n m = 4 then K.setPrgState n m 3 else K) L else L

/-- Activations that the deadline left unfinished are stopped (R192), before the boundary that follows it. -/
def Lane.endLate (L : Lane) (n : Nat) : Lane :=
  match (L.eng n).act with
  | some A => ((L.cycShow n A).loopDone n L.deadline).transient Ev.LOOP_OVERRUN n
  | none => L

/-- A vote boundary for engine `n` (Table 5.7): the first due program that runs starts 20 cycles after the snapshot. -/
def Lane.loopBoundary (L : Lane) (n : Nat) : Lane :=
  let L1 := ((L.endLate n).zeroPorts n).aloneStep n
  let L2 := ((List.range 8).foldl (fun K m => K.samplePrg n m) L1).latchShare n
  let due := (List.range 8).filter (fun m => L2.due n m)
  if L2.outOfService (.loop n) then
    let st := if L2.memberCount ≤ 1 then 3 else 4
    let L3 := (List.range 8).foldl (fun K m => if K.prgState n m = 0 then K else K.setPrgState n m st) (L2.keepRun n)
    due.foldl (fun K m => K.portActions n m st) L3
  else
    let L3 := if L2.is F.LOOP_ECTL_RUN n then L2.inputs n else L2
    let L4 := due.foldl (fun K m => K.activate n m) L3
    match due.filter (fun m => L4.prgState n m == 1) with
    | [] => L4
    | m :: rest => L4.onEng n (fun e => { e with
        act := some { prog := m, pc := L4.get F.LOOP_PRG_CODE_ENTRY n m, startAt := 20 }, due := rest, hold := true })

end Sys2Proof.Machine
end

