-- ==== Sys2Proof/Machine/Gate.lean ====
section
/-!
DEFINITION. Machine/Gate.lean: the commands of 07_hedge_gate_drive.md: gate supplies and precharge (R252 to R254), dead time and
interlock (R256 to R261), gate modes and lane stops (R262 to R264), short circuits (R266 to R271), motor supply and chopper
(R272 to R278), power-stage tests (R279 to R283), STO_x and ALIVE_x (R284 to R286).
-/

namespace Sys2Proof.Machine

/-- The Hedge state `gate` changed by a function. -/
def Lane.onGate (L : Lane) (f : GateSt → GateSt) : Lane := { L with gate := f L.gate }

/-! ### LEG transfers (R23, R258 to R261) -/

/-- Interlock events of a bridge in the last 1 ms. -/
def Lane.ilkRecent (L : Lane) (b : Nat) : List Nat := (L.gate.ilkAt.getD b []).filter (fun t => decide (L.now ≤ t + ms 1))

/-- GD_ILK brought up to date: events of each bridge in the last 1 ms, saturating at 31. -/
def Lane.ilkShow (L : Lane) : Lane :=
  [0, 1, 2, 3].foldl (fun K b => K.put (F.GD_ILK_CNT_0.nth 8 b) (satU 31 (L.ilkRecent b).length)) L

/-- One INTERLOCK of bridge `b`: recorded and counted; the seventeenth within 1 ms latches the bridge into STO (R260, R261). -/
def Lane.interlock (L : Lane) (b : Nat) : Lane :=
  let L1 := L.note Ev.GD_INTERLOCK
  let ts := L.now :: L1.ilkRecent b
  let L2 := (L1.onGate (fun g => { g with ilkAt := g.ilkAt.set b ts })).ilkShow
  if 17 ≤ ts.length && !L2.fbit F.GD_STO_ILK b then
    ((L2.putBit F.GD_STO_ILK b true).note Ev.GD_ILK_STO).gates
  else L2

/-- Both switches of a leg turned off and their off-time restarted (R260). -/
def GateSt.bothOff (g : GateSt) (now leg : Nat) : GateSt :=
  let g1 := (g.turnOff now (2 * leg)).turnOff now (2 * leg + 1)
  { g1 with offAt := (g1.offAt.set (2 * leg) now).set (2 * leg + 1) now }

/-- One leg code of a LEG transfer: kept; 0b11 is kept as OFF, interlocks, and in FOLLOW holds both switches off (R258, R260,
R262). -/
def Lane.takeLeg (L : Lane) (leg : Nat) (code : BitVec 2) : Lane :=
  let b := leg / 3
  if code = 3 then
    let L1 := L.onGate (fun g => { g with kept := g.kept.set leg 0 })
    let L2 := if L.modeOf b = 0 then L1.onGate (fun g => g.bothOff L.now leg) else L1
    L2.interlock b
  else L.onGate (fun g => { g with kept := g.kept.set leg code })

/-- The twelve leg codes of beats 0 and 1: six bits per bridge, two per leg, U lowest (R258's worked example; beat 1 alike for
bridges 2 and 3). -/
def legCodes (beat0 beat1 : Half) : List (BitVec 2) :=
  let f (x : Half) := [0, 1, 2, 3, 4, 5].map (fun i => BitVec.ofNat 2 (x.toNat >>> (2 * i)))
  f beat0 ++ f beat1

/-- All legs of a transfer taken in order. -/
def Lane.takeLegs (L : Lane) : Nat → List (BitVec 2) → Lane
  | _, [] => L
  | i, c :: t => (L.takeLeg i c).takeLegs (i + 1) t

/-- A LEG that commands a switch on for a bridge in OFF_CMD is ignored: LEG_IGNORED at most once per vote period (R263). -/
def Lane.legIgnored (L : Lane) (codes : List (BitVec 2)) : Lane :=
  let hit := [0, 1, 2, 3].any (fun b => L.modeOf b == 1 && ((codes.drop (3 * b)).take 3).any (fun c => c == 1 || c == 2))
  if hit && L.gate.ignoredK != some L.voteK then
    (L.note Ev.GD_LEG_IGNORED).onGate (fun g => { g with ignoredK := some L.voteK })
  else L

/-- A valid LEG at the Hedge: all twelve legs applied in one instant (R258); the LEG clock of R23 restarts. -/
def Lane.legApply (L : Lane) (codes : List (BitVec 2)) : Lane :=
  let gap := L.now - L.link.lastLeg
  let L1 := { L with link := { L.link with
    lastLeg := L.now, legsSince := if us 2 ≤ gap then L.now else L.link.legsSince } }
  ((L1.takeLegs 0 codes).legIgnored codes).gates

/-- LEG (R20, R22, R258): a transfer that fails its CRC is discarded and recorded; one in flight when a lane reset starts is gone
(R44). -/
def execLeg (l : LaneId) (hdr beat0 beat1 crc : Half) (s : State) : Out :=
  s.on l Lane.linkOn (fun L =>
    if xferOk 1 [beat0, beat1] hdr crc then L.legApply (legCodes beat0 beat1) else L.transient Ev.HLNK_CRC_ERR)

/-- LEG_TIMEOUT (R23): no valid LEG for 2 us. Lane stop LEGTO, and the lane held out of the vote until it clears. -/
def execLegTimeout (l : LaneId) (s : State) : Out :=
  s.on l (fun L => L.hedgeUp && L.since L.link.lastLeg (us 2) && !L.is F.GD_LSTOP_LEGTO) (fun L =>
    let L1 := (L.note Ev.HLNK_LEG_TIMEOUT).laneStop F.GD_LSTOP_LEGTO
    ({ L1 with sdl := { L1.sdl with held := true } }).putB F.SDL_VSTAT_NOVOTE true)

/-- DEAD_TIME (R259): the turn-ons whose complement has now been off for t_DT are applied. -/
def execDeadTime (l : LaneId) (s : State) : Out := s.on l Lane.hedgeUp Lane.gates

/-! ### Gate supplies (R252 to R254, R263) -/

/-- The falling crossing of supply `i` (0 to 11 high sides, 12 to 15 VGL, 16 charge pump) or its release, as GD_UVLO shows it. -/
def Lane.lockSupply (L : Lane) (i : Nat) (on : Bool) : Lane :=
  let L1 := if i < 12 then L.putBit F.GD_UVLO_HS i on
    else if i < 16 then L.putBit F.GD_UVLO_LS (i - 12) on
    else L.putB F.GD_UVLO_CP on
  (L1.onGate (fun g => { g with uvFell := putBits g.uvFell i 1 (b2n on) })).gates

/-- UVLO_HS (R253): the high-side supply of leg 3b + l locked out; recorded once the bridge's GRDY is 1. -/
def execUvloHs (l : LaneId) (leg : Fin 12) (s : State) : Out :=
  s.on l Lane.hedgeUp (fun L =>
    let b := leg.val / 3
    let L1 := L.lockSupply leg.val true
    if L.fbit F.GD_GMODE_GRDY b then L1.transient Ev.GD_UVLO_HS 0 b else L1)

/-- UVLO_LS (R253): VGL of bridge `b` locked out, its every gate off. -/
def execUvloLs (l : LaneId) (b : Fin 4) (s : State) : Out :=
  s.on l Lane.hedgeUp (fun L =>
    let L1 := L.lockSupply (12 + b.val) true
    if L.fbit F.GD_GMODE_GRDY b.val then L1.transient Ev.GD_UVLO_LS 0 b.val else L1)

/-- UVLO_CP (R253): the charge pump locked out, every high side of the lane off. -/
def execUvloCp (l : LaneId) (s : State) : Out :=
  s.on l Lane.hedgeUp (fun L =>
    let L1 := L.lockSupply 16 true
    if L.get F.GD_GMODE_GRDY != 0 then L1.note Ev.GD_UVLO_CP else L1)

/-- UVLO_RELEASE (R253): a supply (0 to 11 high sides, 12 to 15 VGL, 16 charge pump) above its rising threshold for 50 us. -/
def execUvloRelease (l : LaneId) (supply : Fin 17) (s : State) : Out :=
  s.on l Lane.hedgeUp (fun L => L.lockSupply supply.val false)

/-- The supplies that precharge waits for are released: the bridge's three high sides and its VGL (R254). -/
def Lane.suppliesUp (L : Lane) (b : Nat) : Bool :=
  bits (L.get F.GD_UVLO_HS) (3 * b) 3 == 0 && !L.fbit F.GD_UVLO_LS b

/-- GRDY (R254): precharge ends. -/
def execGrdy (l : LaneId) (b : Fin 4) (s : State) : Out :=
  s.on l (fun L => L.hedgeUp && nthB L.gate.precharge b.val && L.suppliesUp b.val) (fun L =>
    ((L.putBit F.GD_GMODE_GRDY b.val true).onGate (fun g => { g with precharge := g.precharge.set b.val false })).gates)

/-- OFF_CMD (R263): 101 us after voted ENA and ASC fell to 0; GRDY clears. -/
def execOffCmd (l : LaneId) (b : Fin 4) (s : State) : Out :=
  s.on l (fun L => L.hedgeUp && !L.fbit F.GD_VCMD_ENA b.val && !L.fbit F.GD_VCMD_ASC b.val &&
      !nthB L.gate.offCmd b.val && L.since (nthN L.gate.bothOffAt b.val) (us 101)) (fun L =>
    ((L.onGate (fun g => { g with offCmd := g.offCmd.set b.val true, precharge := g.precharge.set b.val false })).putBit
      F.GD_GMODE_GRDY b.val false).gates)

/-- CHARGE_PUMP_STOP (R252): 10 ms after the last voted ENA or ASC of the lane cleared. -/
def execChargePumpStop (l : LaneId) (s : State) : Out :=
  s.on l (fun L => L.hedgeUp && L.gate.cpRun && L.get F.GD_VCMD_ENA == 0 && L.get F.GD_VCMD_ASC == 0 &&
      L.since L.gate.cpIdleAt (ms 10)) (fun L => L.onGate (fun g => { g with cpRun := false }))

/-- What the Hedge does at a boundary with the voted ENA and ASC that take effect there (R254, R263, R252). -/
def Lane.vcmdBoundary (L : Lane) : Lane :=
  let ena := L.get F.GD_VCMD_ENA_P
  let asc := L.get F.GD_VCMD_ASC_P
  let ena0 := L.get F.GD_VCMD_ENA
  let asc0 := L.get F.GD_VCMD_ASC
  let L1 := (L.put F.GD_VCMD_ENA ena).put F.GD_VCMD_ASC asc
  let step (K : Lane) (b : Nat) : Lane :=
    let now1 := bit ena b || bit asc b
    let was := bit ena0 b || bit asc0 b
    let K1 := if now1 then K.onGate (fun g => { g with offCmd := g.offCmd.set b false })
      else if was then K.onGate (fun g => { g with bothOffAt := g.bothOffAt.set b K.now }) else K
    if bit ena b && !bit ena0 b && !K1.fbit F.GD_GMODE_GRDY b then
      K1.onGate (fun g => { g with precharge := g.precharge.set b true })
    else K1
  let L2 := [0, 1, 2, 3].foldl step L1
  let L3 := if ena ||| asc != 0 then L2.onGate (fun g => { g with cpRun := true })
    else if ena0 ||| asc0 != 0 then L2.onGate (fun g => { g with cpIdleAt := L2.now }) else L2
  L3.gates

/-! ### Dead-time fuses (R257) -/

/-- DT_FUSE (R257): a keyed write of GD_DTFUSE. Life-cycle state 1 is COMMISSIONING in SYS_LC. Refused writes are ignored and
recorded as DT_LOCKED; a write without the key does nothing. -/
def execDtFuse (l : LaneId) (m : Master) (val : Word) (vbatMv : Nat) (s : State) : Out :=
  s.on l (fun L => L.hedgeUp && bits val.toNat 0 16 == 0x7D0F) (fun L =>
    let b := bits val.toNat 16 2
    let code := bits val.toNat 18 2
    if m == .trioM && L.get F.SYS_LC_STATE == 1 && !L.fbit F.GD_VCMD_ENA b && !L.fbit F.GD_VCMD_ASC b &&
        decide (8000 ≤ vbatMv) && !L.fbit F.GD_DT_FUSED b && !bit L.gate.dtFailed.toNat b && L.gate.dtFuse.isNone then
      L.onGate (fun g => { g with dtFuse := some (b, code), dtAt := L.now })
    else L.note Ev.GD_DT_LOCKED)

/-- DT_FUSE_DONE (R257): programming ends after 2 ms; a read-back that differs leaves 1,200 ns for good. -/
def execDtFuseDone (l : LaneId) (readback : BitVec 2) (s : State) : Out :=
  s.on l (fun L => L.hedgeUp && L.gate.dtFuse.isSome && L.since L.gate.dtAt (ms 2)) (fun L =>
    match L.gate.dtFuse with
    | none => L
    | some (b, code) =>
      let L1 := L.onGate (fun g => { g with dtFuse := none })
      if readback.toNat = code then
        ((L1.put (F.GD_DT_DT_0.nth 2 b) code).putBit F.GD_DT_FUSED b true).note Ev.GD_DT_FUSED
      else
        (L1.onGate (fun g => { g with dtFailed := BitVec.ofNat 4 (putBits g.dtFailed.toNat b 1 1) })).note Ev.GD_DT_FUSE_ERR)

/-- ILK_RELEASE (R261): a write of 1 to GD_STO.ILK releases only with the bridge's voted ENA and ASC 0 and its count 0. -/
def execIlkRelease (l : LaneId) (mask : BitVec 4) (s : State) : Out :=
  s.on l Lane.hedgeUp (fun L =>
    let rel (K : Lane) (b : Nat) : Lane :=
      if bit mask.toNat b && !K.fbit F.GD_VCMD_ENA b && !K.fbit F.GD_VCMD_ASC b && (K.ilkRecent b).isEmpty then
        K.putBit F.GD_STO_ILK b false
      else K
    ([0, 1, 2, 3].foldl rel L.ilkShow).gates)

/-! ### Short circuits (R266 to R271) -/

/-- A detector of switch `s` can trip: enabled, the switch commanded on, and its filter passed since the leg's last gate command
edge: 40 ns for the sense cell, 500 ns of blanking and 100 ns for the drain-source comparator (R266, R267). -/
def Lane.canTrip (L : Lane) (s : Nat) (drainSource : Bool) : Bool :=
  nthB L.gate.on s &&
  (if drainSource then L.fbit F.PROT_SCCFG_DSEN (s / 6) && L.since (nthN L.gate.edgeAt (s / 2)) 120
   else L.fbit F.PROT_SCCFG_SCEN (s / 6) && L.since (nthN L.gate.edgeAt (s / 2)) 8)

/-- SC_DETECT (R268, R270): both switches of the leg off in every gate mode, PROT_SCSTAT set; a second leg of the bridge within
1 us latches it with SC_MULTI. -/
def execScDetect (l : LaneId) (sw : Fin 24) (drainSource : Bool) (s : State) : Out :=
  s.on l (fun L => L.hedgeUp && L.canTrip sw.val drainSource) (fun L =>
    let leg := sw.val / 2
    let b := sw.val / 6
    let L1 := (L.putBit F.PROT_SCSTAT_TRIP sw.val true).onGate (fun g => { g with
      scOff := g.scOff.set leg true, tripAt := g.tripAt.set b (some L.now) })
    match L.gate.scFirst.getD b none with
    | some (leg0, t0) =>
      if leg0 ≠ leg ∧ L.now ≤ t0 + us 1 then
        ((L1.onGate (fun g => { g with scFirst := g.scFirst.set b none })).latch b 1).note Ev.PROT_SC_MULTI
      else L1.gates
    | none => (L1.onGate (fun g => { g with scFirst := g.scFirst.set b (some (leg, L.now)) })).gates)

/-- SC_TRIP (R269): 1 us after a lone trip the bridge enters HOLD. -/
def execScTrip (l : LaneId) (b : Fin 4) (s : State) : Out :=
  s.on l (fun L => L.hedgeUp && (match L.gate.scFirst.getD b.val none with
      | some (_, t0) => L.since t0 (us 1)
      | none => false)) (fun L =>
    let h := L.get F.PROT_SCCFG_HOLD
    let L1 := L.onGate (fun g => { g with
      scFirst := g.scFirst.set b.val none
      holdEnd := g.holdEnd.set b.val (some (L.now + us (10 * (if h = 0 then 1 else h)))) })
    (L1.gates).transient Ev.PROT_SC_TRIP 0 b.val)

/-- A bridge's short-circuit hold over: its legs follow again. -/
def Lane.scRelease (L : Lane) (b : Nat) : Lane :=
  L.onGate (fun g => { g with
    holdEnd := g.holdEnd.set b none
    scOff := ((g.scOff.set (3 * b) false).set (3 * b + 1) false).set (3 * b + 2) false })

/-- SC_HOLD_END (R269): HOLD × 10 us after entry. -/
def execScHoldEnd (l : LaneId) (b : Fin 4) (s : State) : Out :=
  s.on l (fun L => L.hedgeUp && (match L.gate.holdEnd.getD b.val none with
      | some t => decide (t ≤ L.now)
      | none => false)) (fun L => (L.scRelease b.val).gates)

/-- LATCH_RELEASE (R271): a latched bridge is released only with voted ENA and ASC 0 and a diagnostic passed since. -/
def execLatchRelease (l : LaneId) (mask : BitVec 4) (s : State) : Out :=
  s.on l Lane.hedgeUp (fun L =>
    let rel (K : Lane) (b : Nat) : Lane :=
      if bit mask.toNat b && K.fbit F.PROT_LATCH_LATCH b then
        if !K.fbit F.GD_VCMD_ENA b && !K.fbit F.GD_VCMD_ASC b && bit K.gate.odPass.toNat b then (K.scRelease b).unlatch b
        else K.note Ev.PROT_LATCH_REFUSED
      else K
    [0, 1, 2, 3].foldl rel L)

/-! ### Lane stops (R264) -/

/-- LSTOP_CLR (R264): every CLR-cleared cause whose condition has ended: LEGTO after 10 us of LEG transfers without a gap of
2 us, CLKMON after 1 ms of a good link clock, REMOVED. With LEGTO and CLKMON both clear the Hedge no longer holds the lane out
of the vote (R23, R28). -/
def execLstopClr (l : LaneId) (s : State) : Out :=
  s.on l Lane.hedgeUp (fun L =>
    let legOk := L.now < L.link.lastLeg + us 2 && L.since L.link.legsSince (us 10)
    let L1 := if legOk then L.put F.GD_LSTOP_LEGTO 0 else L
    let L2 := if L.since L.link.clkBadAt (ms 1) then L1.put F.GD_LSTOP_CLKMON 0 else L1
    let L3 := L2.put F.GD_LSTOP_REMOVED 0
    let held := L3.is F.GD_LSTOP_LEGTO || L3.is F.GD_LSTOP_CLKMON
    let L4 := ({ L3 with sdl := { L3.sdl with held := held } }).putB F.SDL_VSTAT_NOVOTE (held || L3.is F.TRIO_MODE_NOVOTE)
    L4.gates)

/-! ### Motor supply and chopper (R272 to R278) -/

/-- BRK_x switched; its turn-on aborts a switch-off path test of it (R283). The on-time of PROT_BRKCNT is kept in ticks (ONMS in
ms, saturating). -/
def Lane.setBrk (L : Lane) (on : Bool) : Lane :=
  if on then
    if L.is F.PROT_VM_BRK_ON then L
    else (L.put F.PROT_VM_BRK_ON 1).onGate (fun g => { g with
      brkAt := L.now, sopRun := if g.sopRun = some 24 then none else g.sopRun })
  else if L.is F.PROT_VM_BRK_ON then
    let t := L.gate.brkTicks + (L.now - L.gate.brkAt)
    ((L.put F.PROT_VM_BRK_ON 0).onGate (fun g => { g with brkTicks := t, brkOffAt := L.now })).put F.PROT_BRKCNT_ONMS (satU 0xFFFFFFFF (t / ms 1))
  else L

/-- CHOP_FAULT as R274 reads it: set, or no chopper fitted. -/
def Lane.chopBad (L : Lane) : Bool := L.is F.PROT_VM_CHOP_FAULT || !L.is F.PROT_BRK_EN

/-- OV1 (R273): OVR1 set, OV1 recorded, BRK_x on where a chopper is fitted. -/
def execOv1 (l : LaneId) (s : State) : Out :=
  s.on l (fun L => L.hedgeUp && !L.is F.PROT_VM_OVR1) (fun L =>
    let L1 := (L.put F.PROT_VM_OVR1 1).note Ev.PROT_OV1
    if L1.is F.PROT_BRK_EN then L1.setBrk true else L1)

/-- VM_BELOW_OV1 (R272): VM_x fell through OV1 less its hysteresis; OVR1 and OVR2 clear. -/
def execVmBelowOv1 (l : LaneId) (s : State) : Out :=
  s.on l Lane.hedgeUp (fun L => (L.put F.PROT_VM_OVR1 0).put F.PROT_VM_OVR2 0)

/-- BRK_OFF (R273): below OV1 - 1 V for 10 us; a chopper test keeps BRK_x on for its 3 us (R281). -/
def execBrkOff (l : LaneId) (s : State) : Out :=
  s.on l (fun L => L.hedgeUp && !L.is F.PROT_VM_OVR1 && !L.gate.chopRun) (fun L => L.setBrk false)

/-- CHOP_FAULT (R274): the chopper current missing while BRK_x is on. -/
def execChopFault (l : LaneId) (s : State) : Out :=
  s.on l (fun L => L.hedgeUp && L.is F.PROT_VM_BRK_ON) (fun L =>
    (L.put F.PROT_VM_CHOP_FAULT 1).note Ev.PROT_CHOP_FAULT)

/-- OV2 (R276): above OV2; recorded where the chopper is healthy. -/
def execOv2 (l : LaneId) (s : State) : Out :=
  s.on l Lane.hedgeUp (fun L =>
    let L1 := L.put F.PROT_VM_OVR2 1
    if L.chopBad then L1 else L1.note Ev.PROT_OV2)

/-! ### Off-state diagnostics and the chopper test (R279 to R281) -/

/-- The voted ENA and ASC of a bridge as R280 takes them: 0 while the lane is no member and has not reached graft phase 5. -/
def Lane.odVoted (L : Lane) (b : Nat) : Bool :=
  (L.isMember L.strap || decide (5 ≤ L.get F.OZL_GRAFT_PHASE)) && (L.fbit F.GD_VCMD_ENA b || L.fbit F.GD_VCMD_ASC b)

/-- A bridge is reported not run at its start (R280). -/
def Lane.odNotRun (L : Lane) (b vmMv : Nat) : Bool :=
  L.odVoted b || decide (vmMv < 6000) || L.fbit F.GD_STO_HSF b || L.thermStop b

/-- A bridge's result written (R279, R280): bits 0 to 2 latch it and record ODIAG_FAIL; a complete clean run is a pass, which
releases a latch of cause ODIAG (R271). -/
def Lane.odResult (L : Lane) (b res : Nat) : Lane :=
  let L1 := L.put (F.PROT_ODIAG_RES_0.nth 4 b) res
  if res % 8 ≠ 0 then (L1.latch b 4).note Ev.PROT_ODIAG_FAIL
  else if res = 0 then
    let L2 := { L1 with
      gate := { L1.gate with odPass := BitVec.ofNat 4 (putBits L1.gate.odPass.toNat b 1 1) }
      ozl := { L1.ozl with odiagDone := BitVec.ofNat 4 (putBits L1.ozl.odiagDone.toNat b 1 1) } }
    if L2.fbit F.PROT_LATCH_LATCH b && L2.get (F.PROT_LATCH_CAUSE_0.nth 4 b) == 4 then L2.unlatch b else L2
  else L1

/-- The chopper test as the last part of a request, or the request's end (R280, R281). -/
def Lane.odChopOrEnd (L : Lane) (vmMv : Nat) : Lane :=
  if L.gate.odChop then
    if 12000 ≤ vmMv ∧ L.is F.PROT_BRK_EN then
      (L.onGate (fun g => { g with odRun := none, odChop := false, chopRun := true, odAt := L.now })).setBrk true
    else ((L.onGate (fun g => { g with odRun := none, odChop := false })).put F.PROT_ODIAG_CHOPRES 0).put F.PROT_ODIAG_BUSY 0
  else (L.onGate (fun g => { g with odRun := none })).put F.PROT_ODIAG_BUSY 0

/-- The next bridge of the request started, or the chopper test, or the end. -/
def Lane.odNext (L : Lane) (vmMv : Nat) : List Nat → Lane
  | [] => (L.onGate (fun g => { g with odQueue := [] })).odChopOrEnd vmMv
  | b :: rest =>
    if L.odNotRun b vmMv then (L.odResult b 8).odNext vmMv rest
    else L.onGate (fun g => { g with odQueue := rest, odRun := some (b, 0, 0), odAt := L.now })

/-- The bridges of a mask, in bridge order. -/
def bridgesOf (m : Nat) : List Nat := [0, 1, 2, 3].filter (fun b => bit m b)

/-- A diagnostic request taken: ignored while one runs (R280, the PROT_ODIAG table). -/
def Lane.odRequest (L : Lane) (mask vmMv : Nat) (chop : Bool) : Lane :=
  if L.is F.PROT_ODIAG_BUSY then L
  else ((L.put F.PROT_ODIAG_BUSY 1).onGate (fun g => { g with odChop := chop, odVm := vmMv })).odNext vmMv (bridgesOf mask)

/-- ODIAG_START (R280). -/
def execOdiagStart (l : LaneId) (bridges : BitVec 4) (vmMv : Nat) (s : State) : Out :=
  s.on l (fun L => L.hedgeUp && bridges != 0) (fun L => L.odRequest bridges.toNat vmMv false)

/-- A write of PROT_ODIAG with both fields: the bridges, then the chopper test when it is requested too (R280). -/
def execOdiagWrite (l : LaneId) (bridges : BitVec 4) (chop : Bool) (vmMv : Nat) (s : State) : Out :=
  s.on l (fun L => L.hedgeUp && (bridges != 0 || chop)) (fun L => L.odRequest bridges.toNat vmMv chop)

/-- Duration of a step of Table 7.10. -/
def odTicks : Nat → Nat
  | 0 => us 100
  | 4 => us 500
  | _ => ms 1

/-- ODIAG_STEP_END (R279, Table 7.10): the running step ends, its duration over, with what it found. -/
def execOdiagStepEnd (l : LaneId) (found : Bool) (vmMv : Nat) (s : State) : Out :=
  s.on l (fun L => L.hedgeUp && (match L.gate.odRun with
      | some (_, step, _) => L.since L.gate.odAt (odTicks step)
      | none => false)) (fun L0 =>
    let L := L0.onGate (fun g => { g with odVm := vmMv, odAt := L0.now })
    match L.gate.odRun with
    | none => L
    | some (b, step, acc) =>
      if step = 0 then
        if found then (L.odResult b 8).odNext vmMv L.gate.odQueue
        else L.onGate (fun g => { g with odRun := some (b, 1, acc) })
      else
        let acc1 := if found && decide (step ≤ 3) then acc ||| 2 ^ (step - 1) else acc
        if step < 4 then L.onGate (fun g => { g with odRun := some (b, step + 1, acc1) })
        else (L.odResult b acc1).odNext vmMv L.gate.odQueue)

/-- The bridge under test stops because demand rose or ASC_H is due for it: it reports not run with what it found (R280). The next
bridges are judged by VM_x as last measured. -/
def Lane.odAbort (L : Lane) : Lane :=
  match L.gate.odRun with
  | none => L
  | some (b, _, acc) =>
    if L.odVoted b || L.fbit F.GD_GMODE_HASC b then (L.odResult b (acc ||| 8)).odNext L.gate.odVm L.gate.odQueue else L

/-- CHOP_TEST (R281): a chopper test alone. -/
def execChopTest (l : LaneId) (vmMv : Nat) (s : State) : Out :=
  s.on l Lane.hedgeUp (fun L => L.odRequest 0 vmMv true)

/-- The outcome of a chopper test in the registers (R281). -/
def Lane.chopResult (L : Lane) (pass : Bool) : Lane :=
  if pass then (((L.put F.PROT_ODIAG_CHOPRES 1).put F.PROT_VM_CHOP_FAULT 0).put F.PROT_VM_CHOP_STUCK 0).note Ev.PROT_CHOP_PASS
  else ((L.put F.PROT_ODIAG_CHOPRES 2).put F.PROT_VM_CHOP_FAULT 1).note Ev.PROT_CHOP_FAULT

/-- CHOP_TEST_END (R281): after 3 us. -/
def execChopTestEnd (l : LaneId) (pass : Bool) (s : State) : Out :=
  s.on l (fun L => L.hedgeUp && L.gate.chopRun && L.since L.gate.odAt (us 3)) (fun L =>
    let L1 := ((L.onGate (fun g => { g with chopRun := false })).put F.PROT_ODIAG_BUSY 0).setBrk (L.is F.PROT_VM_OVR1)
    L1.chopResult pass)

/-! ### Hardware active short circuit, OV3, under-voltage (R276 to R278) -/

/-- The regenerating bridges put into ASC_H: HASC set, HW_ASC recorded (R276); a diagnostic of such a bridge ends (R280). -/
def Lane.enterAscH (L : Lane) (mask : Nat) : Lane :=
  if mask = 0 then L else ((L.put F.GD_GMODE_HASC (L.get F.GD_GMODE_HASC ||| mask)).note Ev.PROT_HW_ASC).gates.odAbort

/-- HW_ASC (R276): above OV2 for 2 us with CHOP_FAULT set. -/
def execHwAsc (l : LaneId) (s : State) : Out :=
  s.on l (fun L => L.hedgeUp && L.chopBad) (fun L =>
    ((L.put F.PROT_VM_OVR2 1).onGate (fun g => { g with hwAsc := true })).enterAscH (L.get F.PROT_REG_REGEN))

/-- REGENERATION_CHANGE (R275, R276): while VM_x stays above OV2 with CHOP_FAULT set, a bridge that becomes regenerating follows. -/
def execRegenerationChange (l : LaneId) (b : Fin 4) (regen : Bool) (s : State) : Out :=
  s.on l Lane.hedgeUp (fun L =>
    let L1 := L.putBit F.PROT_REG_REGEN b.val regen
    if regen && L.gate.hwAsc && L.is F.PROT_VM_OVR2 && L.chopBad && !L.fbit F.GD_GMODE_HASC b.val then L1.enterAscH (2 ^ b.val)
    else L1)

/-- HW_ASC_END (R276): below OV1 - 1 V for 1 ms, for every bridge together. -/
def execHwAscEnd (l : LaneId) (s : State) : Out :=
  s.on l (fun L => L.hedgeUp && !L.is F.PROT_VM_OVR1 && (L.gate.hwAsc || L.get F.GD_GMODE_HASC != 0)) (fun L =>
    ((L.onGate (fun g => { g with hwAsc := false })).put F.GD_GMODE_HASC 0).gates)

/-- OV3 (R277): lane stop OV3, whatever the registers hold. -/
def execOv3 (l : LaneId) (s : State) : Out :=
  s.on l (fun L => L.hedgeUp && !L.is F.GD_LSTOP_OV3) (fun L =>
    ((L.put F.PROT_VM_OVR3 1).note Ev.PROT_OV3).laneStop F.GD_LSTOP_OV3)

/-- OV3_CLEAR (R264): below OV2 - 1 V for 1 ms. -/
def execOv3Clear (l : LaneId) (s : State) : Out :=
  s.on l Lane.hedgeUp (fun L => ((L.put F.PROT_VM_OVR3 0).put F.PROT_VM_OVR2 0).laneStopEnd F.GD_LSTOP_OV3)

/-- CHOP_STUCK (R278): chopper current while BRK_x is off. -/
def execChopStuck (l : LaneId) (s : State) : Out :=
  s.on l (fun L => L.hedgeUp && !L.is F.PROT_VM_BRK_ON) (fun L =>
    (L.put F.PROT_VM_CHOP_STUCK 1).note Ev.PROT_CHOP_STUCK)

/-- VM_UV (R278): below VM_UV for 10 us. -/
def execVmUv (l : LaneId) (s : State) : Out :=
  s.on l (fun L => L.hedgeUp && !L.is F.PROT_VM_VMUV) (fun L =>
    ((L.put F.PROT_VM_VMUV 1).note Ev.PROT_VM_UV).laneStop F.GD_LSTOP_VMUV)

/-- VMUV_CLEAR (R264): above 6.0 V for 1 ms. -/
def execVmuvClear (l : LaneId) (s : State) : Out :=
  s.on l Lane.hedgeUp (fun L => (L.put F.PROT_VM_VMUV 0).laneStopEnd F.GD_LSTOP_VMUV)

/-! ### Switch-off path tests (R282, R283) -/

/-- The test interval of a switch in ticks. -/
def Lane.sopInt (L : Lane) : Nat :=
  let i := L.get F.GD_SOPT_INT
  us (100 * (if i = 0 then 1 else i))

/-- The switch has been commanded off for at least 1 us. -/
def Lane.offFor1us (L : Lane) (s : Nat) : Bool :=
  if s = 24 then !L.is F.PROT_VM_BRK_ON && L.since L.gate.brkOffAt (us 1)
  else !nthB L.gate.on s && L.since (nthN L.gate.offAt s) (us 1)

/-- SOP_TEST (R283): a due test starts on a switch that is off, one switch at a time. -/
def execSopTest (l : LaneId) (sw : Fin 25) (s : State) : Out :=
  s.on l (fun L => L.hedgeUp && L.is F.GD_SOPT_EN && L.gate.sopRun.isNone && !nthB L.gate.sopPassed sw.val &&
      L.offFor1us sw.val) (fun L => L.onGate (fun g => { g with sopRun := some sw.val, sopAt := L.now }))

/-- A switch whose switch-off path failed: its bridge is latched, the chopper's sets CHOP_FAULT (R282). -/
def Lane.sopFail (L : Lane) (k : Nat) : Lane :=
  let L1 := (L.putBit F.GD_SOPFAIL_FAIL k true).note Ev.GD_SOP_FAIL
  if k < 24 then L1.latch (k / 6) 3 else L1.put F.PROT_VM_CHOP_FAULT 1

/-- SOP_TEST_END (R282): a pass after 500 ns, a fail at once. -/
def execSopTestEnd (l : LaneId) (pass : Bool) (s : State) : Out :=
  s.on l (fun L => L.hedgeUp && L.gate.sopRun.isSome && (!pass || L.since L.gate.sopAt 100)) (fun L =>
    match L.gate.sopRun with
    | none => L
    | some k =>
      let L1 := L.onGate (fun g => { g with sopRun := none })
      if pass then
        (L1.onGate (fun g => { g with sopPassed := g.sopPassed.set k true })).putBit F.GD_SOPOVD_OVD k false
      else L1.sopFail k)

/-- SOP_TEST_DUE (R283): the switch's interval ends; unpassed is a miss, the third within 100 ms sets OVD. -/
def execSopTestDue (l : LaneId) (sw : Fin 25) (s : State) : Out :=
  s.on l (fun L => L.hedgeUp && L.is F.GD_SOPT_EN && L.since (nthN L.gate.sopDueAt sw.val) L.sopInt) (fun L =>
    let k := sw.val
    let missed := !nthB L.gate.sopPassed k
    let old := (L.gate.sopMiss.getD k []).filter (fun t => decide (L.now ≤ t + ms 100))
    let ts := if missed then L.now :: old else old
    let L1 := L.onGate (fun g => { g with
      sopDueAt := g.sopDueAt.set k L.now
      sopPassed := g.sopPassed.set k false
      sopMiss := g.sopMiss.set k ts })
    if missed && decide (3 ≤ ts.length) && !L1.fbit F.GD_SOPOVD_OVD k then
      (L1.putBit F.GD_SOPOVD_OVD k true).note Ev.GD_DIAG_OVERDUE
    else L1)

/-! ### STO_x and ALIVE_x (R284 to R286) -/

/-- STO_PIN (R284): STO_x low for 2 us. -/
def execStoPin (l : LaneId) (s : State) : Out :=
  s.on l (fun L => L.hedgeUp && !L.is F.GD_LSTOP_STOPIN) (fun L =>
    ((L.put F.GD_STO_PIN 0).note Ev.GD_STO_PIN).laneStop F.GD_LSTOP_STOPIN)

/-- STO_RELEASE (R284): STO_x high for 10 us. -/
def execStoRelease (l : LaneId) (s : State) : Out :=
  s.on l Lane.hedgeUp (fun L => (L.put F.GD_STO_PIN 1).laneStopEnd F.GD_LSTOP_STOPIN)

/-- ALIVE_x may toggle (R285). -/
def Lane.aliveOk (L : Lane) : Bool :=
  (match L.sdl.voted with
    | some r => bit r.member.toNat L.strap.idx
    | none => false) &&
  !L.is F.SDL_VSTAT_NOVOTE && (bits (L.reg R.GD_LSTOP) 0 7 % 0x80 &&& 0x5F) == 0 && L.is F.GD_ALIVE_KICK

/-- ALIVE_TOGGLE (R285): every 100 us of Hedge time. -/
def execAliveToggle (l : LaneId) (s : State) : Out :=
  s.on l (fun L => L.hedgeUp && L.since L.gate.aliveAt (us 100)) (fun L =>
    let L1 := L.onGate (fun g => { g with aliveAt := L.now })
    if L.aliveOk then (L1.onGate (fun g => { g with aliveLevel := !g.aliveLevel })).put F.GD_ALIVE_RUN 1
    else
      let L2 := (L1.onGate (fun g => { g with aliveLevel := false })).put F.GD_ALIVE_RUN 0
      if L.is F.GD_ALIVE_RUN then L2.note Ev.GD_ALIVE_STOP else L2)

/-- The kick window cancelled, with MISS counted (R286). -/
def Lane.kickCancel (L : Lane) : Lane :=
  ((L.incSat F.GD_ALIVE_MISS).put F.GD_ALIVE_KICK 0).onGate (fun g => { g with kickRun := 0 })

/-- KICK_LAPSE (R286): 250 us with the window open and no valid kick. -/
def execKickLapse (l : LaneId) (s : State) : Out :=
  s.on l (fun L => L.hedgeUp && L.is F.GD_ALIVE_KICK && L.since L.gate.kickAt (us 250)) Lane.kickCancel

/-- ALIVE_KICK (R286): a write of GD_ALIVE.KEY. -/
def execAliveKick (l : LaneId) (key : Half) (s : State) : Out :=
  s.on l Lane.hedgeUp (fun L =>
    let valid := (key == 0x5A5A || key == 0xA5A5) && L.gate.lastKey != some key
    let L1 := L.onGate (fun g => { g with lastKey := some key })
    if valid then
      let L2 := L1.onGate (fun g => { g with kickAt := L.now })
      if L.is F.GD_ALIVE_KICK then L2
      else if 1 ≤ L.gate.kickRun then (L2.put F.GD_ALIVE_KICK 1).onGate (fun g => { g with kickRun := 0 })
      else L2.onGate (fun g => { g with kickRun := 1 })
    else L1.kickCancel)

end Sys2Proof.Machine
end

