-- ==== Sys2Proof/Machine/Saf.lean ====
section
/-!
DEFINITION. Machine/Saf.lean: commands of 10_safety_functions.md: the reactions of both paths (R344 to R358) and the Seal (R364 to
R370).
-/

namespace Sys2Proof.Machine

/-- Boundaries that confirm a violation; 0 behaves as 1 (SAF_RESP.NV). -/
def Lane.safNv (L : Lane) : Nat := max 1 (L.get F.SAF_RESP_NV)

/-- The event of a function's violation. -/
def safEvent (fn : Nat) : Event := if fn = 0 then Ev.SAF_SLA_VIOL else if fn = 1 then Ev.SAF_SLR_VIOL else Ev.SAF_SDI_VIOL

/-- VIOLATION_CONFIRM (R344, Table 10.2): exceeded at NV boundaries. -/
def execViolationConfirm (l : LaneId) (fn : Fin 3) (act : Fin 4) (s : State) : Out :=
  let i := safIdx fn.val act.val
  s.on l (fun L => L.up && (L.saf.conf.getD i none).isNone && decide (L.safNv ≤ nthN L.saf.cnt i)) (fun L =>
    ((L.onSaf (fun x => { x with conf := x.conf.set i (some L.now) })).note (safEvent fn.val)).safShow.safetyLimit act.val)

/-- A violation of the actuator calls for STO: an SDI violation at once, any other TSTO ms after its confirmation (R350, R355). -/
def Lane.stoDue (L : Lane) (a : Nat) : Bool :=
  [0, 1, 2].any (fun fn => match L.saf.conf.getD (safIdx fn a) none with
    | some t => fn == 2 || L.since t (ms (max 1 (L.get F.SAF_RESP_TSTO)))
    | none => false)

/-- SAF_STO (R350, R355, Table 10.2): ENA 0 in the vote cells from now on; the bridge ramps down and is DISABLED. -/
def execSafSto (l : LaneId) (act : Fin 4) (s : State) : Out :=
  s.on l (fun L => L.up && !L.fbit F.SAF_VIOL_STO act.val && L.stoDue act.val) (fun L =>
    let L1 := (L.putBit F.SAF_VIOL_STO act.val true).note Ev.SAF_SAF_STO
    if (L1.act act.val).bridge = .disabled then L1
    else L1.onAct act.val (fun t => { t with
      bridge := .disabling, rampEnd := L.now, disableAt := L.now + L.periodT + us 101 }))

/-- The limit of a hard-wired function, its bridge and its cause (R351, Table 10.1). -/
def Lane.hsfBridge (L : Lane) (fn : Nat) : Nat :=
  if fn = 0 then L.get F.HSF_MAP_S0BR else if fn = 3 then L.get F.HSF_MAP_E1BR else L.get F.HSF_MAP_E0BR

/-- HSF_STOP (R351): exceeded at N consecutive boundaries; the bridge is in STOP and the event recorded. -/
def execHsfStop (l : LaneId) (fn : Fin 4) (s : State) : Out :=
  s.on l (fun L => L.hedgeUp && decide (max 1 (L.get F.HSF_TOL_N) ≤ nthN L.hsf.cnt fn.val) && !nthB L.hsf.done fn.val) (fun L =>
    let ev := if fn.val = 0 then Ev.HSF_HSLA else if fn.val = 1 then Ev.HSF_HSLR else Ev.HSF_HSDI
    let cause := if fn.val = 0 then 1 else if fn.val = 1 then 2 else 3
    ((L.onHsf (fun h => { h with done := h.done.set fn.val true })).note ev).hsfLatch (L.hsfBridge fn.val) cause)

/-- HSF_STO_REQ (R355). -/
def execHsfStoReq (l : LaneId) (req : BitVec 4) (s : State) : Out :=
  s.on l Lane.hedgeUp (fun L => L.hsfRequest req.toNat)

/-- HSF_STO_REL (R354): a bridge named in REQ of the same write stays latched. -/
def execHsfStoRel (l : LaneId) (req rel : BitVec 4) (s : State) : Out :=
  s.on l Lane.hedgeUp (fun L => [0, 1, 2, 3].foldl (fun K b =>
    if bit rel.toNat b then K.hsfRelease b (bit req.toNat b) else K) (L.hsfRequest req.toNat))

/-- The oldest fall whose 100 ms have passed, applied (R348). -/
def LimitSt.apply (m : LimitSt) : LimitSt :=
  match m.falls with
  | f :: t => { m with held := f.2, falls := t }
  | [] => m

/-- The oldest fall has lasted 100 ms. -/
def Lane.fallDue (L : Lane) (m : LimitSt) : Bool :=
  match m.falls with
  | f :: _ => L.since f.1 (ms 100)
  | [] => false

/-- SLR_LIMIT_CHANGE (R348): 100 ms after the level fell, the lower limit applies. -/
def execSlrLimitChange (l : LaneId) (hedge : Bool) (s : State) : Out :=
  s.on l (fun L => if hedge then L.hedgeUp && L.fallDue L.hsf.lim else L.up && L.fallDue L.saf.lim) (fun L =>
    if hedge then L.onHsf (fun h => { h with lim := h.lim.apply }) else L.onSaf (fun x => { x with lim := x.lim.apply }))

/-- L1_LATE (R349): TL1 seconds have passed and the position is not inside the L1 window. -/
def execL1Late (l : LaneId) (s : State) : Out :=
  s.on l (fun L => L.up && !L.saf.l1Done && !L.is F.SAF_VIOL_L1IN && (match L.saf.l1From with
      | some t => L.since t (sec (max 1 (L.get F.SAF_RESP_TL1)))
      | none => false)) (fun L => (L.onSaf (fun x => { x with l1Done := true })).note Ev.SAF_L1_LATE)

/-- HUNAVAIL (R352): SENT_0, ENC_0 or ENC_1 unavailable for 100 ms; the lane keeps voting. -/
def execHunavail (l : LaneId) (inp : Fin 3) (s : State) : Out :=
  let f := if inp.val = 0 then F.HSF_VIOL_UNAV_S0 else if inp.val = 1 then F.HSF_VIOL_UNAV_E0 else F.HSF_VIOL_UNAV_E1
  s.on l (fun L => L.hedgeUp && !L.is f && (match L.hsf.unavAt.getD inp.val none with
      | some t => L.since t (ms 100)
      | none => false)) (fun L => (L.put f 1).note Ev.HSF_HUNAVAIL)

/-- The HOLD command of an actuator in progress. -/
def Lane.holdCmd (L : Lane) (a : Nat) : Option TCmd :=
  L.cmdq.queue.find? (fun c => c.live && c.op == 0x14 && c.act == a + 1)

/-- SBH_CHECK_END (R356, Table 10.4): TCHK passed, or a condition failed and the caliper is clamped again. -/
def execSbhCheckEnd (l : LaneId) (act : Fin 4) (s : State) : Out :=
  let a := act.val
  s.on l (fun L => L.up && decide ((L.saf.sbh.getD a {}).phase = .check) &&
      ((L.saf.sbh.getD a {}).failed || decide ((L.saf.sbh.getD a {}).at_ ≤ L.now))) (fun L =>
    let b := L.saf.sbh.getD a {}
    if b.failed then
      let L1 := ((L.sbhReclamp a).putBit F.SAF_ARM_SBH a false).onSbh a (fun b => { b with phase := .none })
      let L2 := L1.note Ev.SAF_SBH_FAIL
      match L2.holdCmd a with
      | some c => L2.finish c St.SAFETY_LIMIT (L2.endResult c)
      | none => L2
    else
      let L1 := (L.onSbh a (fun b => { b with phase := .hold })).note Ev.SAF_SBH_PASS
      match L1.holdCmd a with
      | some c => L1.finish c St.DONE (L1.endResult c)
      | none => L1)

/-! ### The Seal (R364 to R370) -/

/-- SEAL_CHK (R364): a computation over the values of this instant (R367); ignored while BUSY. -/
def execSealChk (l : LaneId) (s : State) : Out :=
  s.on l (fun L => L.up && !L.is F.SAF_SEALCTL_BUSY) (fun L =>
    (L.put F.SAF_SEALCTL_BUSY 1).onSaf (fun x => { x with run := some { endAt := L.now + ms 2, val := L.trioSeal } }))

/-- HSEAL_CHK (R364). -/
def execHsealChk (l : LaneId) (s : State) : Out :=
  s.on l (fun L => L.hedgeUp && !L.is F.HSF_SEALCMD_BUSY) (fun L =>
    (L.put F.HSF_SEALCMD_BUSY 1).onHsf (fun h => { h with run := some { endAt := L.now + ms 1, val := L.hedgeSeal } }))

/-- SEAL_DONE (R364): the Seal written, at the latest 2 ms after the trio's start and 1 ms after the Hedge's; 0 without one. -/
def execSealDone (l : LaneId) (hedge : Bool) (s : State) : Out :=
  s.on l (fun L => if hedge then L.hedgeUp && L.hsf.run.isSome else L.up && L.saf.run.isSome) (fun L =>
    let v := if hedge || L.link.trained then (if hedge then L.hsf.run else L.saf.run).bind (fun r => r.val) else none
    if hedge then
      let L1 := ((L.setReg R.HSF_SEAL (v.getD 0).toNat).put F.HSF_SEALCMD_BUSY 0).onHsf (fun h => { h with run := none, hasSeal := v.isSome })
      (if v.isNone then L1.note Ev.HSF_MIR_ERR else L1).sealShow
    else
      (((L.setReg R.SAF_SEAL (v.getD 0).toNat).put F.SAF_SEALCTL_BUSY 0).onSaf (fun x => { x with run := none, hasSeal := v.isSome })).sealShow)

/-- The lock of the logic die (R366). -/
def Lane.sealLock (L : Lane) : Lane :=
  if !L.is F.SAF_SEALCTL_LOCKED && L.saf.hasSeal && L.reg R.SAF_SEAL == L.reg R.SAF_SEALREF then
    (((L.put F.SAF_SEALCTL_LOCKED 1).lockDie false true).note Ev.SAF_SEAL_LOCKED).onSaf (fun x => { x with recheckAt := L.now })
  else L.note Ev.SAF_SEAL_MISMATCH

/-- The lock of the Hedge (R366). -/
def Lane.hsealLock (L : Lane) : Lane :=
  if !L.is F.HSF_SEALCMD_LOCKED && L.hsf.hasSeal && L.reg R.HSF_SEAL == L.reg R.HSF_SEALREF then
    (((L.put F.HSF_SEALCMD_LOCKED 1).lockDie true true).note Ev.HSF_HSEAL_LOCKED).onHsf (fun h => { h with recheckAt := L.now })
  else L.note Ev.HSF_SEAL_MISMATCH

/-- SEAL_LOCK (R366): any other key makes LOCK ignored. -/
def execSealLock (l : LaneId) (key : Half) (s : State) : Out :=
  s.on l (fun L => L.up && key == 0x3C96) Lane.sealLock

/-- HSEAL_LOCK (R366). -/
def execHsealLock (l : LaneId) (s : State) : Out := s.on l Lane.hedgeUp Lane.hsealLock

/-- A lost Seal counted (R370): NOVOTE and a lane fault, the second of a drive cycle prunes the lane. -/
def Lane.sealLostFault (L : Lane) : Lane :=
  let n := L.hsf.sealLost + 1
  let L1 := (L.onHsf (fun h => { h with sealLost := n })).put F.TRIO_MODE_NOVOTE 1
  if 2 ≤ n then L1.pruneLane else L1.laneFault.showNovote

/-- SEAL_RECHECK (R370): every 100 ms a locked party recomputes its Seal; a Hedge that lost it clears its own lock and holds its
lane out of the vote. -/
def execSealRecheck (l : LaneId) (hedge : Bool) (s : State) : Out :=
  s.on l (fun L => if hedge then L.hedgeUp && L.is F.HSF_SEALCMD_LOCKED && L.since L.hsf.recheckAt (ms 100)
      else L.up && L.is F.SAF_SEALCTL_LOCKED && L.since L.saf.recheckAt (ms 100)) (fun L =>
    if hedge then
      let L1 := (L.sealNow true).onHsf (fun h => { h with recheckAt := L.now })
      if L.hedgeSeal = some (L.rd (R.HSF_SEALREF.addr 0 0)) then L1
      else
        let L2 := ((L1.note Ev.HSF_HSEAL_LOST).put F.HSF_SEALCMD_LOCKED 0).lockDie true false
        (L2.onSdl (fun d => { d with held := true })).sealLostFault
    else
      let L1 := (L.sealNow false).onSaf (fun x => { x with recheckAt := L.now })
      match L.trioSeal with
      | none => L1
      | some v => if v = L.rd (R.SAF_SEALREF.addr 0 0) then L1 else (L1.note Ev.SAF_SEAL_LOST).sealLostFault)

end Sys2Proof.Machine
end

