-- ==== Sys2Proof/Machine/Test.lean ====
section
/-!
DEFINITION. Machine/Test.lean: commands of 11_inservice_test_and_faults.md on weeding slices (R383 to R388) and the fallow (R389
to R395, R102, R105), with the planned departures of R96.
-/

namespace Sys2Proof.Machine

/-! ### Planned departures (R96, Table 2.9) -/

/-- BIST's and MSUP's hidden state changed by a function. -/
def Lane.onTest (L : Lane) (f : TestSt → TestSt) : Lane := { L with test := f L.test }

/-- The departure of lane `x` in this lane's next LEAVE (R96); `x` itself keeps what it leaves to. -/
def Lane.putLeave (L : Lane) (x : LaneId) (dst : Nat) : Lane :=
  if L.active then
    L.onOzl (fun o => { o with
      leavePend := BitVec.ofNat 3 (putBits o.leavePend.toNat x.idx 1 1), leaveTo := if L.strap = x then dst else o.leaveTo })
  else L

/-- A departure of lane `x` announced: every ACTIVE lane that hears of it puts it into LEAVE of its next cell (R5, R96). -/
def State.announceLeave (s : State) (x : LaneId) (dst : Nat) : State :=
  LaneId.all.foldl (fun t y => if reaches s x y then t.upd y (fun K => K.putLeave x dst) else t) s

/-- A lane is on its way out of the membership as lane `L` holds it. -/
def Lane.leaving (L : Lane) (x : LaneId) : Bool := bit L.ozl.leavePend.toNat x.idx || bit L.ozl.leaveNow.toNat x.idx

/-- Another lane than `l` stays ACTIVE, as lane `l` knows it. -/
def State.otherActive (s : State) (l : LaneId) : Bool :=
  [l.next, l.prev].any (fun x => (s.lane l).stOf x == 1 && !(s.lane l).leaving x)

/-- The PRUNE transition of a lane (Tables 2.9, 2.10) and the status it ends with: announced where the lane is ACTIVE and another
stays ACTIVE, at once where it is EXCLUDED, no change where it is PRUNED, SAFETY_LIMIT where no lane would stay ACTIVE. DESIGN
CHOICE: Table 2.9 has no transition of a lane in GRAFT or FALLOW by this event and Table 2.10 no row; NOT_IN_STATE (log 128). -/
def State.planPrune (s : State) (l : LaneId) : State × Nat :=
  let L := s.lane l
  if L.own = 4 then (s, St.DONE)
  else if L.active then (if s.otherActive l then (s.announceLeave l 4, St.DONE) else (s, St.SAFETY_LIMIT))
  else if L.own = 3 then (s.upd l Lane.pruneLane, St.DONE)
  else (s, St.NOT_IN_STATE)

/-! ### A bank without a spare (R399, R400) -/

/-- An SRAM bank pruned, with its PERMANENT event if it has one: the copy into the reserve begins where it is free; else bank 6 prunes the
service pair and bank 7 is lost. The Bool says that the kernel must prune the lane: NO_SPARE. Bank 5 is the reserve itself. -/
def Lane.bankOut (L : Lane) (e : Option Event) (k : Nat) : Lane × Bool :=
  let free := L.is F.MSUP_SRAM_RESERVE
  let L1 := (match e with
    | some v => L.note v
    | none => L).prune (.sram k)
  if L.pruned (.sram k) || free || k = 7 then (L1, false)
  else if k = 6 then (L1.pruneSvc, false)
  else (L1.note Ev.MSUP_NO_SPARE, true)

/-- A lane without a spare bank leaves for PRUNED: from the membership as announced, a graft in progress fails its phase, a fallow its
test (R400, Table 2.9). The Bool says whether the transition was refused. -/
def State.loseLane (s : State) (l : LaneId) : State × Bool :=
  let p := s.planPrune l
  if p.2 = St.NOT_IN_STATE then
    (s.upd l (fun L => if L.own = 0 && L.get F.OZL_GRAFT_PHASE != 0 then L.failGraft else L.pruneLane), false)
  else (p.1, decide (p.2 = St.SAFETY_LIMIT))

/-- The same as the kernel of lane `l` carries it out: a refused PRUNE transition keeps the bank in service (R400). -/
def State.pruneBank (s : State) (l : LaneId) (e : Event) (k : Nat) : State :=
  let L := s.lane l
  let r := L.bankOut (some e) k
  if r.2 then
    let p := (s.setLane l r.1).loseLane l
    if p.2 then s.setLane l ((L.note e).note Ev.MSUP_NO_SPARE) else p.1
  else s.setLane l r.1

/-! ### Elements in slices -/

/-- The element of a class and index (Table 4.10). -/
def elemAt (cls idx : Nat) : Option Elem :=
  match cls with
  | 1 => if idx < 8 then some (.cnv idx) else none
  | 2 => if idx < 4 then some (.loop idx) else none
  | 3 => if idx < 4 then some (.drv idx) else none
  | 4 => if idx < 10 then some (.pos idx) else none
  | 5 => if idx < 4 then some (.can idx) else none
  | 6 => if idx = 0 then some .flx else none
  | 7 => if idx < 3 then some (.eth idx) else none
  | 8 => if idx < 8 then some (.sram idx) else none
  | 9 => if idx = 0 then some .icv else none
  | _ => none

/-- The elements of classes 0x01 to 0x09, in the order of their turn. -/
def turnElems : List Elem :=
  (List.range 8).map Elem.cnv ++ (List.range 4).map Elem.loop ++ (List.range 4).map Elem.drv ++ (List.range 10).map Elem.pos
    ++ (List.range 4).map Elem.can ++ [.flx] ++ (List.range 3).map Elem.eth ++ (List.range 8).map Elem.sram ++ [.icv]

/-- A loop program's source entry names a quantity of a position channel of this lane. -/
def selOf (c sel : Nat) : Bool :=
  sel / 32 == 1 && (let k := sel % 32
    if k < 14 then chanOf k == c else if 16 ≤ k ∧ k < 26 then chanOf (k - 16) == c else false)

/-- Every enabled program that names the channel has another healthy source (Table 11.2, class 0x04). -/
def Lane.loopsCovered (L : Lane) (c : Nat) : Bool :=
  (List.range 4).all (fun n => (List.range 8).all (fun m =>
    let sels := [L.get F.LOOP_PRG_SRC_SEL_0 n m, L.get F.LOOP_PRG_SRC_SEL_1 n m, L.get F.LOOP_PRG_SRC_SEL_2 n m]
    !L.is F.LOOP_PRG_CTL_EN n m || !sels.any (selOf c) ||
      (List.range 3).any (fun i => !selOf c (nthN sels i) && nthN sels i != 0 && L.fbit F.LOOP_PRG_STAT_HEALTH i n m)))

/-- Every drive engine whose angle comes from the channel is OFF or has its estimate in CONF. -/
def Lane.drivesCovered (L : Lane) (c : Nat) : Bool :=
  (List.range 4).all (fun k =>
    let a := L.dget F.DRV_PSRC_ASEL k
    L.drvState k == 0 || !(decide (a < 10) && chanOf a == c) || decide (L.dget F.DRV_CONF_CTH k ≤ L.get F.DRV_SPD_CONF k))

/-- Every enabled twin-path entry that `p` says the port carries has a healthy path of the other kind (Table 11.2). -/
def Lane.entriesCovered (L : Lane) (onA : Bool) (p : Nat → Bool) : Bool :=
  (List.range 64).all (fun i => L.dg i 0 16 1 == 0 || !p i || (if onA then L.pathB i else L.pathA i))

/-- The cover condition of a slice of an element (Table 11.2). The network ports of a lane whose service pair is down count as lost, so
nothing covers one of them (R144). -/
def coverOk (s : State) (l : LaneId) (e : Elem) : Bool :=
  let L := s.lane l
  match e with
  | .cnv n =>
    !L.outOfService (.cnv (partner n)) && L.domOn 5 && (L.cnv (partner n)).calAt.isNone &&
      (L.drvIdle (n / 2) || decide (120 ≤ L.drvPeriod (n / 2)))
  | .loop n =>
    decide (2 ≤ L.memberCount) && [l.next, l.prev].all (fun x => !reaches s x l || !(s.lane x).outOfService (.loop n))
  | .drv k => (L.act k).bridge == .disabled
  | .pos c => L.loopsCovered c && L.drivesCovered c
  | .can n => L.is F.TRIO_SVC_LIVE && L.entriesCovered true (fun i => L.aCar i == 2 && L.dg i 8 3 2 == n)
  | .flx => L.is F.TRIO_SVC_LIVE && L.entriesCovered true (fun i => L.aCar i == 1)
  | .eth p =>
    -- path B keeps another port in service, or the entry's path A is healthy
    L.is F.TRIO_SVC_LIVE && ([0, 1, 2].any (fun q => q != p && !L.outOfService (.eth q) && L.is F.ETH_PORT_STAT_LINK 0 q) ||
      L.entriesCovered false (fun i => L.dg i 8 12 1 == 1))
  | .sram _ => true
  | .icv => L.active && L.icv.run.isNone
  | .core _ | .svc => false

/-- No lane is in GRAFT or FALLOW, as this lane holds their states (R385). -/
def Lane.noGraft (L : Lane) : Bool := LaneId.all.all (fun x => L.stOf x != 0 && L.stOf x != 2)

/-- A slice may be asked for now: the lane is a member at L2 or L3, no other slice is chosen or runs, and the cover holds (R383,
R388). -/
def sliceReady (s : State) (l : LaneId) (e : Elem) : Bool :=
  let L := s.lane l
  L.up && L.active && decide (2 ≤ L.memberCount) && L.test.slice.isNone && coverOk s l e

/-- A slice chosen: it starts at the next vote boundary. -/
def Lane.chooseSlice (L : Lane) (e : Elem) (sched : Bool) (cmd : Option (Half × Bool)) : Lane :=
  ((L.onTest (fun t => { t with
    slice := some { elem := e, sched := sched, cmd := cmd, startAt := none }, sliceBad := false })).put F.BIST_SLICE_BUSY 1).putB
    F.BIST_SLICE_SCHED sched

/-- SLICE_SCHEDULE (R385): every INT × 100 ms the service pair takes the next element of the turn whose cover has held for 10
boundaries. -/
def execSliceSchedule (l : LaneId) (s : State) : Out :=
  let L := s.lane l
  let int := max 1 (L.get F.BIST_SCHED_INT)
  let ok (k : Nat) : Bool :=
    match turnElems.getD k .svc with
    | .svc => false
    | e => decide (10 ≤ nthN L.test.cover k) && sliceReady s l e &&
        (!L.pruned e || !bit (L.reg (heldReg (elemBit e).1)) (elemBit e).2)
  let order := (List.range 43).map (fun i => (L.test.turn + i) % 43)
  if L.up && L.is F.BIST_SCHED_EN && L.svcRuns && L.since L.test.schedAt (ms 100 * int) && L.memberCount == 3 && L.noGraft then
    match order.find? ok with
    | some k => .next (s.upd l (fun K =>
        (K.chooseSlice (turnElems.getD k .svc) true none).onTest (fun t => { t with turn := (k + 1) % 43, schedAt := K.now })))
    | none => .next s
  else .next s

/-- SLICE_GO (R388): CLASS, INDEX and GO written. Ignored while BUSY; what cannot start reads RESULT 4. -/
def execSliceGo (l : LaneId) (cls idx : BitVec 4) (s : State) : Out :=
  s.on l (fun L => L.up && !L.is F.BIST_SLICE_BUSY) (fun L =>
    let L1 := (L.put F.BIST_SLICE_CLASS cls.toNat).put F.BIST_SLICE_INDEX idx.toNat
    match elemAt cls.toNat idx.toNat with
    | some e => if sliceReady s l e then L1.chooseSlice e false none else (L1.put F.BIST_SLICE_RESULT 4).note Ev.BIST_SLICE_REFUSED
    | none => (L1.put F.BIST_SLICE_RESULT 4).note Ev.BIST_SLICE_REFUSED)

/-- The element isolated: its block's operations stop and the cover starts (R384, R210, R305, R465). -/
def Lane.isolate (L : Lane) (e : Elem) : Lane :=
  let L1 := { L with isolated := some e }
  match e with
  | .cnv _ | .loop _ | .can _ | .flx | .eth _ => L1.stopElem e
  | .pos c => (quantsOf c).foldl (fun K q => K.onQuant q (fun x => { x with valid := false, avalid := false, sUpd := false })) L1
  | .icv => L1.onIcv (fun i => { i with held := 0xFF })
  | _ => L1

/-- SLICE_START (R384): at a vote boundary the chosen element is isolated. Where its cover no longer holds the slice does not
start: a GO reads RESULT 4, a command waits as DEFERRED. -/
def execSliceStart (l : LaneId) (s : State) : Out :=
  s.on l (fun L => L.up && L.atBoundary && (match L.test.slice with
      | some x => x.startAt.isNone
      | none => false)) (fun L =>
    match L.test.slice with
    | none => L
    | some x =>
      if coverOk s l x.elem && L.active then (L.isolate x.elem).onTest (fun t => { t with slice := some { x with startAt := some L.now } })
      else
        let L1 := (L.onTest (fun t => { t with slice := none })).put F.BIST_SLICE_BUSY 0
        match x.cmd with
        | some (tag, net) => match L1.cmd tag net with
          | some c => L1.defer c
          | none => L1
        | none => if x.sched then L1 else (L1.put F.BIST_SLICE_RESULT 4).note Ev.BIST_SLICE_REFUSED)

/-- A block instance reset as by SRST, its configuration rewritten by the kernel (R384). -/
def Lane.renew (L : Lane) (b : Blk) (n : Nat) : Lane := (L.blockReset b n).rewrite (L.configOf b n)

/-- The element re-initialised after a slice (R384). An element that is part of a block shared with others is reset alone. -/
def Lane.reinit (L : Lane) (e : Elem) : Lane :=
  match e with
  | .cnv n => L.renew .cnv n
  | .loop n =>
    -- its programs and ports stay as they are until the restore at the next boundary (R210)
    let L1 := (List.range 8).foldl (fun K m => K.put F.LOOP_PRG_STAT_STATE (L.prgState n m) n m) (L.renew .loop n)
    let L2 := (List.range 8).foldl (fun K p => K.setShadow n p (L.shadow n p)) L1
      |>.onEng n (fun e => { e with wasRun := (L.eng n).wasRun, committed := (L.eng n).committed })
    L2.onTest (fun t => { t with lpFix := if t.lpFix.contains (n + 4) then t.lpFix else t.lpFix ++ [n + 4] })
  | .drv k => L.renew .drv k
  | .pos c => if L.pruned (.pos c) then L else L.chanUp c
  | .icv => L.renew .icv 0
  | .can n => L.renew .can n
  | .flx =>
    let L1 := L.renew .flx 0
    if L1.is F.FLX_CTL_EN then (L1.put F.FLX_POC_STATE 3).onFlx (fun x => { x with listenAt := L1.now, cautNext := true }) else L1
  | _ => L

/-- The end of the running slice in the registers: RESULT, DONE, SDUR (R384). -/
def Lane.sliceShow (L : Lane) (x : Slice) (result : Nat) : Lane :=
  let L1 := { (L.onTest (fun t => { t with slice := none })) with isolated := none }
  (((L1.put F.BIST_SLICE_RESULT result).put F.BIST_SLICE_DONE 1).put F.BIST_SLICE_BUSY 0).put F.BIST_SDUR_DUR
    ((L.now - x.startAt.getD L.now) / 200)

/-- A member lane heard whose engine `n` is in service, from which memory of the engine is restored (R210). -/
def State.loopDonor (s : State) (l : LaneId) (n : Nat) : Option LaneId :=
  (s.hosts l).find? (fun x => !(s.lane x).outOfService (.loop n))

/-- The loop engine's data memory and ramp states restored from a peer that is a member (R210). -/
def restoreLoop (s : State) (l : LaneId) (n : Nat) : State :=
  match s.loopDonor l n with
  | none => s
  | some x =>
  let donor := s.lane x
  let lo := dmemA n 0
  let hi := lo + 0x8000
  let part (m : List Host.Cell) := m.filter (fun c => decide (lo ≤ c.1) && decide (c.1 < hi))
  s.upd l (fun K =>
    let low := K.mem.filter (fun c => decide (c.1 < lo))
    let high := K.mem.filter (fun c => decide (hi ≤ c.1))
    (List.range 8).foldl (fun J m => J.put F.LOOP_PRG_RSP_RSP (donor.get F.LOOP_PRG_RSP_RSP n m) n m)
      { K with mem := low ++ part donor.mem ++ high })

/-- An engine whose programs return to RUN at a boundary: those that ran when it left service or lost its code. After a slice there is
no soft start (R210); after a restore of code the return is a start (R203, R402). -/
def Lane.loopResume (L : Lane) (n : Nat) (soft : Bool) : Lane :=
  if L.outOfService (.loop n) then L
  else
    let back (K : Lane) (m : Nat) := nthB (L.eng n).wasRun m && (K.prgState n m == 3 || K.prgState n m == 4)
    let L1 := (List.range 8).foldl (fun K m =>
      if back K m then (K.setPrgState n m 1).onEng n (fun e => { e with startP := e.startP.set m (soft || nthB e.startP m) }) else K) L
    L1.onEng n (fun e => { e with wasRun := List.replicate 8 false })

/-- At a vote boundary: engines tested by a slice restored from a peer (an entry n + 4), engines whose code was restored (n). -/
def State.loopRestore (s : State) (l : LaneId) : State :=
  let t := (s.lane l).test.lpFix.foldl (fun t x =>
    if x < 4 then t.upd l (fun K => K.loopResume x true) else (restoreLoop t l (x - 4)).upd l (fun K => K.loopResume (x - 4) false)) s
  t.upd l (fun K => K.onTest (fun x => { x with lpFix := [] }))

/-- The results of a WEED_SLICE command: pass or fail, the duration in us. -/
def Lane.sliceBytes (L : Lane) (result : Nat) : List Byte := bytesLE 4 result ++ bytesLE 4 (L.get F.BIST_SDUR_DUR)

/-- The command a slice serves ended. -/
def State.endSliceCmd (s : State) (l : LaneId) (x : Slice) (status result : Nat) : State :=
  match x.cmd with
  | some (tag, net) =>
    match (s.lane l).cmd tag net with
    | some c => s.conclude l c status (if status = St.DONE then (s.lane l).sliceBytes result else [])
    | none => s
  | none => s

/-- SLICE_END (R384, R387, R388): the content has run, `passed` is its outcome; a slice whose element a PERMANENT event has hit fails (R379). A fail prunes the element, a pass returns a pruned
one; the passing diagnostic of a class 0x03 slice is the pass that R271 asks for. -/
def execSliceEnd (l : LaneId) (passed : Bool) (s : State) : Out :=
  let L := s.lane l
  let pass := passed && !L.test.sliceBad
  match L.test.slice with
  | some x =>
    if L.up && x.startAt.isSome then
      let s1 := s.upd l (fun K => (K.reinit x.elem).sliceShow x (if pass then 1 else 2))
      let s3 := s1.upd l (fun K =>
        if pass then
          let K1 := match x.elem with
            | .drv k => K.odResult k 0
            | _ => K
          if K1.pruned x.elem && sliceReturns x.elem then (K1.unprune x.elem).note Ev.BIST_SLICE_PASS else K1
        else match x.elem with
          | .sram _ => K
          | e => K.permanent Ev.BIST_SLICE_FAIL e)
      let s4 := match x.elem with
        | .sram k => if pass then s3 else s3.pruneBank l Ev.BIST_SLICE_FAIL k
        | _ => s3
      .next (s4.endSliceCmd l x St.DONE (if pass then 0 else 1))
    else .next s
  | none => .next s

/-- A cause that aborts the running slice (R386); `odNotRun` is the diagnostic of class 0x03 reported not run. -/
def sliceHit (s : State) (l : LaneId) (e : Elem) (odNotRun : Bool) : Bool :=
  let L := s.lane l
  !coverOk s l e || !L.active || L.asleep ||
    (match e with
    | .drv k => odNotRun || L.fbit F.GD_VCMD_ENA k || L.fbit F.GD_VCMD_ASC k || L.fbit F.GD_GMODE_HASC k
    | _ => false)

/-- The running slice aborted: the element re-initialised, SLICE_ABORT, its command ABORTED (R386, R388). -/
def State.abortSlice (s : State) (l : LaneId) : State :=
  match (s.lane l).test.slice with
  | some x =>
    let s1 := s.upd l (fun K => ((if x.startAt.isSome then K.reinit x.elem else K).sliceShow x 3).note Ev.BIST_SLICE_ABORT)
    s1.endSliceCmd l x St.ABORTED 0
  | none => s

/-- SLICE_ABORT (R386): demand wins. -/
def execSliceAbort (l : LaneId) (odNotRun : Bool) (s : State) : Out :=
  match (s.lane l).test.slice with
  | some x => .next (if (s.lane l).up && x.startAt.isSome && !(s.lane l).test.sliceBad && sliceHit s l x.elem odNotRun then s.abortSlice l else s)
  | none => .next s

/-- Cover counts at a vote boundary (R385). -/
def State.coverBoundary (s : State) (l : LaneId) : State :=
  let c := (turnElems.zip (s.lane l).test.cover).map (fun p => if coverOk s l p.1 then satU 10 (p.2 + 1) else 0)
  s.upd l (fun K => K.onTest (fun t => { t with cover := c }))

/-! ### The fallow -/

/-- Demand on every actuator below 60 % of the capacity of two lanes, and the steering rate below 20 % of the L3 limit (R102; log
29). -/
def Lane.demandLow (L : Lane) : Bool :=
  (List.range 4).all (fun b =>
    let share := max 1 (L.get F.OZL_LSTATE_LEVEL)
    decide ((q15 (L.portRef 1 b)).natAbs * share * 10 < 12 * 32768)) &&
  (List.range 4).all (fun a => L.kindOf a != 1 || (match L.median a true with
    | some v => decide (v.natAbs * 5 < slrLimit (L.get F.SAF_SLR_RMAX) 3)
    | none => false))

/-- All three lanes are ACTIVE, as this lane holds their states. -/
def Lane.allActive (L : Lane) : Bool := LaneId.all.all (fun x => L.stOf x == 1)

/-- The fallow conditions as lane `l` sees them; during the key-off fallows demand and rate are waived (R105). DESIGN CHOICE: of R102's
conditions these are the ones a re-graft for LATENT_DIVERGE waits for; the 30 min since the last fallow concern fallows alone (log
129). -/
def State.fallowOpen (s : State) (l : LaneId) : Bool :=
  (s.lane l).allActive && ((s.lane l).demandLow || (s.lane l).pwr.keyOff)

/-- The lane may go FALLOW: 30 min of operation since its last completed fallow (R102). -/
def State.fallowOk (s : State) (l : LaneId) : Bool := s.fallowOpen l && decide (30 ≤ (s.lane l).get F.OZL_FALLOW_AGE)

/-- The rotation order after `last`, the lane that completed a fallow last (R102). -/
def rotation (last : Nat) : List LaneId := [1, 2, 3].map (fun i => LaneId.ofIdx ((last + i) % 3))

/-- Entry into FALLOW (Table 11.3, R391): t = 0; the Hedge holds LEGTO without recording it and does not count the lane. -/
def Lane.enterFallow (L : Lane) : Lane :=
  let L1 := (L.outOfMembers.setStOf L.strap 2).put F.OZL_FALLOW_PENDING 0
  let L2 := ((L1.setReg R.BIST_FRES 0).setReg R.BIST_FPART 0).setReg R.BIST_FSKIP 0
  let L3 := L2.onTest (fun t => { t with fallowAt := some L.now, fstep := 1, fbad := false, fdone := false, fallowKey := L.pwr.keyOff })
  ((L3.put F.GD_LSTOP_LEGTO 1).onSdl (fun d => { d with held := true })).gates.showNovote

/-- The elements a logic BIST partition's failure prunes; the other partitions prune the lane (Table 11.4). -/
def partElems (k : Nat) : List Elem :=
  if k < 3 then [.core k]
  else if k = 5 then [.svc]
  else if 7 ≤ k ∧ k ≤ 10 then [.loop (k - 7)]
  else if 11 ≤ k ∧ k ≤ 14 then [.drv (k - 11)]
  else if 15 ≤ k ∧ k ≤ 22 then [.cnv (k - 15)]
  else if 24 ≤ k ∧ k ≤ 27 then [.can (k - 24)]
  else if k = 28 then [.flx]
  else if k = 29 then [.eth 0, .eth 1, .eth 2]
  else []

/-- A partition is skipped: every element it serves is pruned (R392). -/
def Lane.partSkipped (L : Lane) (k : Nat) : Bool := !(partElems k).isEmpty && (partElems k).all L.pruned

/-- An element pruned, with what TRIO shows of cores and service pair. -/
def Lane.pruneAny (L : Lane) (e : Elem) : Lane :=
  if L.pruned e then L
  else match e with
  | .core c =>
    let K := L.pruneCore c
    if K.trioMode = 6 then K else K.setTrioMode (modeOfLive (pop3 K.soundCores)) K.soundCores
  | .svc => L.pruneSvc
  | .sram k =>
    let r := L.bankOut none k
    if r.2 && !L.active then r.1.pruneLane else r.1
  | e => L.prune e

/-- Bits of a 32-bit mask, lowest first. -/
def maskBits (p : Nat → Bool) : Nat := ((List.range 32).filter p).foldl (fun m k => m + 2 ^ k) 0

/-- The end of step `k` of Table 11.3, in ticks after entry. -/
def fallowEnd (k : Nat) : Nat := if k = 1 then ms 1000 else if k = 2 then ms 1007 else if k = 3 then ms 1033 else ms 1133

/-- A failed fallow: FALLOW_FAIL, the failing step, PRUNED (R395, Table 2.9). -/
def Lane.fallowFail (L : Lane) (step : Nat) : Lane :=
  let dur := satU 65535 ((L.now - L.test.fallowAt.getD L.now) / 200000)
  let L1 := (((L.put F.BIST_FRES_RESULT 2).put F.BIST_FRES_FSTEP step).put F.BIST_FRES_DONE 1).put F.BIST_FRES_DUR dur
  ((L1.note Ev.BIST_FALLOW_FAIL).onTest (fun t => { t with fallowAt := none, fbad := true })).pruneLane

/-- Logic BIST's outcome (R392, Table 11.4): partitions of pruned elements are skipped, a failed one prunes what it names. -/
def Lane.fallowBist (L : Lane) (parts : Nat) : Lane × Bool :=
  let skip := maskBits L.partSkipped
  let failed := maskBits (fun k => bit parts k && !bit skip k)
  let L1 := (L.setReg R.BIST_FPART failed).setReg R.BIST_FSKIP skip
  let L2 := (List.range 32).foldl (fun K k => if bit failed k then (partElems k).foldl Lane.pruneAny K else K) L1
  (L2, (List.range 32).any (fun k => bit failed k && (partElems k).isEmpty))

/-- What a step of the fallow test found takes its effect (Tables 11.3, 11.5): an element is pruned; a bridge takes the result of its
diagnostic, one reported not run keeps the earlier result; a failed switch latches its bridge or sets CHOP_FAULT. -/
def Lane.fallowFound (L : Lane) (f : FallowFind) : Lane :=
  match f with
  | .elem e => L.pruneAny e
  | .bridge b res => if bit res.toNat 3 then L else L.odResult b.val res.toNat
  | .switch sw => L.sopFail sw.val
  | .chopper => L.chopResult false

/-- The fallow's own replies: FALLOW_REQUEST commands for this lane end with the results of R395. -/
def Lane.endFallowCmds (L : Lane) (status : Nat) : Lane :=
  let res := bytesLE 2 (L.get F.BIST_FCOV_SA) ++ bytesLE 2 (L.get F.BIST_FCOV_TR) ++ bytesLE 4 (L.get F.BIST_FRES_DUR)
  (L.cmdq.queue.filter (fun c => c.live && c.op == 0x31 && c.phase == .running)).foldl
    (fun K c => K.finish c status (if status = St.DONE then res else [])) L

/-- FALLOW_STEP_END (R389 to R394): the step in progress ends at its time of Table 11.3. `parts` are the partitions whose MISR
differs (step 1), `found` what a later step found, `pass` the step's checks that concern the lane. -/
def execFallowStepEnd (l : LaneId) (parts : Word) (found : List FallowFind) (pass : Bool) (s : State) : Out :=
  s.on l (fun L => L.up && L.own == 2 && decide (1 ≤ L.test.fstep) && decide (L.test.fstep ≤ 4) && (match L.test.fallowAt with
      | some t => L.since t (fallowEnd L.test.fstep)
      | none => false)) (fun L =>
    let k := L.test.fstep
    let r := if k = 1 then L.fallowBist parts.toNat else (found.foldl Lane.fallowFound L, false)
    let L1 := r.1.onTest (fun t => { t with fstep := k + 1 })
    if r.2 then (L1.fallowFail 1).endFallowCmds St.DONE
    else if !pass then (L1.fallowFail (if k = 1 then 2 else k)).endFallowCmds St.DONE
    else L1)

/-- A fallow restart (R390) and the graft that follows: every logic-die block but BIST reset, memories wiped, the trio started from
boot ROM; the commands of R166 for this lane, the lane's age in the rotation and its attempts stay (log 30). -/
def Lane.fallowBoot (L : Lane) : Lane :=
  let keep := L.cmdq.queue.filter (fun c => c.live && keptOnLeave L.strap c)
  let fallow := L.reg R.OZL_FALLOW
  let att := L.get F.OZL_GRAFT_ATTEMPTS
  let chk := L.get F.OZL_GRAFT_CHKGRAFT
  let L1 := (logicBlks.filter (fun b => b.1 != .bist)).foldl (fun K b => (List.range b.2).foldl (fun M n => M.blockReset b.1 n) K) L
  let L2 := { L1.wipeMems with isolated := none, tokens := L1.tokens.filter (fun t => t.blk.isHedge || t.blk == Blk.bist) }
  let L3 := (L2.onCmdq (fun q => { q with queue := keep })).outst
  let L4 := ((L3.setReg R.OZL_FALLOW fallow).put F.OZL_GRAFT_ATTEMPTS att).put F.OZL_GRAFT_CHKGRAFT chk
  let L5 := ((L4.setStOf L.strap.next 7).setStOf L.strap.prev 7).onTest (fun t => { t with fallowAt := none, slice := none })
  L5.kernelVotes.startGraft

/-- Coverage of the partitions that ran (R395): 97.8 % and 91.2 % with none skipped; the BIST ROM's figures for the rest are not
stated, so the value is free (log 17). -/
def Lane.fallowCov (L : Lane) (k : Nat) : Nat × Nat :=
  if L.reg R.BIST_FSKIP = 0 then (978, 912) else (Config.freeNat k % 1001, Config.freeNat (k + 1) % 1001)

/-- FALLOW_RESTART (R390, R395): the tests are over and passed; the result is reported, the lane restarts and grafts. -/
def execFallowRestart (l : LaneId) (s : State) : Out :=
  let L := s.lane l
  if L.up && L.own == 2 && L.test.fstep == 5 && !L.test.fbad then
    let (k, s1) := s.draw
    let s2 := (s1.draw).2
    let cov := L.fallowCov k
    .next (s2.upd l (fun K =>
      let K1 := (((K.put F.BIST_FCOV_SA cov.1).put F.BIST_FCOV_TR cov.2).put F.BIST_FRES_RESULT 1).note Ev.BIST_FALLOW_PASS
      let K2 := if cov.1 < 975 ∨ cov.2 < 900 then K1.note Ev.BIST_FALLOW_LOWCOV else K1
      let t := K2.test.fallowAt
      (K2.fallowBoot).onTest (fun x => { x with fallowAt := t, fdone := true })))
  else .next s

/-- The graft after a passing fallow is complete, or has failed: DUR and DONE (Table 11.3). With it the lane has completed a fallow: AGE
and OVERDUE clear, NEXT names the lane (R103, R104). -/
def Lane.fallowClose (L : Lane) (ok : Bool) : Lane :=
  match L.test.fallowAt with
  | some t =>
    if L.test.fdone then
      let L1 := ((L.put F.BIST_FRES_DUR (satU 65535 ((L.now - t) / 200000))).put F.BIST_FRES_DONE 1).onTest
        (fun x => { x with fallowAt := none, fdone := false, fstep := 0 })
      let L2 := if ok then
          (((L1.put F.OZL_FALLOW_AGE 0).put F.OZL_FALLOW_OVERDUE 0).put F.OZL_FALLOW_NEXT L.strap.idx).onOzl (fun o => { o with
            fallowDone := L.mtN, opMarks := 0 })
        else (L1.put F.BIST_FRES_RESULT 2).put F.BIST_FRES_FSTEP 5
      L2.endFallowCmds St.DONE
    else L
  | none => L

/-- The fallow of lane `l` must stop: a peer has left the membership, or demand exceeds the fallow conditions; one of the key-off
fallows, whose demand conditions are waived, at a wake during the sequence (R105, Table 2.9). -/
def fallowHit (s : State) (l : LaneId) : Bool :=
  let P := s.lane l.next
  let Q := s.lane l.prev
  !P.active || !Q.active || (if (s.lane l).test.fallowKey then !(P.pwr.keyOff && Q.pwr.keyOff) else !(P.demandLow && Q.demandLow))

/-- FALLOW_ABORT (R94, R395): RESULT 3, the lane re-initialised, its graft starts. -/
def execFallowAbort (l : LaneId) (s : State) : Out :=
  s.on l (fun L => L.up && L.own == 2 && fallowHit s l) (fun L =>
    let dur := satU 65535 ((L.now - L.test.fallowAt.getD L.now) / 200000)
    let L1 := ((L.put F.BIST_FRES_RESULT 3).put F.BIST_FRES_DONE 1).put F.BIST_FRES_DUR dur
    (L1.endFallowCmds St.ABORTED).fallowBoot)

end Sys2Proof.Machine
end

