-- ==== Sys2Proof/Machine/Therm.lean ====
section
/-!
DEFINITION. Machine/Therm.lean: the commands of Temperature and thermal limits (16): the furrow round, neighbour checks and
throttling in HK, the hard-wired shutdown in THS. Temperatures in 1/16 degree.
-/

namespace Sys2Proof.Machine

/-- HK's and THS's hidden states changed by a function. -/
def Lane.onHk (L : Lane) (f : HkSt → HkSt) : Lane := { L with hk := f L.hk }
def Lane.onThs (L : Lane) (f : ThsSt → ThsSt) : Lane := { L with ths := f L.ths }

/-- Every list entry `i` a number. -/
def nAt (l : List Nat) (i : Nat) : Nat := l.getD i 0

/-! ### Hard-wired shutdown (R508 to R513) -/

/-- Fused kind of an input, 0 for none. -/
def Lane.tdKind (L : Lane) (n : Nat) : Nat := if L.fbit F.THS_TDK_FUSED n then bits (L.get F.THS_TDK_KIND) (2 * n) 2 else 0

/-- DIE_SD (R508): the outputs of the comparators of TH_0 and TH_1 at T_SD; one that newly trips stops all four bridges. -/
def execDieSd (l : LaneId) (hot : BitVec 2) (s : State) : Out :=
  s.on l Lane.hedgeUp (fun L =>
    let new := [0, 1].any (fun i => bit hot.toNat i && !L.fbit F.THS_STAT_DIEHOT i)
    let L1 := L.put F.THS_STAT_DIEHOT hot.toNat
    if new then
      (((L1.put F.THS_STAT_DIESD 1).note Ev.THS_DIE_SD).onThs (fun t => { t with dieAt := L.now })).gates
    else L1)

/-- A bridge stopped by its TD input (R509). -/
def Lane.tdTrip (L : Lane) (n : Nat) : Lane :=
  ((L.putBit F.THS_STAT_TDSD n true).note Ev.THS_TD_SD).onThs (fun t => { t with tdAt := t.tdAt.set n L.now }) |>.gates

/-- A measurement of a fused TD input judged by THS (R509, R510). Two in a row beyond 1,900 count as two past TRIP (log 151). -/
def Lane.tdJudge (L : Lane) (n : Nat) (raw : Int) : Lane :=
  let kind := L.tdKind n
  if kind = 0 then L
  else
    let trip := L.getS F.THS_TDF_TRIP 0 n
    let clr := L.getS F.THS_TDF_CLEAR 0 n
    let beyond := if 1900 < raw.natAbs then min 2 (nAt L.ths.beyond n + 1) else 0
    let opens := beyond == 2
    let pastTrip := if kind = 2 then decide (raw ≤ trip) else decide (trip ≤ raw)
    let pastClear := (if kind = 2 then decide (clr ≤ raw) else decide (raw ≤ clr)) && beyond == 0
    let p := if opens then 2 else if pastTrip then min 2 (nAt L.ths.past n + 1) else 0
    let c := if pastClear then min 2 (nAt L.ths.clear n + 1) else 0
    let L1 := L.onThs (fun t => { t with beyond := t.beyond.set n beyond, past := t.past.set n p, clear := t.clear.set n c })
    let L2 := if opens && !L1.fbit F.THS_STAT_OPEN n then (L1.putBit F.THS_STAT_OPEN n true).note Ev.THS_TD_OPEN else L1
    if p = 2 then
      if L2.fbit F.THS_STAT_TDSD n then L2.onThs (fun t => { t with tdAt := t.tdAt.set n L.now }) else L2.tdTrip n
    else L2

/-- THS_RESTART (R508, R509, R511, R512): each thermal stop whose clear condition holds and whose 100 ms are over clears. `warm`:
the sensors not below T_RS. -/
def execThsRestart (l : LaneId) (warm : BitVec 2) (s : State) : Out :=
  s.on l Lane.hedgeUp (fun L =>
    let L1 := if L.is F.THS_STAT_DIESD && warm == 0 && L.get F.THS_STAT_DIEHOT == 0 && L.since L.ths.dieAt (ms 100) then
        L.put F.THS_STAT_DIESD 0 else L
    let one (K : Lane) (n : Nat) : Lane :=
      if K.fbit F.THS_STAT_TDSD n && nAt K.ths.clear n == 2 && K.since (nAt K.ths.tdAt n) (ms 100) then
        (K.putBit F.THS_STAT_TDSD n false).putBit F.THS_STAT_OPEN n false
      else K
    let L2 := [0, 1, 2, 3].foldl one L1
    let L3 := if L2.is F.THS_STAT_REFSD && decide (3 ≤ L2.ths.refGood) && L2.since L2.ths.refAt (ms 100) then L2.put F.THS_STAT_REFSD 0
      else L2
    L3.gates)

/-- TD_FUSE (R513): a write of THS_TDFUSE with its key starts fusing an input under the conditions of R257, or is refused. -/
def execTdFuse (l : LaneId) (m : Master) (val : Word) (vbatMv : Nat) (s : State) : Out :=
  s.on l (fun L => L.hedgeUp && bits val.toNat 0 16 == 0x7D1E) (fun L =>
    let n := bits val.toNat 16 2
    let kind := bits val.toNat 18 2
    if m == .trioM && L.get F.SYS_LC_STATE == 1 && !L.fbit F.GD_VCMD_ENA n && !L.fbit F.GD_VCMD_ASC n &&
        decide (8000 ≤ vbatMv) && !L.fbit F.THS_TDK_FUSED n && !bit L.ths.failed.toNat n && L.ths.fuse.isNone then
      L.onThs (fun t => { t with fuse := some ⟨n, kind, L.reg R.THS_TDFVAL, L.now⟩ })
    else L.note Ev.THS_TD_LOCKED)

/-- TD_FUSE_DONE (R513): programming ends after 2 ms; a read-back that differs from the request leaves the input unwatched for good. -/
def execTdFuseDone (l : LaneId) (kind : BitVec 2) (val : Word) (s : State) : Out :=
  s.on l (fun L => L.hedgeUp && match L.ths.fuse with
      | some f => L.since f.at_ (ms 2)
      | none => false) (fun L =>
    match L.ths.fuse with
    | none => L
    | some f =>
      let n := f.input
      let L1 := L.onThs (fun t => { t with fuse := none, past := t.past.set n 0, clear := t.clear.set n 0, beyond := t.beyond.set n 0 })
      if kind.toNat = f.kind ∧ val.toNat = f.val then
        let L2 := (L1.put F.THS_TDK_KIND (putBits (L1.get F.THS_TDK_KIND) (2 * n) 2 f.kind)).putBit F.THS_TDK_FUSED n true
        (L2.setReg R.THS_TDF f.val 0 n).note Ev.THS_TD_FUSED
      else
        (L1.onThs (fun t => { t with failed := BitVec.ofNat 4 (putBits t.failed.toNat n 1 1) })).note Ev.THS_TD_FUSE_ERR)

/-! ### The furrow round (R499 to R502) -/

/-- A slice of class 0x09 runs: no slot is measured (R502). -/
def Lane.icvSliced (L : Lane) : Bool := L.isolated == some Elem.icv

/-- FURROW_ROUND (R499): a round starts at each multiple of 1,200,000 ticks of the Hedge's module time; in parked sleep the ICV is off
(R493). -/
def execFurrowRound (l : LaneId) (s : State) : Out :=
  s.on l (fun L => L.hedgeUp && L.rst.phase != .parked && L.link.hedgeMt.toNat % 1200000 == 0) (fun L =>
    let L1 := L.onThs (fun t => { t with round := some ⟨L.now, 0, L.icvSliced, false⟩ })
    if L1.logicOn then (L1.put F.HK_ROUND_SLOT 0).onHk (fun h => { h with ldWarm := false }) else L1)

/-- The kind of a TD input as HK works with it: KIND, or the fused kind (R498). -/
def Lane.hkKind (L : Lane) (n : Nat) : Nat :=
  let k := L.get F.HK_TD_CFG_KIND 0 n
  if L.fbit F.THS_TDK_FUSED n then L.tdKind n else if k = 3 then 0 else k

/-- The TD input a slot carries (Table 16.3). -/
def slotTd (i : Nat) : Option Nat :=
  if 2 ≤ i ∧ i ≤ 5 then some (i - 2) else if 14 ≤ i ∧ i ≤ 17 then some (i - 14) else none

/-- The sensor a slot reads: index of Table 16.1. -/
def slotSensor (i : Nat) : Option Nat :=
  if i = 1 then some 2 else if i = 13 then some 3 else (slotTd i).map (fun n => n + 4)

/-- Operating conditions of the supply a slot carries, in 10 mV (Table 18.10): VBAT_x, with bridges in service from 9 V, and
VM_x. The table names no other supply of Table 16.3. -/
def Lane.slotRange (L : Lane) (i : Nat) : Option (Int × Int) :=
  if i = 6 then some (if L.get F.GD_VCMD_ENA = 0 then 600 else 900, 4000)
  else if i = 18 then some (600, 6000)
  else none

/-- A slot's RAW at HK: HK_SLOT_s with its converted value; a supply out of range is recorded (R500). -/
def Lane.slotTake (L : Lane) (i : Nat) (raw : Int) : Lane :=
  let td := slotTd i
  let kind := match td with
    | some n => L.hkKind n
    | none => 0
  let n := td.getD 0
  let v := Config.hkConv i kind (L.get F.HK_TD_CFG_NF 0 n) (L.get F.HK_TD_CFG_B 0 n) raw
  let L1 := (L.putS F.HK_SLOT_RAW (satS 16 raw) 0 i).putS F.HK_SLOT_VAL (satS 16 v) 0 i
  let L2 := match slotSensor i with
    | some k => L1.onHk (fun h => { h with own := h.own.set k (clampI (-1024) 4000 v) })
    | none => L1
  match L.slotRange i with
  | some (lo, hi) => if v < lo ∨ hi < v then L2.note Ev.HK_SUPPLY_RANGE else L2
  | none => L2

/-- A slot's count at the Hedge: REFH and REFZ kept, a TD input judged by THS at once (R501, R509). -/
def Lane.slotHedge (L : Lane) (i : Nat) (raw : Int) : Lane :=
  match slotTd i with
  | some n => L.tdJudge n raw
  | none => if i = 0 then L.onThs (fun t => { t with refH := raw }) else if i = 12 then L.onThs (fun t => { t with refZ := raw }) else L

/-- FURROW_SLOT (R499, R500, R502, R509): the slot in progress ends with its count; THS judges it at once, HK takes the result when the
link is up. During a slice of the ICV nothing is measured, up to the first slot boundary after it. -/
def execFurrowSlot (l : LaneId) (raw : Int) (s : State) : Out :=
  s.on l (fun L => L.hedgeUp && match L.ths.round with
      | some r => L.since r.startAt (50000 * (r.slot + 1)) && !r.endDue
      | none => false) (fun L =>
    match L.ths.round with
    | none => L
    | some r =>
      let L1 :=
        if r.held || L.icvSliced then
          if L.is F.HK_ROUND_HELD || !L.logicOn then L else (L.put F.HK_ROUND_HELD 1).note Ev.HK_ROUND_HELD
        else
          let K := L.slotHedge r.slot raw
          if K.logicOn && K.link.trained then (K.put F.HK_ROUND_HELD 0).slotTake r.slot raw else K
      let next : FurrowRun := if r.slot = 23 then { r with endDue := true } else { r with slot := r.slot + 1, held := L.icvSliced }
      let L2 := L1.onThs (fun t => { t with round := some next })
      if L2.logicOn then L2.put F.HK_ROUND_SLOT next.slot else L2)

/-- The reference check of a round (R501): REFH at 0.8 of full scale and REFZ at zero, each within 0.5 % of full scale, which is
2,000 counts (log 25). -/
def refPass (refH refZ : Int) : Bool := decide ((refH - 1600).natAbs ≤ 10) && decide (refZ.natAbs ≤ 10)

/-- HK's part of the reference check: REFOK, which outcome decisions use, and REF_DRIFT after three rounds that fail (R501). -/
def Lane.refHk (L : Lane) : Lane :=
  let ok := refPass (L.getS F.HK_SLOT_RAW 0 0) (L.getS F.HK_SLOT_RAW 0 12)
  let hb := if ok then 0 else L.hk.refBad + 1
  let L1 := (L.putB F.HK_ROUND_REFOK ok).onHk (fun h => { h with refBad := if hb = 3 then 0 else hb })
  let L2 := { L1 with icv := { L1.icv with refOk := ok } }
  if hb = 3 then L2.transient Ev.HK_REF_DRIFT 0 8 else L2

/-- THS's part, on its own counts: after three rounds that fail the bridges with a fused input stop (R511). -/
def Lane.refThs (L : Lane) : Lane :=
  let ok := refPass L.ths.refH L.ths.refZ
  let bad := if ok then 0 else min 3 (L.ths.refBad + 1)
  let good := if ok then min 3 (L.ths.refGood + 1) else 0
  let L1 := L.onThs (fun t => { t with refBad := bad, refGood := good, refAt := if bad = 3 then L.now else t.refAt })
  if bad = 3 && !L1.is F.THS_STAT_REFSD then ((L1.put F.THS_STAT_REFSD 1).note Ev.THS_THS_REF).gates else L1

/-! ### Neighbours and values in use (R503 to R505) -/

/-- A sensor is neither SUSPECT, pruned nor OPEN. -/
def Lane.sensOk (L : Lane) (i : Nat) : Bool :=
  !L.is F.HK_TEMP_SUSPECT 0 i && !L.is F.HK_TEMP_PRUNED 0 i && !L.is F.HK_TEMP_OPEN 0 i

/-- The neighbours of a sensor; bit i of its own set is ignored. -/
def Lane.nbrs (L : Lane) (i : Nat) : List Nat := (List.range 8).filter (fun j => j != i && L.fbit F.HK_NBR_SET j 0 i)

/-- The reading of a sensor. -/
def Lane.ownTemp (L : Lane) (i : Nat) : Int := L.hk.own.getD i 0

/-- The neighbour check of one sensor at a round end (R503, R505). -/
def Lane.nbrCheck (L : Lane) (i : Nat) : Lane :=
  let band := let b := L.get F.HK_NBR_BAND 0 i; if b = 0 then 1 else b
  let cs := (L.nbrs i).filter (fun j => L.hk.okPrev.getD j true)
  if L.get F.HK_NBR_SET 0 i = 0 ∨ cs.isEmpty then L
  else
    let near := cs.any (fun j => decide ((L.ownTemp i - L.ownTemp j).natAbs ≤ 16 * band))
    let a := if near then 0 else nAt L.hk.apart i + 1
    let n := if near then nAt L.hk.near i + 1 else 0
    let L1 := L.onHk (fun h => { h with apart := h.apart.set i a, near := h.near.set i n })
    if 3 ≤ a && !L1.is F.HK_TEMP_SUSPECT 0 i then
      let L2 := L1.put F.HK_TEMP_SUSPECT 1 0 i
      if L2.is F.HK_TEMP_PRUNED 0 i then L2.note Ev.HK_SENS_SUSPECT
      else
        let r := L2.transientRaw Ev.HK_SENS_SUSPECT 0 i
        if r.2 then r.1.put F.HK_TEMP_PRUNED 1 0 i else r.1
    else if 10 ≤ n && L1.is F.HK_TEMP_SUSPECT 0 i then (L1.put F.HK_TEMP_SUSPECT 0 0 i).note Ev.HK_SENS_CLEAR
    else L1

/-- A highest reading, none of an empty list. -/
def maxTemp : List Int → Option Int
  | [] => none
  | a :: t => some (t.foldl max a)

/-- The value in use of a sensor (R504); none when no sensor of the lane qualifies. -/
def Lane.inUse (L : Lane) (i : Nat) : Option Int :=
  if L.sensOk i then some (L.ownTemp i)
  else
    match maxTemp (((L.nbrs i).filter L.sensOk).map L.ownTemp) with
    | some v => some v
    | none => maxTemp (((List.range 8).filter L.sensOk).map L.ownTemp)

/-- HK_TEMP_i.USE brought up to date. -/
def Lane.useShow (L : Lane) (i : Nat) : Lane :=
  match L.inUse i with
  | some v => L.putS F.HK_TEMP_USE (satS 16 v) 0 i
  | none => L

/-! ### Throttling (R506) -/

/-- The throttle step of a bridge from its present step and governing temperature. -/
def throttleStep (tstart tstep step : Nat) (t : Int) : Nat :=
  let e (k : Nat) : Int := 16 * ((tstart + (k - 1) * (if tstep = 0 then 1 else tstep) : Nat) : Int)
  let up := if e 4 ≤ t then 4 else if e 3 ≤ t then 3 else if e 2 ≤ t then 2 else if e 1 ≤ t then 1 else 0
  let keep := ([4, 3, 2, 1].find? (fun k => decide (k ≤ step) && decide (e k - 80 ≤ t))).getD 0
  max up keep

/-- The throttle step of a bridge at a round end: step 4 when no sensor of the lane qualifies (R504, R506). -/
def Lane.throttle (L : Lane) (b : Nat) : Lane :=
  let old := L.get F.HK_THR_STEP 0 b
  let ids := if L.hkKind b = 0 then [2, 3] else [4 + b, 2, 3]
  let new := match maxTemp (ids.filterMap L.inUse) with
    | some t => throttleStep (L.get F.HK_THR_TSTART 0 b) (L.get F.HK_THR_TSTEP 0 b) old t
    | none => 4
  if new = old then L else (L.put F.HK_THR_STEP new 0 b).note Ev.HK_THROTTLE

/-- ROUND_END (R501, R503 to R507, R511, R519): the reference check, the neighbours, the values in use, throttling, LDHOT and the
rainflow count. -/
def execRoundEnd (l : LaneId) (s : State) : Out :=
  s.on l (fun L => L.hedgeUp && match L.ths.round with
      | some r => r.endDue
      | none => false) (fun L =>
    let L1 := (L.onThs (fun t => { t with round := none })).refThs
    if !L1.logicOn then L1
    else
      let L2 := [0, 1, 2, 3].foldl (fun K n => K.putB F.HK_TEMP_OPEN (K.fbit F.THS_STAT_OPEN n) 0 (4 + n)) L1.refHk
      let L3 := (List.range 8).foldl Lane.nbrCheck L2
      let L4 := (List.range 8).foldl Lane.useShow L3
      let L5 := if ((List.range 8).filter L4.sensOk).isEmpty then L4.note Ev.HK_NO_HEALTHY else L4
      let L6 := [0, 1, 2, 3].foldl Lane.throttle L5
      let L7 := if L6.is F.HK_LD_LDHOT && !L6.hk.ldWarm then L6.put F.HK_LD_LDHOT 0 else L6
      let L8 := (L7.onHk (fun h => { h with okPrev := (List.range 8).map L7.sensOk })).incMod F.HK_ROUND_COUNT
      (L8.rfTake (max (L8.getS F.HK_TEMP_USE 0 2) (L8.getS F.HK_TEMP_USE 0 3))).pulse 75)

/-- TL_SAMPLE (R507): HK reads the logic-die sensors every 1 ms; above LDLIM sets LDHOT. -/
def execTlSample (l : LaneId) (t0 t1 : Int) (s : State) : Out :=
  s.on l Lane.up (fun L =>
    let lim : Int := 16 * (L.get F.HK_LD_LDLIM : Nat)
    let L1 := L.onHk (fun h => { h with
      own := (h.own.set 0 (clampI (-1024) 4000 t0)).set 1 (clampI (-1024) 4000 t1)
      ldWarm := h.ldWarm || decide (lim - 80 < t0) || decide (lim - 80 < t1) })
    if (lim < t0 ∨ lim < t1) ∧ !L1.is F.HK_LD_LDHOT then (L1.put F.HK_LD_LDHOT 1).note Ev.HK_LD_HOT else L1)

/-- The throttle steps taken over by the drive engines at a vote boundary (R506). -/
def Lane.thrBoundary (L : Lane) : Lane :=
  [0, 1, 2, 3].foldl (fun K b => K.put F.DRV_LIMEFF_THR (K.get F.HK_THR_STEP 0 b) b) L

end Sys2Proof.Machine
end

