-- ==== Sys2Proof/Machine/Can.lean ====
section
/-!
DEFINITION. Machine/Can.lean: the commands of CAN controllers (12).
-/

namespace Sys2Proof.Machine

/-- The controller takes part in bus traffic: powered, enabled, integrated, in service, not bus-off (R416, R421). -/
def Lane.canLive (L : Lane) (n : Nat) : Bool :=
  L.up && L.domOn 10 && L.is F.CAN_MODE_EN n && (L.canSt n).intg && !L.outOfService (.can n) && !L.is F.CAN_ERR_BO n

/-- Error passive shown and recorded when a counter reaches 128 (R416). -/
def Lane.canPassive (L : Lane) (n : Nat) : Lane :=
  let ep := decide (128 ≤ L.get F.CAN_ERR_TEC n) || decide (128 ≤ L.get F.CAN_ERR_REC n)
  let L1 := L.putB F.CAN_ERR_EP ep n
  if ep && !L.is F.CAN_ERR_EP n then L1.note Ev.CAN_ERR_PASSIVE n else L1

/-- A transmit error: TEC up by 8; above 255 bus-off (R416). -/
def Lane.tecUp (L : Lane) (n : Nat) : Lane :=
  let t := L.get F.CAN_ERR_TEC n + 8
  let L1 := (L.put F.CAN_ERR_TEC (satU 255 t) n).canPassive n
  if 255 < t then
    ((L1.put F.CAN_ERR_BO 1 n).onCan n (fun c => { c with tx := none, recovering := false })).transient Ev.CAN_BUS_OFF n
  else L1

/-- A successful reception lowers REC; above 127 it is set to a value from 119 to 127, which the standard leaves open. -/
def Lane.recDown (L : Lane) (n pick : Nat) : Lane :=
  let r := L.get F.CAN_ERR_REC n
  (L.put F.CAN_ERR_REC (if 127 < r then 119 + pick % 9 else r - 1) n).canPassive n

/-- CAN_RX_FRAME (R406, R412, R413, R416, R418): a frame reaches its point of validity, or ends with an error of LEC code `err`. -/
def execCanRxFrame (l : LaneId) (n : Fin 4) (f : CanFrame) (err : BitVec 3) (s : State) : Out :=
  let d := s.draw
  .next (if (s.lane l).canLive n.val && !(s.lane l).is F.CAN_MODE_LBACK n.val then
    d.2.upd l (fun L =>
      let k := n.val
      if (f.fmt = 1 ∧ !L.is F.CAN_MODE_FDOE k) ∨ (f.fmt = 2 ∧ !L.is F.CAN_MODE_XLOE k) then
        (L.note Ev.CAN_PROT_EXC k).onCan k (fun c => { c with intg := false })
      else if err ≠ 0 then
        ((L.put F.CAN_ERR_LEC err.toNat k).incSat F.CAN_ERR_REC k).canPassive k
      else ((L.recDown k (Config.freeNat d.1)).canStore k f).canTraffic k)
  else s)

/-- OBJ_LOCK_READ (R411): a read of word 0x00 takes a free lock for its master. -/
def execObjLockRead (l : LaneId) (n : Fin 4) (m : Fin 128) (by_ : Master) (s : State) : Out :=
  s.on l (fun L => L.up && L.domOn 10) (fun L =>
    let L1 := match (L.canSt n.val).lockOf m.val with
      | some _ => L
      | none => (L.op n.val m.val 0 18 1 1).onCan n.val (fun c => { c with locks := c.locks ++ [({ obj := m.val, who := by_, at_ := L.now } : RdLock)] })
    L1.onCmdq (fun q => { q with busData := L.memWord (objAddr n.val m.val 0) }))

/-- OBJ_UNLOCK_READ (R411, R412): a read of word 0x7C by the holding master releases the lock and clears NEWDAT and MSGLST, then
the held frames are written. -/
def execObjUnlockRead (l : LaneId) (n : Fin 4) (m : Fin 128) (by_ : Master) (s : State) : Out :=
  s.on l (fun L => L.up && L.domOn 10) (fun L =>
    let L1 := match (L.canSt n.val).lockOf m.val with
      | some k => if k.who = by_ then ((L.op n.val m.val 0 16 2 0)).objRelease n.val m.val else L
      | none => L
    L1.onCmdq (fun q => { q with busData := L.memWord (objAddr n.val m.val 0x7C) }))

/-- TXRQ (R410, R414, R418): a write of TXRQ_k requests transmission of the objects its bits name. -/
def execTxrq (l : LaneId) (n : Fin 4) (k : Fin 4) (mask : Word) (s : State) : Out :=
  s.on l (fun L => L.up && L.domOn 10) (fun L =>
    ((List.range 32).foldl (fun K i => if bit mask.toNat i then K.objRequest n.val (32 * k.val + i) else K) L).canVote n.val)

/-- A cancel of one object (R414): at once, or late while its frame is on the bus. -/
def Lane.objCancel (L : Lane) (n m : Nat) : Lane :=
  let c := L.canSt n
  let L1 := L.onCan n (fun c => { c with cancNow := (L.now, if c.cancNow.1 = L.now then m :: c.cancNow.2 else [m]) })
  if c.tx = some m then L1.onCan n (fun c => { c with cancels := if c.cancels.contains m then c.cancels else m :: c.cancels })
  else if L.og n m 0 19 1 = 1 then (L1.op n m 0 22 1 0).objEnd n m 3
  else L1

/-- TXCAN (R414): a write of TXCAN_k cancels the objects its bits name. -/
def execTxcan (l : LaneId) (n : Fin 4) (k : Fin 4) (mask : Word) (s : State) : Out :=
  s.on l (fun L => L.up && L.domOn 10) (fun L =>
    (List.range 32).foldl (fun K i => if bit mask.toNat i then K.objCancel n.val (32 * k.val + i) else K) L)

/-- The arbitration field of a frame as it is compared bit by bit, a dominant bit being 0: base identifier, RTR or SRR, IDE,
identifier extension, RTR, format (ISO 11898-1; log 22). -/
def arbKey (f : CanFrame) : Nat :=
  let base := f.id.toNat / 2 ^ 18
  let low := f.id.toNat % 2 ^ 18
  let fmt := f.fmt.val
  if f.ide then ((base * 2 + 1) * 2 + 1) * 2 ^ 21 + (low * 2 + b2n f.rtr) * 4 + fmt
  else ((base * 2 + b2n f.rtr) * 2 + 0) * 2 ^ 21 + fmt

/-- The object that would be sent next: pending and unlocked, by identifier or by number (R414). -/
def Lane.arbWinner (L : Lane) (n : Nat) : Option Nat :=
  let cand := (List.range 128).filter (fun m => L.og n m 0 19 1 == 1 && ((L.canSt n).lockOf m).isNone)
  if L.is F.CAN_MODE_TXPRIO n then cand.head?
  else cand.foldl (fun best m => match best with
    | none => some m
    | some b => if arbKey (L.objFrame n m 0) < arbKey (L.objFrame n b 0) then some m else some b) none

/-- ARBITRATION (R413, R414): at the end of an intermission the winner is chosen; an object with an uncorrectable word, found
now (`memErr`) or poisoned, is not started and ends with TXRES 2. -/
def execArbitration (l : LaneId) (n : Fin 4) (memErr : Bool) (s : State) : Out :=
  s.on l (fun L => L.canLive n.val && !L.is F.CAN_MODE_LISTEN n.val && (L.canSt n.val).tx.isNone) (fun L =>
    match L.arbWinner n.val with
    | none => L
    | some m =>
      let bad := if memErr then some (objAddr n.val m 0) else L.objPoison n.val m
      match bad with
      | some a => ((((L.memUe a false false).1).objEnd n.val m 2).transient Ev.CAN_MEMERR n.val).canVote n.val
      | none => L.onCan n.val (fun c => { c with tx := some m }))

/-- A late cancel comes to nothing: CANCEL_LATE (R414). -/
def Lane.lateCancel (L : Lane) (n m : Nat) : Lane :=
  ((L.op n m 0 22 1 1).incSat F.CAN_CNT_LATE n).note Ev.CAN_CANCEL_LATE n

/-- A failed attempt: not retried with ONESHOT, after a late cancel, or where `final`. -/
def Lane.txFail (L : Lane) (n m : Nat) (final : Bool) : Lane :=
  let late := (L.canSt n).cancels.contains m
  let L1 := if late then L.lateCancel n m else L
  if late || final || L.og n m 0 2 1 == 1 then L1.objEnd n m 2 else L1

/-- The loop delay measured in a frame with FDF (R408). -/
def Lane.tdcShow (L : Lane) (n fmt tdcv : Nat) : Lane :=
  if fmt = 0 then L
  else
    let v := satU 255 tdcv
    let L1 := L.put F.CAN_TDC_TDCV v n
    let o := if fmt = 2 then L.get F.CAN_TDC_XTDCO n else L.get F.CAN_TDC_TDCO n
    if L.is F.CAN_TDC_TDCEN n && decide (255 < v + o) then L1.note Ev.CAN_TDC_RANGE n else L1

/-- CAN_TX_END (R408, R414 to R416, R418): the frame on the bus was sent, lost arbitration, or ended with an error. -/
def execCanTxEnd (l : LaneId) (n : Fin 4) (res : CanTxRes) (ts : Word) (tdcv : Nat) (s : State) : Out :=
  s.on l (fun L => L.canLive n.val && (L.canSt n.val).tx.isSome) (fun L0 =>
    let k := n.val
    match (L0.canSt k).tx with
    | none => L0
    | some m =>
      let f := L0.objFrame k m ts
      let L := (L0.onCan k (fun c => { c with tx := none })).tdcShow k f.fmt.val tdcv
      let late := (L0.canSt k).cancels.contains m
      match res with
      | .sent =>
        let L1 := if late then L.lateCancel k m else L
        let L2 := ((L1.op k m 0 23 1 0).op k m 0 25 3 0).op k m 0x18 0 32 ts.toNat
        let L2 := (if f.fmt = 2 then L2 else L2.op k m 0x14 12 4 f.dlc.toNat).objEnd k m 1
        let L3 := (L2.put F.CAN_ERR_TEC (L2.get F.CAN_ERR_TEC k - 1) k).canPassive k
        let L4 := if L3.is F.CAN_MODE_LBACK k then L3.canStore k f else L3
        L4.canTraffic k
      | .lost =>
        let L1 := L.op k m 0 23 1 0
        if late then (L1.op k m 0 22 1 0).objEnd k m 3 else if L1.og k m 0 2 1 = 1 then L1.objEnd k m 2 else L1
      | .collide lec =>
        let c := L.og k m 0 25 3
        let L1 := ((((L.op k m 0 23 1 1).op k m 0 25 3 (satU 4 (c + 1))).incSat F.CAN_CNT_COLL k).put F.CAN_ERR_LEC lec.toNat k).note
          Ev.CAN_ID_COLLIDE k
        let L2 := if c = 3 then (L1.op k m 0 24 1 1).note Ev.CAN_ID_COLLIDE_STICKY k else L1
        let L3 := L2.txFail k m (L2.is F.CAN_MODE_ONE_SHOT_ON_COLLIDE k)
        if f.fmt = 2 ∧ L3.is F.CAN_MODE_XLTMS k then L3.onCan k (fun c => { c with intg := false }) else L3.tecUp k
      | .error lec =>
        let L1 := ((L.op k m 0 23 1 0).op k m 0 25 3 0).put F.CAN_ERR_LEC lec.toNat k
        let L2 := L1.txFail k m false
        if f.fmt = 2 ∧ L2.is F.CAN_MODE_XLTMS k then L2.onCan k (fun c => { c with intg := false })
        else if lec = 3 ∧ L2.is F.CAN_ERR_EP k then L2
        else L2.tecUp k)

/-- CAN<n>STB_x is high: the external transceiver of a controller that takes no part stands by (R416, R417). -/
def Lane.canStb (L : Lane) (n : Nat) : Bool := !L.is F.CAN_MODE_EN n || L.outOfService (.can n) || !L.domOn 10

/-- RECOVER (R416): a write of ERR.RECOVER starts bus-off recovery with BOAUTO = 0. -/
def execRecover (l : LaneId) (n : Fin 4) (s : State) : Out :=
  s.on l (fun L => L.up && L.domOn 10 && L.is F.CAN_ERR_BO n.val && !L.is F.CAN_MODE_BOAUTO n.val) (fun L =>
    L.onCan n.val (fun c => { c with recovering := true }))

/-- BUS_OFF_RECOVERY (R416): after 128 occurrences of 11 recessive bits the controller is error active again. -/
def execBusOffRecovery (l : LaneId) (n : Fin 4) (s : State) : Out :=
  s.on l (fun L => L.up && L.domOn 10 && L.is F.CAN_MODE_EN n.val && L.is F.CAN_ERR_BO n.val &&
      (L.is F.CAN_MODE_BOAUTO n.val || (L.canSt n.val).recovering)) (fun L =>
    let k := n.val
    ((((L.put F.CAN_ERR_BO 0 k).put F.CAN_ERR_EP 0 k).put F.CAN_ERR_TEC 0 k).put F.CAN_ERR_REC 0 k).onCan k
      (fun c => { c with recovering := false, intg := true }))

/-- A wake by the controller's filter: CAUSE, WOKE, WAKE once the domain is ON (R419, R420). -/
def Lane.canWoke (L : Lane) (n cause : Nat) : Lane :=
  (((L.put F.CAN_WKSTAT_CAUSE cause n).put F.CAN_WKSTAT_WOKE 1 n).onCan n (fun c => { c with woke := true })).wake cause n

/-- CAN_WAKE_EDGE (R419): a dominant level for WFILT us with WMODE 1. -/
def execCanWakeEdge (l : LaneId) (n : Fin 4) (s : State) : Out :=
  s.on l (fun L => L.hedgeUp && L.asleep && L.get F.CAN_WAKE_WMODE n.val == 1) (fun L => L.canWoke n.val 1)

/-- The frame is a wake frame (R420). -/
def Lane.isWakeFrame (L : Lane) (n : Nat) (f : CanFrame) : Bool :=
  let x := f.id.toNat ^^^ L.get F.CAN_WKID_ID n
  let byteOk (i : Nat) : Bool :=
    let d := (f.data.getD i 0).toNat
    let want := bits (L.reg R.CAN_WKDATA n (i / 4)) (8 * (i % 4)) 8
    let mask := bits (L.reg R.CAN_WKDMASK n (i / 4)) (8 * (i % 4)) 8
    ((d ^^^ want) &&& mask) == 0
  f.fmt == 0 && !f.rtr && (x &&& L.get F.CAN_WKMASK_ID n) == 0 && f.ide == L.is F.CAN_WKID_IDE n &&
    (!L.is F.CAN_WAKE_WDLCEN n || f.dlc.toNat == L.get F.CAN_WAKE_WDLC n) && (List.range 8).all byteOk

/-- CAN_WAKE_FRAME (R420): the wake filter decoded a frame; wake with cause 2, or with cause 3 when FEC reaches 32. -/
def execCanWakeFrame (l : LaneId) (n : Fin 4) (w : WakeIn) (s : State) : Out :=
  s.on l (fun L => L.hedgeUp && L.asleep && L.get F.CAN_WAKE_WMODE n.val == 2) (fun L =>
    let k := n.val
    let fec := L.get F.CAN_WKSTAT_FEC k
    match w with
    | .data f =>
      let L1 := L.put F.CAN_WKSTAT_FEC (fec - 1) k
      if L1.isWakeFrame k f then L1.canWoke k 2 else L1
    | .other => L.put F.CAN_WKSTAT_FEC (fec - 1) k
    | .skipped => L
    | .error =>
      let L1 := L.put F.CAN_WKSTAT_FEC (satU 32 (fec + 1)) k
      if fec = 31 then L1.canWoke k 3 else L1)

/-- Cycles of a bit from its register fields. -/
def bitCycles (brp t1 t2 : Nat) : Nat := (1 + (t1 + 1) + (t2 + 1)) * (brp + 1)

/-- What R407 refuses. -/
def Lane.canBadTiming (L : Lane) (n : Nat) : Bool :=
  let g (f : Fld) := L.get f n
  let nom := bitCycles (g F.CAN_NBT_BRP) (g F.CAN_NBT_TSEG1) (g F.CAN_NBT_TSEG2)
  let fd := bitCycles (g F.CAN_DBT_BRP) (g F.CAN_DBT_TSEG1) (g F.CAN_DBT_TSEG2)
  let xl := bitCycles (g F.CAN_XBT_BRP) (g F.CAN_XBT_TSEG1) (g F.CAN_XBT_TSEG2)
  let fdoe := L.is F.CAN_MODE_FDOE n
  let xloe := L.is F.CAN_MODE_XLOE n
  let xltms := L.is F.CAN_MODE_XLTMS n
  decide (nom < 200) || decide (1 + (g F.CAN_NBT_TSEG1 + 1) + (g F.CAN_NBT_TSEG2 + 1) < 8) || g F.CAN_NBT_TSEG2 == 0 ||
    decide (g F.CAN_NBT_TSEG2 < g F.CAN_NBT_SJW) || decide (g F.CAN_DBT_TSEG2 < g F.CAN_DBT_SJW) ||
    decide (g F.CAN_XBT_TSEG2 < g F.CAN_XBT_SJW) || (fdoe && decide (fd < 25)) ||
    (xloe && (decide (xl < 10) || (!xltms && decide (xl < 25)))) || (fdoe && decide (nom < fd)) || (xloe && decide (nom < xl)) ||
    (xltms && decide (g F.CAN_XLPWM_PWML ≤ g F.CAN_XLPWM_PWMS))

/-- CAN_ENABLE (R407): a write of MODE.EN; an enable against R407 is refused, with CFG_ERR. -/
def execCanEnable (l : LaneId) (n : Fin 4) (en : Bool) (s : State) : Out :=
  s.on l (fun L => L.up && L.domOn 10 && L.is F.CAN_MODE_EN n.val != en) (fun L =>
    let k := n.val
    if !en then (L.put F.CAN_MODE_EN 0 k).onCan k (fun c => { c with intg := false, tx := none })
    else if L.canBadTiming k then L.note Ev.CAN_CFG_ERR k
    else (L.put F.CAN_MODE_EN 1 k).onCan k (fun c => { c with intg := false }))

/-- CAN_INTEGRATION (R421): 11 recessive bits have passed since the enable, a wake or a protocol exception. -/
def execCanIntegration (l : LaneId) (n : Fin 4) (s : State) : Out :=
  s.on l (fun L => L.up && L.domOn 10 && L.is F.CAN_MODE_EN n.val && !L.outOfService (.can n.val)) (fun L =>
    L.onCan n.val (fun c => { c with intg := true }))

/-- CAN_VOTE_LAPSE (R418): no request pending and no frame for 1 s; the vote is withdrawn. -/
def execCanVoteLapse (l : LaneId) (n : Fin 4) (s : State) : Out :=
  s.on l (fun L => L.up && !L.canPending n.val && L.since (L.canSt n.val).lastFrame (sec 1)) (fun L => L.vote (4 + n.val) 10 0)

end Sys2Proof.Machine
end

