-- ==== Sys2Proof/Machine/Drive.lean ====
section
/-!
DEFINITION. Machine/Drive.lean: commands of 06_drive_engine.md. DECISION is one decision of a drive engine: estimates (R219 to
R221, R238 to R241), references (R229 to R233), comparators, vector and filters (R222 to R228). The other rows act when what a
decision counted, or a time, calls for them. Values that the estimators of R238 to R240 deliver are free (log 17).
-/

namespace Sys2Proof.Machine

/-! ### Frame and currents -/

/-- The current sum of the previous frame judged (R218); a frame without iW makes no check. -/
def isumCount (lim : Int) (d : DrvSt) : DrvSt :=
  match d.prev with
  | some f =>
    match f.iw with
    | some iw =>
      if lim < (iw + (f.iu + f.iv)).natAbs then { d with isumOver := d.isumOver + 1, isumIn := 0 }
      else
        let n := satU 8 (d.isumIn + 1)
        { d with isumOver := 0, isumIn := n, isumArmed := d.isumArmed || n == 8 }
    | none => d
  | none => d

/-- The frame of this decision taken: current sum, Clarke transform, VM of the previous frame (R212, R214, R218). -/
def Lane.takeFrame (L : Lane) (k : Nat) (f : DrvFrame) : Lane :=
  let d1 := isumCount (ofQ15 (L.dget F.DRV_BLEND_ISUM k)) (L.drv k)
  let i : Int × Int := (f.iu, sat24 (divSqrt3 (f.iu + 2 * f.iv)))
  let vm := match d1.prev with
    | some p => p.vm
    | none => d1.vm
  ((L.onDrv k (fun _ => { d1 with frame := none, prev := some f, lateRun := 0, i := i, vm := vm })).putS F.DRV_IAB_IALPHA
    (toReg i.1) k).putS F.DRV_IAB_IBETA (toReg i.2) k

/-- Any leg is OFF. -/
def anyOff (legs : List (BitVec 2)) : Bool := legs.any (fun x => x == 0)

/-- The applied active vector of R219: 2/3 × VM at 60° × (m - 1); 0 for V0 and V7. -/
def appliedV (m : Nat) (vm : Int) : Int × Int :=
  let a := sat24 (divR (2 * vm) 3)
  let h := sat24 (divR vm 3)
  let s := sat24 (divSqrt3 vm)
  match m with
  | 1 => (a, 0)
  | 2 => (h, s)
  | 3 => (-h, s)
  | 4 => (-a, 0)
  | 5 => (-h, -s)
  | 6 => (h, -s)
  | _ => (0, 0)

/-! ### Sensor and observer -/

/-- The sensor angle of R237 and whether it is valid. -/
def Lane.sensorNow (L : Lane) (k : Nat) : Nat × Bool :=
  let a := L.dget F.DRV_PSRC_ASEL k
  let q := L.quant a
  let th := (L.get F.DRV_WBASE_POLES k * q.ang + L.dget F.DRV_AOFS_AOFS k) % 2 ^ 32
  let age := (L.mtN + 2 ^ 32 - (L.quantT a).toNat) % 2 ^ 32
  (th, decide (a ≤ 9) && q.avalid && !L.pruned (.pos (chanOf a)) && decide (age ≤ 4 * L.drvPeriod k))

/-- Sum of the signed steps of a list of angles, newest first. -/
def angleSum : List Nat → Int
  | a :: b :: t => toSigned 32 (a + 2 ^ 32 - b) + angleSum (b :: t)
  | _ => 0

/-- The sensor speed over the last 16 decisions (R229), per unit. -/
def Lane.sensorSpeed (L : Lane) (k : Nat) : Int :=
  sat24 (divR (angleSum (L.drv k).thS * 2000000000 * twoPiNum * qOne)
    (2 ^ 32 * 16 * L.drvPeriod k * L.get F.DRV_WBASE_WBASE k * twoPiDen))

/-- The sensor side of a decision: ANG_S, the history of 17 angles, validity (R229, R237). -/
def Lane.decSensor (L : Lane) (k : Nat) : Lane :=
  let s := L.sensorNow k
  let L1 := if s.2 then L.put F.DRV_ANG_S_THETA_S s.1 k else L
  L1.onDrv k (fun d => { d with
    sensorOk := s.2, sensorFell := d.sensorOk && !s.2, thS := if s.2 then (s.1 :: d.thS).take 17 else [] })

/-- SDIFF of a decision, kept while the sensor is invalid (R241). -/
def Lane.decSdiff (L : Lane) (k : Nat) : Lane :=
  if (L.drv k).sensorOk then
    L.putS F.DRV_SDIFF_SDIFF (toSigned 32 (L.get F.DRV_ANG_S_THETA_S k + 2 ^ 32 - L.get F.DRV_ANG_E_THETA_E k)) k
  else L

/-- C_EMF of R240 from the active flux's length and the tracking error in 2^-32 turn. -/
def cEmf (psiA psiPm : Int) (err : Nat) : Int :=
  let a := if psiPm = 0 then sat24 (Config.divZero psiA) else qdiv psiA psiPm
  let e := min qOne (divR (err * 12 * qOne) (2 ^ 32))
  qmul (clampI 0 qOne a) (qOne - e)

/-- The active flux of R238: ψ_O, its leak compensated in gain and phase at the estimated speed, minus LQ × i. An integral with
leak WX passes a flux turning at w as 1 / (1 - j × WX / w); at w = 0 the spec states no compensation and the ratio is free. -/
def activeFlux (psiO i : Int × Int) (wx w lq : Int) : Int × Int :=
  let r := if w = 0 then sat24 (Config.divZero wx) else qdiv wx w
  (sat24 (psiO.1 + qmul r psiO.2 - qmul lq i.1), sat24 (psiO.2 - qmul r psiO.1 - qmul lq i.2))

/-- The observer of a decision (R238 to R241): ψ_O, ψ_A and θ_EMF; estimated speed and tracking error, the angle tracked by the
injection and its demodulated amplitude, for which the spec gives no formula, are free; θ_E, CONF, SDIFF and the counts of R242
and R245 follow from them. `j` is the drawn index. -/
def Lane.decObserver (L : Lane) (k j : Nat) : Lane :=
  let d := L.drv k
  let kt := L.drvKT k
  let wx := ofQ15 (L.dget F.DRV_BLEND_WX k)
  let rs := L.dq F.DRV_MOT_0_RS k
  let v := appliedV (vecOf d.legs) d.vm
  let step := fun (p vv ii : Int) => sat24 (p + qmul kt (sat24 (vv - qmul rs ii)) - qmul (qmul kt wx) p)
  let psiO := if anyOff d.legs then d.psiO else (step d.psiO.1 v.1 d.i.1, step d.psiO.2 v.2 d.i.2)
  let psiA := activeFlux psiO d.i wx d.w (L.dq F.DRV_MOT_1_LQ k)
  let thEmf := angle32 psiA.1 psiA.2
  let w := sat24 (Config.freeInt j 0)
  let err := (Config.freeInt j 2).natAbs
  let thHfi := ((Config.freeInt j 4).toNat + (if d.polFlip then 2 ^ 31 else 0)) % 2 ^ 32
  let dem := clampI 0 qOne (Config.freeInt j 5)
  let hfi := L.dis F.DRV_MODE_HFIEN k
  let wb0 := ofQ15 (L.dget F.DRV_OBS_WB0 k)
  let wb1r := ofQ15 (L.dget F.DRV_OBS_WB1 k)
  let wb1 := if wb1r ≤ wb0 then wb0 + 64 else wb1r
  let wB := clampI 0 qOne (qdiv (w.natAbs - wb0) (wb1 - wb0))
  let ce := if L.dis F.DRV_MODE_EMFEN k then cEmf (vmag psiA) (L.dq F.DRV_MOT_0_PSIPM k) err else 0
  let ch0 := if hfi then (if d.polOk then dem else dem / 2) else 0
  let conf := sat24 (qmul wB ce + qmul (qOne - wB) ch0)
  let thE := angle32 (qmul wB (cos32 thEmf) + qmul (qOne - wB) (cos32 thHfi)) (qmul wB (sin32 thEmf) + qmul (qOne - wB) (sin32 thHfi))
  let confR := (clampI 0 0x7FFF (toReg conf)).toNat
  let okC := decide (L.dget F.DRV_CONF_CTH k ≤ confR)
  let L1 := (((L.put F.DRV_ANG_E_THETA_E thE k).putS F.DRV_SPD_SPEED (toReg w) k).put F.DRV_SPD_CONF confR k).decSdiff k
  let out := d.sensorOk && decide (L.dget F.DRV_PSRC_DLIM k * 65536 < (L1.getS F.DRV_SDIFF_SDIFF k).natAbs) && okC
  L1.onDrv k (fun x => { x with
    psiO := psiO, w := w, cHfi := ch0, thPrev := thE
    sdiffRun := if out then x.sdiffRun + 1 else 0
    confLow := if okC then 0 else x.confLow + 1
    wL := if !okC && x.confLow == 0 then w else x.wL
    lost := x.lost && !okC
    posAcc := x.posAcc + L.getS F.DRV_PSCALE_PSCALE k * toSigned 32 (thE + 2 ^ 32 - x.thPrev) })

/-- POS_E, SPD_L and EST_T of a decision (R244). -/
def Lane.decLoopView (L : Lane) (k : Nat) : Lane :=
  let d := L.drv k
  let spd := divR (d.w * L.get F.DRV_WBASE_WBASE k * L.getS F.DRV_PSCALE_PSCALE k * twoPiDen) (qOne * 10 * 65536 * twoPiNum)
  ((L.putS F.DRV_POS_E_POS (d.posAcc / 2 ^ 48) k).putS F.DRV_SPD_L_SPD (satS 32 spd) k).put F.DRV_EST_T_TIME L.mtN k

/-! ### Flux and torque -/

/-- The flux estimate of a decision (R219, R220). -/
def Lane.decFlux (L : Lane) (k j : Nat) : Lane :=
  let d := L.drv k
  if anyOff d.legs then L.onDrv k (fun x => { x with psiDue := true })
  else
    let have_ := L.angleIn k
    let th := if have_ || L.estCmd k then L.angleCmd k else (Config.freeInt j 6).toNat % 2 ^ 32
    let c := L.psiC k th
    if d.psiDue then L.onDrv k (fun x => { x with psiDue := false, psi := if have_ then c else x.psi })
    else
      let kt := L.drvKT k
      let kw := qmul kt (ofQ15 (L.dget F.DRV_BLEND_WX k))
      let rs := L.dq F.DRV_MOT_0_RS k
      let v := appliedV (vecOf d.legs) d.vm
      let step := fun (p vv ii cc : Int) => sat24 (p + qmul kt (sat24 (vv - qmul rs ii)) + qmul kw (sat24 (cc - p)))
      L.onDrv k (fun x => { x with psi := (step d.psi.1 v.1 d.i.1 c.1, step d.psi.2 v.2 d.i.2 c.2) })

/-- T̂ of R221. -/
def DrvSt.torque (d : DrvSt) : Int := sat24 (qmul d.psi.1 d.i.2 - qmul d.psi.2 d.i.1)

/-- EST shows torque and flux magnitude (R221); in ASC no torque is estimated (R234). -/
def Lane.decEst (L : Lane) (k : Nat) : Lane :=
  (if L.drvState k = 5 then L else L.putS F.DRV_EST_TORQUE (toReg (L.drv k).torque) k).putS F.DRV_EST_FLUX
    (toReg (vmag (L.drv k).psi)) k

/-! ### References in effect -/

/-- NASC and NDRV of R232: member lanes other than the own with HASC set for the bridge, member lanes without it. -/
def Lane.dragCounts (L : Lane) (k : Nat) : Nat × Nat :=
  let own := bit L.link.gateWord.toNat (4 + k)
  let p := fun i => L.isMember (if i = 0 then L.strap.next else L.strap.prev)
  let h := fun i => L.peerFlag i (4 + k)
  let nasc := b2n (p 0 && h 0) + b2n (p 1 && h 1)
  let ndrv := b2n (L.isMember L.strap && !own) + b2n (p 0 && !h 0) + b2n (p 1 && !h 1)
  (nasc, max 1 ndrv)

/-- DRAG_FF (R232). -/
def Lane.dragFF (L : Lane) (k : Nat) (w : Int) : Int :=
  let n := L.dragCounts k
  if n.1 = 0 then 0
  else
    let p := L.dq F.DRV_MOT_0_PSIPM k
    let r := L.dq F.DRV_MOT_0_RS k
    let den := qOne * qOne * r * r + w * w * L.dq F.DRV_MOT_1_LD k * L.dq F.DRV_MOT_1_LQ k
    sat24 (divR (p * p * r * w * n.1 * qOne) (den * n.2))

/-- The speed in command (R229). -/
def Lane.wCmd (L : Lane) (k : Nat) : Int :=
  let d := L.drv k
  if L.estCmd k || decide (d.thS.length < 17) then d.w else L.sensorSpeed k

/-- The injection of R239 is active. -/
def Lane.hfiOn (L : Lane) (k : Nat) (w : Int) : Bool :=
  let wb0 := L.dget F.DRV_OBS_WB0 k
  let wb1 := if L.dget F.DRV_OBS_WB1 k ≤ wb0 then wb0 + 1 else L.dget F.DRV_OBS_WB1 k
  L.dis F.DRV_MODE_HFIEN k && decide ((w.natAbs : Int) < ofQ15 wb1)

/-- The method of re-acquisition is injection: HFIEN = 1 and |ω_L| below WB0 (R245). -/
def Lane.byInjection (L : Lane) (k : Nat) : Bool :=
  L.dis F.DRV_MODE_HFIEN k && decide (((L.drv k).wL.natAbs : Int) < ofQ15 (L.dget F.DRV_OBS_WB0 k))

/-- The engine acquires an angle: in CATCH, and in MAGNETISE without an angle in command (R245, below Table 6.5). -/
def Lane.acquiring (L : Lane) (k : Nat) : Bool := L.drvState k == 6 || (L.drvState k == 2 && !L.angleIn k)

/-- The injection's part of FX_EFF: AMP × sin(phase_HFI), AMP doubled during injection re-acquisition (R239, R245). -/
def Lane.hfiTerm (L : Lane) (k : Nat) : Int :=
  let f := max 5 (min 100 (L.dget F.DRV_HFI_FREQ k))
  let amp := L.dget F.DRV_HFI_AMP k
  let a := if L.acquiring k && L.byInjection k then min 0x7FFF (2 * amp) else amp
  qmul (ofQ15 a) (sin32 (L.mtN * f % 2000000 * 2 ^ 32 / 2000000))

/-- Sign of an integer. -/
def sgn (x : Int) : Int := if 0 < x then 1 else if x < 0 then -1 else 0

/-- TQ_EFF (R229). -/
def Lane.tqEff (L : Lane) (k : Nat) (w : Int) : Int :=
  let n := L.dragCounts k
  let st := L.drvState k
  let t0 := ofQ15 (L.getS F.DRV_TQREF_VOTED k)
  let t1 := if L.dis F.DRV_MODE_DRAGFF k ∧ 1 ≤ n.1 then sat24 (t0 + L.dragFF k w) else t0
  let t2 := if L.is F.DRV_STATE_NOREG k ∧ t1 * w < 0 then 0 else t1
  let t3 := if st = 6 ∨ st = 2 ∨ st = 4 ∨ (L.drv k).heldTq then 0 else t2
  let lim := ofQ15 (L.get F.DRV_LIM_TLIM k)
  clampI (-lim) lim t3

/-- The flux reference before the ramp of MAGNETISE: voted, limited by field weakening, with the injection (R229, R233, R239). -/
def Lane.fxAsked (L : Lane) (k : Nat) (w : Int) : Int :=
  let f0 := ofQ15 (L.getS F.DRV_FXREF_VOTED k)
  let f1 := if L.dis F.DRV_MODE_OVMEN k ∧ w ≠ 0 then
    min f0 (qdiv (qmul (ofQ15 (L.dget F.DRV_OVM_KFW k)) (L.drv k).vm) w.natAbs) else f0
  if L.hfiOn k w then sat24 (f1 + L.hfiTerm k) else f1

/-- FX_EFF without the polarity test's step: in MAGNETISE it ramps from |ψ̂| by at most HF per decision (R229). -/
def Lane.fxRamp (L : Lane) (k : Nat) (w : Int) : Int :=
  let fx := L.fxAsked k w
  if L.drvState k = 2 then
    let hf := ofQ15 (max 1 (L.dget F.DRV_HYST_HF k))
    let prev := L.drive.fxTaken.getD k 0
    sat24 (prev + clampI (-hf) hf (fx - prev))
  else fx

/-- The polarity test's flux step of ±4 × AMP along the estimated axis (R239). -/
def Lane.polTerm (L : Lane) (k : Nat) : Int :=
  let amp := 4 * ofQ15 (L.dget F.DRV_HFI_AMP k)
  match (L.drv k).polStep with
  | 1 => amp
  | 2 => -amp
  | _ => 0

/-- Two current peaks lie within 3 % of each other, measured on the larger (log 137). -/
def peaksClose (a b : Int) : Bool := decide (((a - b).natAbs : Int) * 100 ≤ 3 * max a b)

/-- The polarity test of R239, in MAGNETISE and in injection re-acquisition: a positive and a negative step, whose lengths the
spec does not give (free), and the larger current peak marks the positive d-axis; peaks within 3 % record POL_AMBIG and repeat
it. -/
def Lane.decPolarity (L : Lane) (k j : Nat) : Lane :=
  let d := L.drv k
  let st := L.drvState k
  if L.dis F.DRV_MODE_HFIEN k && !d.polOk && (st == 2 || (st == 6 && L.byInjection k)) then
    let m := vmag d.i
    let ends := decide (Config.freeNat (2 * j + 1) % 2 = 1)
    match d.polStep with
    | 0 => L.onDrv k (fun d => { d with polStep := 1, polPeak := (0, 0) })
    | 1 => L.onDrv k (fun d => { d with polPeak := (max d.polPeak.1 m, 0), polStep := if ends then 2 else 1 })
    | _ =>
      let p : Int × Int := (d.polPeak.1, max d.polPeak.2 m)
      if !ends then L.onDrv k (fun d => { d with polPeak := p })
      else if peaksClose p.1 p.2 then (L.onDrv k (fun d => { d with polStep := 1, polPeak := (0, 0) })).transient Ev.DRV_POL_AMBIG k
      else L.onDrv k (fun d => { d with polPeak := p, polStep := 0, polOk := true, polFlip := d.polFlip != decide (p.1 < p.2) })
  else L.onDrv k (fun d => { d with polStep := 0 })

/-! ### Comparators and vector -/

/-- The torque comparator (R222). -/
def torqueComp (ht e ct : Int) : Int :=
  if ht ≤ e then 1 else if e ≤ -ht then -1 else if (ct = 1 ∧ e ≤ 0) ∨ (ct = -1 ∧ 0 ≤ e) then 0 else ct

/-- The flux comparator (R222). -/
def fluxComp (hf e cf : Int) : Int := if hf ≤ e then 1 else if e ≤ -hf then -1 else cf

/-- Sign of a + b√3, exactly. -/
def sgnR3 (a b : Int) : Int :=
  if 0 ≤ a ∧ 0 ≤ b then (if a = 0 ∧ b = 0 then 0 else 1)
  else if a ≤ 0 ∧ b ≤ 0 then -1
  else if 0 < a then sgn (a * a - 3 * (b * b))
  else sgn (3 * (b * b) - a * a)

/-- A boundary direction, each coordinate a + b√3. -/
structure Dir where
  xa : Int
  xb : Int
  ya : Int
  yb : Int

/-- Sign of the cross product of a direction with a vector. -/
def crossSgn (d : Dir) (v : Int × Int) : Int := sgnR3 (d.xa * v.2 - d.ya * v.1) (d.xb * v.2 - d.yb * v.1)

/-- Lower boundaries of the sectors of six-sector operation: -30° + 60° × (s - 1). -/
def dirs6 : List Dir := [⟨0, 1, -1, 0⟩, ⟨0, 1, 1, 0⟩, ⟨0, 0, 1, 0⟩, ⟨0, -1, 1, 0⟩, ⟨0, -1, -1, 0⟩, ⟨0, 0, -1, 0⟩]

/-- Lower boundaries of twelve-sector operation: -15° + 30° × (k - 1). -/
def dirs12 : List Dir :=
  [⟨1, 1, 1, -1⟩, ⟨1, 1, -1, 1⟩, ⟨1, 0, 1, 0⟩, ⟨-1, 1, 1, 1⟩, ⟨1, -1, 1, 1⟩, ⟨-1, 0, 1, 0⟩,
   ⟨-1, -1, -1, 1⟩, ⟨-1, -1, 1, -1⟩, ⟨-1, 0, -1, 0⟩, ⟨1, -1, -1, -1⟩, ⟨-1, 1, -1, -1⟩, ⟨1, 0, -1, 0⟩]

/-- The sector of a vector among boundaries (R223): at or past its lower boundary, before the next. A zero vector has no angle:
its sector is free. -/
def sectorOf (ds : List Dir) (v : Int × Int) (free : Nat) : Nat :=
  let n := ds.length
  let d0 : Dir := ⟨1, 0, 0, 0⟩
  match (List.range n).find? (fun i =>
      decide (0 ≤ crossSgn (ds.getD i d0) v) && decide (crossSgn (ds.getD ((i + 1) % n) d0) v < 0)) with
  | some i => i + 1
  | none => free % n + 1

/-- Vector indices count modulo 6 within 1 to 6 (R224). -/
def wrap6 (x : Int) : Nat := ((x - 1) % 6).toNat + 1

/-- Table 6.4; none is the zero vector. -/
def tableVec (sect12 : Bool) (sec : Nat) (cf ct : Int) : Option Nat :=
  if ct = 0 then none
  else if sect12 ∧ sec % 2 = 0 then
    let m : Int := (sec / 2 : Nat)
    some (wrap6 (if cf = 1 then (if ct = 1 then m + 1 else m) else (if ct = 1 then m + 2 else m - 1)))
  else
    let s : Int := if sect12 then ((sec + 1) / 2 : Nat) else sec
    some (wrap6 (if cf = 1 then s + ct else s + 2 * ct))

/-- Legs of a vector (Table 6.3). -/
def vecLegs : Nat → List (BitVec 2)
  | 1 => [2, 1, 1]
  | 2 => [2, 2, 1]
  | 3 => [1, 2, 1]
  | 4 => [1, 2, 2]
  | 5 => [1, 1, 2]
  | 6 => [2, 1, 2]
  | 7 => [2, 2, 2]
  | _ => [1, 1, 1]

/-- Z: V0 or V7, whichever needs fewer leg changes; V0 from a state with a leg OFF (R225). -/
def zeroVec (legs : List (BitVec 2)) : Nat :=
  if anyOff legs then 0 else if legDiff legs (vecLegs 7) < legDiff legs (vecLegs 0) then 7 else 0

/-! ### Filters (R226, R227) -/

/-- A leg through both filters: its state, the decision from which it may change again, its credit (millionths of a token), and
what held it. -/
structure LegOut where
  st : BitVec 2
  freeAt : Nat
  credit : Nat
  minHeld : Bool
  govHeld : Bool
  changed : Bool

/-- One leg at decision `n`, its credit filled. A change to OFF passes both filters (R228). -/
def legFilter (cur want : BitVec 2) (n freeAt credit minp : Nat) : LegOut :=
  if cur = want then ⟨cur, freeAt, credit, false, false, false⟩
  else if want = 0 then ⟨want, n + minp, credit, false, false, true⟩
  else if n < freeAt then ⟨cur, freeAt, credit, true, false, false⟩
  else if 1000000 ≤ credit then ⟨want, n + minp, credit - 1000000, false, false, true⟩
  else ⟨cur, freeAt, credit, false, true, false⟩

/-- Saturating addition to a counter. -/
def Lane.addSat (L : Lane) (f : Fld) (n k : Nat) : Lane := L.put f (satU (2 ^ f.w - 1) (L.get f k + n)) k

/-- The three legs toward a wanted state through both filters; counters, SWCNT and the LEG transfer. The buckets fill at 2 × FCAP
tokens per second up to BDEPTH (R227). -/
def Lane.filterLegs (L : Lane) (k : Nat) (want : List (BitVec 2)) : Lane :=
  let d := L.drv k
  let minp := max 1 (L.dget F.DRV_SWLIM_MINP k)
  let full := max 1 (L.dget F.DRV_SWLIM_BDEPTH k) * 1000000
  let fill := max 1 (L.dget F.DRV_SWLIM_FCAP k) * (L.mtN - d.creditAt)
  let r := (List.range 3).map (fun i =>
    legFilter (d.legs.getD i 0) (want.getD i 0) d.decN (nthN d.freeAt i) (min full (nthN d.credit i + fill)) minp)
  let n := (r.filter (fun x => x.changed)).length
  let L1 := L.onDrv k (fun x => { x with
    legs := r.map (fun x => x.st), freeAt := r.map (fun x => x.freeAt), credit := r.map (fun x => x.credit), creditAt := L.mtN })
  let L2 := if r.any (fun x => x.minHeld) then L1.addSat F.DRV_CNT_1_MINPH 1 k else L1
  let L3 := (L2.addSat F.DRV_CNT_1_GOVH (r.filter (fun x => x.govHeld)).length k).swAdd k n
  (L3.put F.DRV_STATE_VEC (vecOf (L3.drv k).legs) k).sendLeg

/-! ### The catch (R245) -/

/-- Entry into CATCH at a loss: CATCH_START, window 1 opens. -/
def Lane.enterCatch (L : Lane) (k : Nat) : Lane :=
  let L1 := ((L.setDrv k 6).note Ev.DRV_CATCH_START k).put F.DRV_STATE_WIN 1 k
  L1.onDrv k (fun d => { d with
    lossAt := L.now, winAt := L.now, winFail := false, cycAt := L.now, v0Run := 0, probe := none, caught := none, cHfiRun := 0
    polOk := if L.byInjection k then false else d.polOk, polStep := 0 })

/-- The magnitudes of iU, iV and -(iU + iV) of the last frame all lie below IZERO. -/
def Lane.currentsZero (L : Lane) (k : Nat) : Bool :=
  let z := L.dget F.DRV_CONF_IZERO k
  match (L.drv k).prev with
  | some f => [f.iu, f.iv, f.iu + f.iv].all (fun x => decide ((x.natAbs : Int) < ofQ15 z))
  | none => false

/-- What a probe that ends now shows: e = -LQ × Δi / (KT × n), |w| = |e| / PSIPM with the sign of the estimated speed,
θ = angle(e) - 90° × sign(w). -/
def Lane.probeEnd (L : Lane) (k : Nat) : Probe :=
  let d := L.drv k
  let lq := L.dq F.DRV_MOT_1_LQ k
  let den := L.drvKT k * d.v0Run
  let e : Int × Int := (sat24 (divR (-(lq * (d.i.1 - d.i0.1))) den), sat24 (divR (-(lq * (d.i.2 - d.i0.2))) den))
  let mag := qdiv (vmag e) (L.dq F.DRV_MOT_0_PSIPM k)
  let neg := decide (d.wL < 0)
  let a := angle32 e.1 e.2
  { theta := (a + (if neg then 2 ^ 30 else 3 * 2 ^ 30)) % 2 ^ 32, w := if neg then -mag else mag, endAt := L.now }

/-- Two probes agree within 15°. -/
def Lane.probesAgree (L : Lane) (k : Nat) (a b : Probe) : Bool :=
  let t := (a.theta : Int) + L.turnStep k b.w (b.endAt - a.endAt)
  decide ((toSigned 32 (ofSigned 32 ((b.theta : Int) - t))).natAbs * 24 ≤ 2 ^ 32)

/-- One decision of a probe catch. -/
def Lane.probeStep (L : Lane) (k : Nat) : Lane :=
  let d := L.drv k
  if d.v0Run = 0 then
    if d.winFail || d.caught.isSome then (L.forceLegs k [0, 0, 0]).sendLeg
    else if L.currentsZero k then
      ((L.onDrv k (fun x => { x with v0Run := 1, i0 := x.i })).forceLegs k [1, 1, 1]).sendLeg
    else if d.cycAt + us 100 < L.now then ((L.onDrv k (fun x => { x with winFail := true })).forceLegs k [0, 0, 0]).sendLeg
    else (L.forceLegs k [0, 0, 0]).sendLeg
  else if vAtLeast d.i (ofQ15 (L.dget F.DRV_CATCH_IPROBE k))
      || decide (us (max 1 (L.dget F.DRV_CATCH_TPMAX k)) ≤ d.v0Run * L.drvPeriod k) then
    let p := L.probeEnd k
    let hit := match d.probe with
      | some q => L.probesAgree k q p
      | none => false
    ((L.onDrv k (fun x => { x with v0Run := 0, cycAt := L.now, probe := some p, caught := if hit then some p else x.caught })).forceLegs k
      [0, 0, 0]).sendLeg
  else (L.onDrv k (fun x => { x with v0Run := x.v0Run + 1 })).sendLeg

/-- One decision of an injection re-acquisition: C_HFI at CTH for 100 us. -/
def Lane.injStep (L : Lane) (k : Nat) : Lane :=
  let d := L.drv k
  let n := if ofQ15 (L.dget F.DRV_CONF_CTH k) ≤ d.cHfi then d.cHfiRun + 1 else 0
  let done := decide (us 100 ≤ n * L.drvPeriod k)
  L.onDrv k (fun x => { x with
    cHfiRun := n, caught := if done && x.polOk then some { theta := x.thPrev, w := x.w, endAt := L.now } else x.caught })

/-! ### One decision -/

/-- The current limit in effect: ILIM at the throttle step of THR (R230, R506). -/
def Lane.ilimEff (L : Lane) (k : Nat) : Nat :=
  let p := match L.get F.DRV_LIMEFF_THR k with
    | 0 => 100
    | 1 => 85
    | 2 => 70
    | 3 => 55
    | _ => 40
  L.get F.DRV_LIM_ILIM k * p / 100

/-- The current limit at a decision (R230): while |i| is at ILIM_EFF, c_T is 0 and CNT_2.CLIM counts. -/
def Lane.decLimit (L : Lane) (k : Nat) : Lane :=
  let lim := vAtLeast (L.drv k).i (ofQ15 (L.ilimEff k))
  let L1 := (L.onDrv k (fun x => { x with
    ct := if lim then 0 else x.ct
    climSince := if lim then (match x.climSince with
      | some t => some t
      | none => some L.now) else none
    climDone := x.climDone && lim })).put F.DRV_LIMEFF_ILIM_EFF (L.ilimEff k) k
  if lim then L1.addSat F.DRV_CNT_2_CLIM 1 k else L1

/-- Comparators (R222) with the current limit (R230); in six-step c_F is held at +1 (R233). In ASC, where no torque is estimated
(R234), they keep their states but for the limit. -/
def Lane.decCompare (L : Lane) (k : Nat) (tq fx : Int) : Lane :=
  let d := L.drv k
  let ef := fx - vmag d.psi
  let hf := ofQ15 (max 1 (L.dget F.DRV_HYST_HF k))
  let L0 := if L.drvState k = 5 then L
    else L.onDrv k (fun x => { x with
      ct := torqueComp (ofQ15 (max 1 (L.dget F.DRV_HYST_HT k))) (tq - d.torque) d.ct
      cf := if L.is F.DRV_STATE_SIX k then 1 else fluxComp hf ef d.cf
      magRun := if (ef.natAbs : Int) < hf then x.magRun + 1 else 0 })
  let L1 := L0.decLimit k
  let ct := (L1.drv k).ct
  let w := d.wc
  let L2 := L1.onDrv k (fun x => { x with
    sixRun := if ct != 0 && ct == sgn w then x.sixRun + 1 else 0
    sixOut := if ct == 0 || ct != sgn w then x.sixOut + 1 else 0 })
  (L2.put F.DRV_STATE_TCMP (if ct = 1 then 1 else if ct = -1 then 3 else 0) k).putB F.DRV_STATE_FCMP ((L2.drv k).cf == 1) k

/-- Six-step ends (R233): c_T is 0 or opposite for 2 consecutive decisions, or |w| falls below OVMW × 7/8. -/
def Lane.decSixLeave (L : Lane) (k : Nat) : Lane :=
  let d := L.drv k
  if L.is F.DRV_STATE_SIX k && (decide (2 ≤ d.sixOut) || decide ((d.wc.natAbs : Int) * 8 < ofQ15 (L.dget F.DRV_OVM_OVMW k) * 7)) then
    L.put F.DRV_STATE_SIX 0 k
  else L

/-- The vector of a decision through the filters (R223 to R227). In six-step no zero vector is used (R233). -/
def Lane.decVector (L : Lane) (k j : Nat) : Lane :=
  let d := L.drv k
  let s12 := L.dis F.DRV_MODE_SECT12 k
  let sec := sectorOf (if s12 then dirs12 else dirs6) d.psi (Config.freeNat j)
  let six := L.is F.DRV_STATE_SIX k
  let ct := if six && d.ct == 0 then sgn d.wc else d.ct
  let m := match tableVec s12 sec d.cf ct with
    | some m => m
    | none => zeroVec d.legs
  (L.put F.DRV_STATE_SEC sec k).filterLegs k (vecLegs m)

/-- The part of a decision that commands legs, by state. -/
def Lane.decLegs (L : Lane) (k j : Nat) : Lane :=
  match L.drvState k with
  | 3 => L.decVector k j
  | 2 => if L.angleIn k then L.decVector k j
    else if L.byInjection k then (L.injStep k).decVector k j else L.probeStep k
  | 6 => if L.byInjection k then (L.injStep k).decVector k j else L.probeStep k
  | 4 => if L.currentsZero k then L.drvOff k 0 else L.decVector k j
  | 5 => (L.forceLegs k [1, 1, 1]).sendLeg
  | _ => (L.forceLegs k [0, 0, 0]).sendLeg

/-- The legs at a decision without its frame keep their states (R217); V0 of a probe has lasted one decision more. -/
def Lane.keepLegs (L : Lane) (k : Nat) : Lane :=
  (L.onDrv k (fun d => { d with v0Run := if d.v0Run = 0 then 0 else d.v0Run + 1 })).sendLeg

/-- The sensor in command lost with CONF below CTH starts the catch (R242, Table 6.5). -/
def Lane.decSensorLost (L : Lane) (k : Nat) : Lane :=
  if L.drvState k = 3 ∧ !L.is F.DRV_STATE_ASRC k ∧ (L.drv k).sensorFell ∧ !L.confOk k then L.enterCatch k else L

/-- A re-arm is taken at a decision at which the sensor is valid and agrees (R243). -/
def Lane.decRearm (L : Lane) (k : Nat) : Lane :=
  if (L.drv k).rearmAt.isSome && (L.drv k).sensorOk
      && decide ((L.getS F.DRV_SDIFF_SDIFF k).natAbs ≤ L.dget F.DRV_PSRC_DLIM k * 65536) then
    (((L.onDrv k (fun d => { d with rearmAt := none, sdiffRun := 0 })).put F.DRV_STATE_ASRC 0 k).put F.DRV_MODE_REARM 0 k).note
      Ev.DRV_REARM_DONE k
  else L

/-- NASC, NDRV and DRAG_FF shown (R232). -/
def Lane.decDrag (L : Lane) (k : Nat) (w : Int) : Lane :=
  let n := L.dragCounts k
  ((L.putS F.DRV_DRAG_FF (if L.dis F.DRV_MODE_DRAGFF k then toReg (L.dragFF k w) else 0) k).put F.DRV_DRAG_NASC n.1 k).put
    F.DRV_DRAG_NDRV n.2 k

/-- The references of a decision, formed in every state (R229, R232): TQREF.EFF, FXREF.EFF, DRAG and ILIM_EFF. -/
def Lane.decRefs (L : Lane) (k : Nat) : Lane :=
  let w := L.wCmd k
  let L1 := (L.onDrv k (fun d => { d with wc := w })).decDrag k w
  let ramp := L.fxRamp k w
  let L2 := { L1 with drive := { L1.drive with fxTaken := L1.drive.fxTaken.set k ramp } }
  ((L2.putS F.DRV_TQREF_EFF (toReg (L.tqEff k w)) k).putS F.DRV_FXREF_EFF (toReg (sat24 (ramp + L.polTerm k))) k).put
    F.DRV_LIMEFF_ILIM_EFF (L.ilimEff k) k

/-- The references as the comparators take them, at internal precision. -/
def Lane.decAct (L : Lane) (k : Nat) : Lane :=
  let w := L.wCmd k
  let tq := L.tqEff k w
  let fx := sat24 (L.fxRamp k w + L.polTerm k)
  ((L.decRefs k).decCompare k tq fx).decSixLeave k

/-- A decision in OFF or FAULT: every leg OFF, no estimate; sensor, SDIFF and references go on. Six-step and a run of the current
limit end there (log 138). -/
def Lane.idleDecision (L : Lane) (k : Nat) : Lane :=
  let L1 := (((L.decSensor k).decSdiff k).decRearm k).onDrv k (fun d => { d with
    climSince := none, climDone := false, sixRun := 0, sixOut := 0, sdiffRun := 0 })
  ((((L1.put F.DRV_STATE_SIX 0 k).put F.DRV_EST_T_TIME L.mtN k).decRefs k).forceLegs k [0, 0, 0]).sendLeg

/-- A decision of a running engine, its legs apart. Without its frame it goes on with the last currents (log 136). -/
def Lane.runDecision (L : Lane) (k j : Nat) (f : Option DrvFrame) : Lane :=
  let L0 := match f with
    | some f => L.takeFrame k f
    | none => ((L.onDrv k (fun d => { d with frame := none, lateRun := d.lateRun + 1 })).addSat F.DRV_CNT_2_SLATE 1 k).transient
        Ev.DRV_SAMPLE_LATE k
  let L1 := ((((L0.decSensor k).decObserver k j).decLoopView k).decRearm k).decPolarity k j
  ((((L1.decSensorLost k).decFlux k j).decEst k).decAct k)

/-- The frame that serves the decision at this instant (R214). -/
def Lane.frameNow (L : Lane) (k : Nat) : Option DrvFrame := (L.drv k).frame.filter (fun f => f.due == L.mtN)

/-- A decision of a running engine. Without its frame the leg states stay (R217). -/
def Lane.switchDecision (L : Lane) (k j : Nat) : Lane :=
  let f := L.frameNow k
  let L1 := L.runDecision k j f
  if f.isSome then L1.decLegs k j else L1.keepLegs k

/-- DECISION (R213): at D(j), every decision counted. In OFF and FAULT every leg stays OFF. Draws one free value. -/
def execDecision (l : LaneId) (k : Fin 4) (s : State) : Out :=
  let L := s.lane l
  if !(L.up && L.atDecision k.val) then .next s
  else
    let r := s.draw
    .next (r.2.upd l (fun L =>
      let L1 := L.onDrv k.val (fun d => { d with decN := d.decN + 1 })
      if L.drvIdle k.val then L1.idleDecision k.val else L1.switchDecision k.val r.1))

/-! ### Events of an engine -/

/-- SAMPLE_LOST (R217): four consecutive decisions without frames. -/
def execSampleLost (l : LaneId) (k : Fin 4) (s : State) : Out :=
  s.on l (fun L => L.up && !L.drvIdle k.val && decide (4 ≤ (L.drv k.val).lateRun)) (fun L =>
    ((L.onDrv k.val (fun d => { d with lateRun := 0 })).drvFault k.val).permanent Ev.DRV_SAMPLE_LOST (.drv k.val) k.val)

/-- ISUM (R218): the current sum outside the band for 8 consecutive decisions, recorded once per run after 8 inside it. -/
def execIsum (l : LaneId) (k : Fin 4) (s : State) : Out :=
  s.on l (fun L => L.up && decide (8 ≤ (L.drv k.val).isumOver) && (L.drv k.val).isumArmed) (fun L =>
    (L.onDrv k.val (fun d => { d with isumArmed := false })).transient Ev.DRV_ISUM k.val)

/-- MAGNETISED (R235): the flux error below HF for 32 decisions with an angle in command. POS_E is aligned (R244). -/
def execMagnetised (l : LaneId) (k : Fin 4) (s : State) : Out :=
  s.on l (fun L => L.up && L.drvState k.val == 2 && decide (32 ≤ (L.drv k.val).magRun) && L.angleIn k.val) (fun L =>
    let q := L.dget F.DRV_PSRC_PSEL k.val
    let v := if q ≤ 9 then (L.quant q).val else 0
    ((L.setDrv k.val 3).onDrv k.val (fun d => { d with posAcc := v * 2 ^ 48 })).putS F.DRV_POS_E_POS v k.val)

/-- SIX_ENTER (R233). -/
def execSixEnter (l : LaneId) (k : Fin 4) (s : State) : Out :=
  s.on l (fun L => L.up && !L.drvIdle k.val && L.dis F.DRV_MODE_OVMEN k.val && !L.is F.DRV_STATE_SIX k.val
      && decide (ofQ15 (L.dget F.DRV_OVM_OVMW k.val) ≤ (L.drv k.val).wc.natAbs) && decide (32 ≤ (L.drv k.val).sixRun)) (fun L =>
    ((L.put F.DRV_STATE_SIX 1 k.val).onDrv k.val (fun d => { d with cf := 1, sixOut := 0 })).note Ev.DRV_SIX_ENTER k.val)

/-- TAKEOVER (R242): the estimate takes command. -/
def execTakeover (l : LaneId) (k : Fin 4) (s : State) : Out :=
  s.on l (fun L => L.up && L.takeoverDue k.val) (fun L =>
    let onDiff := (L.drv k.val).sensorOk
    let L1 := (((L.put F.DRV_STATE_ASRC 1 k.val).note Ev.DRV_TAKEOVER k.val).incSat F.DRV_CNT_0_TAKEOVER k.val).flag
      F.DRV_EVT_TAKEOVER k.val
    if onDiff then L1.transient Ev.DRV_SENS_DIFF k.val else L1)

/-- REARM (R243): a write of MODE.REARM = 1; the next decisions take it. -/
def execRearm (l : LaneId) (k : Fin 4) (s : State) : Out :=
  s.on l Lane.up (fun L => (L.put F.DRV_MODE_REARM 1 k.val).onDrv k.val (fun d => { d with rearmAt := some L.now }))

/-- REARM_REFUSED (R243): not taken within 1 ms. -/
def execRearmRefused (l : LaneId) (k : Fin 4) (s : State) : Out :=
  s.on l (fun L => L.up && (match (L.drv k.val).rearmAt with
      | some t => L.since t (ms 1)
      | none => false)) (fun L =>
    ((L.onDrv k.val (fun d => { d with rearmAt := none })).put F.DRV_MODE_REARM 0 k.val).note Ev.DRV_REARM_REFUSED k.val)

/-- OBS_LOST (R245): CONF below CTH for 200 us, rounded up to whole decisions. The catch starts with the estimate in command, and
with an invalid sensor in command, of which the spec does not speak (log 139). -/
def execObsLost (l : LaneId) (k : Fin 4) (s : State) : Out :=
  s.on l (fun L => L.up && !L.drvIdle k.val && !(L.drv k.val).lost
      && decide (us 200 ≤ (L.drv k.val).confLow * L.drvPeriod k.val)) (fun L =>
    let L1 := (((L.onDrv k.val (fun d => { d with lost := true })).incSat F.DRV_CNT_0_OBSLOST k.val).note Ev.DRV_OBS_LOST k.val).flag
      F.DRV_EVT_LOST k.val
    if (L.is F.DRV_STATE_ASRC k.val || !(L.drv k.val).sensorOk) && L.drvState k.val == 3 then L1.enterCatch k.val else L1)

/-- CATCH_WINDOW (R245): a window of 2 ms ends without a catch; its probes are discarded and the next one starts. -/
def execCatchWindow (l : LaneId) (k : Fin 4) (s : State) : Out :=
  s.on l (fun L => L.up && (L.drvState k.val == 6 || L.drvState k.val == 2) && (L.drv k.val).caught.isNone
      && L.since (L.drv k.val).winAt (ms 2)) (fun L =>
    let L1 := L.onDrv k.val (fun d => { d with winAt := L.now, winFail := false, cycAt := L.now, probe := none, v0Run := 0 })
    if L.drvState k.val = 6 then L1.put F.DRV_STATE_WIN (min 10 (L.get F.DRV_STATE_WIN k.val + 1)) k.val else L1)

/-- CATCH_DONE (R245): caught; ψ̂ := PSIPM∠θ + LQ × i, observer and tracking loop seeded, CATCH returns to RUN with TQ_EFF held
until the next boundary. -/
def execCatchDone (l : LaneId) (k : Fin 4) (s : State) : Out :=
  s.on l (fun L => L.up && (L.drvState k.val == 6 || L.drvState k.val == 2) && (L.drv k.val).caught.isSome) (fun L =>
    match (L.drv k.val).caught with
    | none => L
    | some p =>
      let d := L.drv k.val
      let r := rot p.theta (L.dq F.DRV_MOT_0_PSIPM k.val, 0)
      let lq := L.dq F.DRV_MOT_1_LQ k.val
      let psi : Int × Int := (sat24 (r.1 + qmul lq d.i.1), sat24 (r.2 + qmul lq d.i.2))
      let L1 := (((L.onDrv k.val (fun x => { x with
        psi := psi, psiO := psi, psiDue := false, w := p.w, thPrev := p.theta, caught := none, probe := none, lost := false, confLow := 0 })).put
        F.DRV_ANG_E_THETA_E p.theta k.val).note Ev.DRV_CATCH_DONE k.val).flag F.DRV_EVT_CAUGHT k.val
      if L.drvState k.val = 6 then (L1.setDrv k.val 3).onDrv k.val (fun x => { x with heldTq := true }) else L1)

/-- CATCH_FAIL (R246): 20 ms since the loss. -/
def execCatchFail (l : LaneId) (k : Fin 4) (s : State) : Out :=
  s.on l (fun L => L.up && L.drvState k.val == 6 && (L.drv k.val).caught.isNone && L.since (L.drv k.val).lossAt (ms 20)) (fun L =>
    (L.drvFault k.val).permanent Ev.DRV_CATCH_FAIL (.drv k.val) k.val)

/-- PRECHARGE_TIMEOUT (R235): 5 ms without gate supplies ready. -/
def execPrechargeTimeout (l : LaneId) (k : Fin 4) (s : State) : Out :=
  s.on l (fun L => L.up && L.drvState k.val == 1 && L.since (L.drv k.val).stAt (ms 5)) (fun L =>
    (L.drvFault k.val).permanent Ev.DRV_MAG_FAIL (.drv k.val) k.val)

/-- MAGNETISE_TIMEOUT (R235): 15 ms since entry without reaching RUN. -/
def execMagnetiseTimeout (l : LaneId) (k : Fin 4) (s : State) : Out :=
  s.on l (fun L => L.up && L.drvState k.val == 2 && L.since (L.drv k.val).stAt (ms 15)) (fun L =>
    (L.drvFault k.val).permanent Ev.DRV_MAG_FAIL (.drv k.val) k.val)

/-- RAMPDOWN_TIMEOUT (R235): 100 us since entry; OFF with legs OFF. -/
def execRampdownTimeout (l : LaneId) (k : Fin 4) (s : State) : Out :=
  s.on l (fun L => L.up && L.drvState k.val == 4 && L.since (L.drv k.val).stAt (us 100)) (fun L => L.drvOff k.val 0)

/-- NOREG_CLEAR (R231): 1 ms after the last over-voltage report ended. -/
def execNoregClear (l : LaneId) (k : Fin 4) (s : State) : Out :=
  s.on l (fun L => L.up && L.is F.DRV_STATE_NOREG k.val && !L.ovReported && L.since (L.drv k.val).noregAt (ms 1)) (fun L =>
    L.put F.DRV_STATE_NOREG 0 k.val)

/-- CLIM (R230): the current limit at every decision for 1 ms. -/
def execClim (l : LaneId) (k : Fin 4) (s : State) : Out :=
  s.on l (fun L => L.up && !(L.drv k.val).climDone && (match (L.drv k.val).climSince with
      | some t => L.since t (ms 1)
      | none => false)) (fun L =>
    (L.onDrv k.val (fun d => { d with climDone := true })).note Ev.DRV_CLIM k.val)

/-- SWCNT_READ (R250): a read of SWCNT_LO latches [63:32] into SWCNT_HI. -/
def execSwcntRead (l : LaneId) (m : Master) (k : Fin 4) (s : State) : Out :=
  s.gate l m false (R.DRV_SWCNT_LO.addr k.val 0) (fun s => s.on l Lane.up (fun L =>
    let L1 := L.put F.DRV_SWCNT_HI_CNT_HI ((L.drv k.val).swcnt / 2 ^ 32) k.val
    { L1 with cmdq := { L1.cmdq with busData := BitVec.ofNat 32 (L.drv k.val).swcnt } }))

end Sys2Proof.Machine
end

