-- ==== Sys2Proof/Machine/Eth.lean ====
section
/-!
DEFINITION. Machine/Eth.lean: the commands of Ethernet, twin-path frames and the pair on the network (14), and the partner's
heartbeat and the switch-over of a pair (R110 to R114, R459 to R461).
-/

namespace Sys2Proof.Machine

/-- TWP and the switch are powered. -/
def Lane.ethUp (L : Lane) : Bool := L.up && L.domOn 8

/-! ### Twin-path frames -/

/-- TWP_TXREQ (R452, R462, R463): the service pair's request builds a frame and queues both copies. A MULTI request takes the SEQ
written for it, and only a member lane sends it; a STANDBY module not before it holds the ACTIVE module's counters and OFS is
measured. -/
def execTwpTxreq (l : LaneId) (entry : Fin 64) (payload : List Byte) (s : State) : Out :=
  s.on l (fun L => L.ethUp && L.svcRuns && L.didTx entry.val) (fun L =>
    let i := entry.val
    if L.didUnread i then L.didMemErr i
    else if L.dg i 4 16 11 < payload.length then L.note Ev.TWP_CFG_ERR
    else if L.dg i 0 18 1 = 1 then
      match L.twp.txSeqNext with
      | none => L.note Ev.TWP_CFG_ERR
      | some q =>
        let L1 := L.onTwp (fun t => { t with txSeqNext := none })
        if L1.isMember L1.strap && !(L1.standby && !(L1.is F.TWP_PAIROFS_VALID && L1.twp.mirrored)) then L1.twpSend i q payload else L1
    else
      let q := L.twp.txSeq.getD i 0 + 1
      (L.onTwp (fun t => { t with txSeq := t.txSeq.set i q })).twpSend i q payload)

/-- COPY (R454 to R458): a copy arrives on a carrier of a receive entry, is checked on its own and judged. -/
def execCopy (l : LaneId) (car : TwpCar) (frame : List Byte) (s : State) : Out :=
  s.on l Lane.ethUp (fun L0 =>
    let L := match car with
      | .eth _ p => L0.frameIn p.val
      | _ => L0
    match L.twpEntry car frame with
    | none => L
    | some i =>
      if L.didUnread i then L.didMemErr i
      else match L.twpCheck i frame with
      | some e => (L.dInc i 0x1C 0).note e
      | none => L.twpJudge i frame)

/-- COMPARISON_END (R455, R457): the windows of an entry that have ended close with their one copy. -/
def execComparisonEnd (l : LaneId) (i : Fin 64) (s : State) : Out :=
  s.on l Lane.ethUp (fun L => L.twpEndAll i.val (fun o => decide (o.endAt ≤ L.now)))

/-- RXQ_POP (R458): a write of TWP_RXQ.POP by the service pair removes the oldest frame. -/
def execRxqPop (l : LaneId) (s : State) : Out :=
  s.on l (fun L => L.ethUp && L.svcRuns) (fun L => (L.onTwp (fun t => { t with rxq := t.rxq.tail })).rxqShow)

/-- PAIR_SILENT (R461): no partner frame on any PAIRWATCH entry for its window. -/
def execPairSilent (l : LaneId) (s : State) : Out :=
  s.on l (fun L =>
      let es := (List.range 64).filter (fun i => L.didRx i && L.dg i 0 20 1 == 1)
      L.ethUp && L.standby && !L.is F.TWP_PAIROFS_SILENT && !es.isEmpty &&
        es.all (fun i => L.since (L.twp.watchAt.getD i 0) (L.winT i))) (fun L =>
    (L.put F.TWP_PAIROFS_SILENT 1).note Ev.TWP_PAIR_SILENT)

/-- What R451 refuses when an entry is enabled. -/
def Lane.didBad (L : Lane) (i : Nat) : Bool :=
  let same := (List.range 64).any (fun j => j != i && L.dg j 0 16 1 == 1 && L.dg j 0 0 16 == L.dg i 0 0 16 && L.dg j 0 17 1 == L.dg i 0 17 1)
  let need := L.dg i 4 16 11 + 24
  let o := L.dg i 8 5 7
  let n := L.dg i 8 3 2
  let room := 0x8000 - 64 * L.og n o 0x14 20 9
  let send := L.dg i 0 17 1 == 1
  let fmt := L.og n o 0 4 3
  let canCap :=
    if send then (if fmt = 1 then 64 else if fmt = 2 then max 64 (min 2048 room) else 0)
    else if bit fmt 2 then max 64 (min (64 * L.og n o 0x0C 24 8) room) else if bit fmt 1 then 64 else 0
  let capA := if L.aCar i = 2 then canCap else 2 * L.bg o 4 0 7
  let useA := L.aCar i == 1 || L.aCar i == 2
  same || (!useA && L.dg i 8 12 1 == 0) || (useA && decide (capA < need))

/-- DID_ENABLE (R451): a write of EN of a DID entry; an enable against R451 is refused with CFG_ERR. -/
def execDidEnable (l : LaneId) (i : Fin 64) (en : Bool) (s : State) : Out :=
  s.on l Lane.ethUp (fun L =>
    if en && L.didBad i.val then (L.dp i.val 0 16 1 0).note Ev.TWP_CFG_ERR else L.dp i.val 0 16 1 (b2n en))

/-! ### The switch -/

/-- SYNC (R446, R447): a Sync at an external port; `t` is domain V time, in ns, at its ingress timestamp. -/
def execSync (l : LaneId) (p : Fin 3) (t : BitVec 64) (s : State) : Out :=
  s.on l Lane.ethUp (fun L =>
    let here := (((L.ingressTs p.val).toNat : Int) + L.getS F.TWP_PAIROFS_OFS) % (2 : Int) ^ 64
    ((L.putS F.ETH_PTP_OFSV_OFS (satS 32 ((t.toNat : Int) - 5 * here))).put F.ETH_PTP_SLVV 1).frameIn p.val)

/-- What the lane announces in domain MT (R445): priority1 255 in a STANDBY module, priority2 100 + SYS_LANE; quality and identity are
the switch's (log 147). -/
def Lane.ownAnnounce (L : Lane) : Announce where
  prio1 := if L.standby then 255 else BitVec.ofNat 8 (L.get F.ETH_PTP_PRIO1)
  quality := Config.clockQuality
  prio2 := BitVec.ofNat 8 (100 + L.strap.idx)
  id := Config.clockId L.strap.idx

/-- The order of IEEE 802.1AS in which the lower is the better grandmaster. -/
def announceRank (a : Announce) : Nat :=
  ((a.prio1.toNat * 2 ^ 32 + a.quality.toNat) * 2 ^ 8 + a.prio2.toNat) * 2 ^ 64 + a.id.toNat

/-- The lane is grandmaster of domain MT when the best of the other nodes, if any, announces a higher rank. -/
def Lane.isMaster (L : Lane) (best : Option Announce) : Bool :=
  !L.standby && (match best with
    | some a => decide (announceRank L.ownAnnounce < announceRank a)
    | none => true)

/-- GPTP_ANNOUNCE (R445): the best grandmaster that other nodes announce in a domain, none after the timeout. The lane is never
grandmaster in domain V, in a disabled domain MT, or in a STANDBY module. -/
def execGptpAnnounce (l : LaneId) (domV : Bool) (best : Option Announce) (s : State) : Out :=
  s.on l (fun L => L.ethUp && (domV || L.get F.ETH_PTP_DOMMT != L.get F.ETH_PTP_DOMV)) (fun L =>
    let self := !domV && L.isMaster best
    let new := if self then some L.ownAnnounce.id else best.map (fun a => a.id)
    let L1 := if domV then L.putB F.ETH_PTP_SLVV (new.isSome && L.is F.ETH_PTP_SLVV) else L.putB F.ETH_PTP_GMMT self
    L1.gmSet (b2n domV) new)

/-- The admin list of a port as ETH's tables hold it, its LEN + 1 entries. -/
def Lane.adminList (L : Lane) (p : Nat) : GateList :=
  let g := Config.gateList p (L.mem.filter (fun c => decide (0x40161000 ≤ c.1) && decide (c.1 < 0x40170000)))
  ⟨g.1, g.2.1, g.2.2.take (L.get F.ETH_QBV_LEN 0 p + 1)⟩

/-- QBV_SWAP (R448): a write of ETH_QBV_p.SWAP requests the take-over of the admin list; tables that cannot be read are a MEMERR of the
port (R397). -/
def execQbvSwap (l : LaneId) (p : Fin 3) (s : State) : Out :=
  s.on l Lane.ethUp (fun L =>
    if L.poisonedIn 0x40161000 0xF000 then L.transient Ev.ETH_MEMERR 0 p.val
    else (L.put F.ETH_QBV_PEND 1 0 p.val).onEth (fun e => { e with admin := e.admin.set p.val (some (L.adminList p.val)) }))

/-- The take-over is due: pair time has reached the new list's base time and stands at a cycle start of the old list, if there is one. -/
def Lane.gclDue (L : Lane) (p : Nat) : Bool :=
  match L.eth.admin.getD p none with
  | some g => decide (g.base ≤ L.pairTime) && (match L.eth.oper.getD p none with
    | some o => (L.pairTime - o.base) % max 1 o.cycle == 0
    | none => true)
  | none => false

/-- GCL_TAKEOVER (R448): the new list takes over at the first cycle start of the old one at or after its base time; its own cycles
start there. -/
def execGclTakeover (l : LaneId) (p : Fin 3) (s : State) : Out :=
  s.on l (fun L => L.ethUp && L.is F.ETH_QBV_PEND 0 p.val && L.gclDue p.val) (fun L =>
    let new := (L.eth.admin.getD p.val none).map (fun g => { g with base := L.pairTime })
    ((L.put F.ETH_QBV_PEND 0 0 p.val).onEth (fun e => { e with
      oper := e.oper.set p.val new, admin := e.admin.set p.val none })).pulse 103)

/-- The gates that open at `k` ticks into a cycle, where an entry of the list starts there. -/
def entryAt : List (Nat × Byte) → Nat → Option Byte
  | [], _ => none
  | (d, m) :: rest, k => if k = 0 then some m else if k < d then none else entryAt rest (k - d)

/-- The gates that a port's list sets now (R448). -/
def Lane.gatesDue (L : Lane) (p : Nat) : Option Byte :=
  match L.eth.oper.getD p none with
  | some g => if g.base ≤ L.pairTime then entryAt g.entries ((L.pairTime - g.base) % max 1 g.cycle) else none
  | none => none

/-- GATE_CONTROL_EVENT (R448): at an entry of a port's list, which runs on pair time, its egress gates open and close. -/
def execGateControlEvent (l : LaneId) (p : Fin 3) (s : State) : Out :=
  s.on l (fun L => L.ethUp && L.is F.ETH_QBV_EN 0 p.val && (L.gatesDue p.val).isSome) (fun L =>
    match L.gatesDue p.val with
    | some m => L.onEth (fun e => { e with gates := e.gates.set p.val m })
    | none => L)

/-- PLCA_LOST (R444): beacon loss for 4 cycles; port 2 falls back to CSMA/CD. -/
def execPlcaLost (l : LaneId) (s : State) : Out :=
  s.on l (fun L => L.ethUp && L.is F.ETH_PORT_CFG_PLCA 0 2 && !L.is F.ETH_T1S_FALLBK) (fun L =>
    (L.put F.ETH_T1S_FALLBK 1).note Ev.ETH_PLCA_LOST)

/-- PLCA_BEACON (R444): back to PLCA at the first beacon. -/
def execPlcaBeacon (l : LaneId) (s : State) : Out :=
  s.on l (fun L => L.ethUp && L.is F.ETH_T1S_FALLBK) (fun L => L.put F.ETH_T1S_FALLBK 0)

/-- T1S_WAKE (R464): bus activity for T1SWAKE us wakes the lane with cause 5. -/
def execT1sWake (l : LaneId) (s : State) : Out :=
  s.on l (fun L => L.hedgeUp && L.asleep && L.is F.PWR_WAKEEN_T1S) (fun L => L.wake 5)

/-- PORT_LINK_CHANGE (R464, R465): an external port's link goes up or down; a port out of service stays down. -/
def execPortLinkChange (l : LaneId) (p : Fin 3) (up : Bool) (s : State) : Out :=
  s.on l (fun L => L.ethUp && L.is F.ETH_PORT_STAT_LINK 0 p.val != up && !(up && L.outOfService (.eth p.val))) (fun L =>
    let L1 := L.setLink p.val up
    (if up then L1 else L1.transient Ev.ETH_LINK_DOWN 0 p.val).ethVote)

/-- ETH_VOTE_LAPSE (R464): no link, and no frame for 1 s; the vote is withdrawn. -/
def execEthVoteLapse (l : LaneId) (s : State) : Out :=
  s.on l (fun L => L.up && [0, 1, 2].all (fun p => !L.is F.ETH_PORT_STAT_LINK 0 p) && L.since L.eth.lastFrame (sec 1)) (fun L =>
    L.vote 9 8 0)

/-! ### The pair (R110 to R114, R459, R460) -/

/-- A STANDBY module's offset from one heartbeat of the ACTIVE one, averaged over 16 (R459): its time is that of its first byte, 160 ns
before its last; the mean is rounded down (log 122). -/
def Lane.ofsTake (L : Lane) (hb : ExtBeat) : Lane :=
  let d : Int := toSigned 64 (hb.mt.toNat + 32 + 2 ^ 64 - L.mtN) - (L.get F.OZL_LINK_DELAY 0 2 / 5 : Nat)
  let acc := (d :: L.twp.ofsAcc).take 16
  let L1 := L.onTwp (fun t => { t with ofsAcc := acc })
  if acc.length = 16 && !L.is F.TWP_PAIROFS_FROZEN then
    (L1.putS F.TWP_PAIROFS_OFS (acc.foldl (· + ·) 0 / 16)).put F.TWP_PAIROFS_VALID 1
  else L1

/-- A STANDBY module keeps the mirror of the ACTIVE module's trajectories, compares its own with them and drives with them (R111,
R113). -/
def Lane.trajTake (L : Lane) (traj : List Int) : Lane :=
  L.onCmdq (fun q => { q with
    mirrorTraj := traj, trajDiff := (q.acts.zip traj).any (fun p => p.1.setpoint != p.2) })

/-- A STANDBY module takes the SEQ counters of its MULTI send entries from the mirror (R462). -/
def Lane.seqTake (L : Lane) (seqs : List Word) : Lane :=
  (seqs.zipIdx.foldl (fun K q => if K.didTx q.2 && K.dg q.2 0 18 1 == 1 then K.dp q.2 0x10 0 32 q.1.toNat else K) L).onTwp
    (fun t => { t with mirrored := true })

/-- EXT_HEART (R110 to R113, R459, R462): the partner's heartbeat in slot 1 of the external cycle, with slot 0's role, level and
trajectories, whose layout the spec does not give: `hb` (log 131). Its module time is the cell's. -/
def execExtHeart (l : LaneId) (ns : Fin 5) (cell : List Byte) (hb : ExtBeat) (s : State) : Out :=
  s.on l (fun L => L.up && L.linkUp 2) (fun L =>
    let r := L.linkRx 2 ns.val cell
    match r.2 with
    | some (h, p) =>
      if h.kind = 2 && e2eOk h.src h.cyc p then
        let b := { hb with mt := (heartOf h p).mt }
        let clash := b.primary == L.is F.OZL_PAIR_PRIMARY
        let L1 := (r.1.put F.OZL_PAIR_PUP 1).onOzl (fun o => { o with
          extLast := L.now, partner := some b, lastHeart := upd2 o.lastHeart 2 L.now })
        let L2 := if clash && !L.is F.OZL_PAIR_CONFLICT then L1.note Ev.OZL_PAIR_CFG else L1
        let L3 := (L2.putB F.OZL_PAIR_CONFLICT clash).pairStep
        if L3.standby && b.active then ((L3.ofsTake b).trajTake b.traj).seqTake b.seqs else L3
      else r.1
    | none => r.1)

/-- The own trajectories continue from the mirrored set-points (R114). -/
def Lane.followMirror (L : Lane) : Lane :=
  L.onCmdq (fun q => { q with
    acts := q.acts.zipIdx.map (fun a => match q.mirrorTraj[a.2]? with
      | some v => { a.1 with setpoint := v, frac := v * 1000 }
      | none => a.1)
    mirrorTraj := [], trajDiff := false })

/-- PAIR_SWITCHOVER (R114, R460): the STANDBY module takes ACTIVE, freezes OFS and continues from the mirrored trajectories. -/
def execPairSwitchover (l : LaneId) (s : State) : Out :=
  s.on l (fun L =>
      let lower := match L.ozl.partner with
        | some hb => hb.active && decide (hb.level.toNat < L.get F.OZL_LSTATE_LEVEL)
        | none => false
      let silent := LaneId.all.all (fun x => (s.lane x).since (s.lane x).ozl.extLast (us 6)) && L.is F.TWP_PAIROFS_SILENT
      L.up && L.standby && (lower || silent)) (fun L =>
    ((L.put F.OZL_PAIR_ROLE 1).put F.TWP_PAIROFS_FROZEN 1).followMirror)

end Sys2Proof.Machine
end

