-- ==== Sys2Proof/Machine/Flx.lean ====
section
/-!
DEFINITION. Machine/Flx.lean: the commands of Time-triggered communication on FlexRay (13), and the lapse of a read lock of CAN or
FLX (R412, R432).
-/

namespace Sys2Proof.Machine

/-- FLX is powered, enabled and in service. -/
def Lane.flxLive (L : Lane) : Bool := L.up && L.domOn 9 && L.is F.FLX_CTL_EN && !L.outOfService .flx

/-- What R424 refuses. -/
def Lane.flxBad (L : Lane) : Bool :=
  let g := L.get
  let mpc := g F.FLX_CYC_MPC
  let nss := g F.FLX_CYC_NSS
  let ssl := g F.FLX_SLOT_SSL
  let nms := g F.FLX_DYN_NMS
  let msl := g F.FLX_SLOT_MSL
  let used := nss * ssl + nms * msl + g F.FLX_KEY_SW
  let role := g F.FLX_CTL_ROLE
  L.get F.FLX_CTL_CHEN == 0 || decide (nss < 2) || decide (ssl < 4) || decide (659 < ssl) || decide (7986 < nms) || decide (msl < 2) || decide (63 < msl) ||
    decide (mpc < 10) || decide (16000 < mpc) || g F.FLX_KEY_UPM == 0 || decide (g F.FLX_INTEG_CSATT < 2) ||
    decide (g F.FLX_INTEG_SYNCMIN < 2) || g F.FLX_CTL_RATE == 3 || role == 3 || (L.is F.FLX_CTL_CAUT && role == 2) ||
    ((role == 1 || role == 2) && decide (nss < g F.FLX_KEY_KEYSLOT)) || decide (mpc < used + 2) ||
    decide (ssl ≤ g F.FLX_SLOT_APO) || decide (msl ≤ g F.FLX_SLOT_MSAPO)

/-- FLX_ENABLE (R424, R439): a write of CTL.EN; an enable against R424 is refused with CFG_ERR. -/
def execFlxEnable (l : LaneId) (en : Bool) (s : State) : Out :=
  s.on l (fun L => L.up && L.domOn 9 && L.is F.FLX_CTL_EN != en) (fun L =>
    if !en then
      let halted := L.poc == 6
      let L1 := (((L.put F.FLX_CTL_EN 0).put F.FLX_POC_CAUTHOLD 0).put F.FLX_POC_TXINH 0).put F.FLX_POC_PCAUSE 0
      (L1.onFlx (fun x => { x with started := false, cautNext := x.cautNext || halted })).setPoc 0
    else if L.flxBad then L.note Ev.FLX_CFG_ERR
    else
      (((L.put F.FLX_CTL_EN 1).put F.FLX_POC_COLDINH 0).onFlx (fun x => { x with
        attempts := 0, listenAt := L.now, fails := 0, inLim := 0, passive := 0 })).setPoc 1)

/-- Ticks of a macrotick: UPM × 4 microticks of 25 ns, of 50 ns at 2.5 Mbit/s. -/
def Lane.macroT (L : Lane) : Nat := L.get F.FLX_KEY_UPM * 4 * (if L.get F.FLX_CTL_RATE = 2 then 10 else 5)

/-- The listen timeout in ticks: 2 × MPC × 1.0015 macroticks and the lane's stagger (R425). -/
def Lane.listenT (L : Lane) : Nat :=
  (2 * L.get F.FLX_CYC_MPC * 10015 / 10000 + L.strap.idx * L.get F.FLX_INTEG_STAGGER) * L.macroT

/-- LISTEN_TIMEOUT (R425, R426): a cold-starter that heard no traffic contends to lead; one that has used CSATT attempts gives up. -/
def execListenTimeout (l : LaneId) (s : State) : Out :=
  s.on l (fun L => L.flxLive && L.get F.FLX_CTL_ROLE == 2 && !L.is F.FLX_POC_COLDINH && !L.flx.cautNext &&
      (L.poc == 1 || L.poc == 3) && !L.is F.FLX_POC_CAUTHOLD && L.since L.flx.listenAt L.listenT) (fun L =>
    if L.get F.FLX_INTEG_CSATT ≤ L.flx.attempts then
      ((L.put F.FLX_POC_COLDINH 1).note Ev.FLX_CS_ABANDON).onFlx (fun x => { x with listenAt := L.now })
    else
      (L.onFlx (fun x => { x with attempts := x.attempts + 1, listenAt := L.now, lead := true })).setPoc 3)

/-- INTEGRATION (R427 to R429): the consistency check passed; NORMAL_ACTIVE, or the cautious hold. -/
def execIntegration (l : LaneId) (cycle : BitVec 6) (s : State) : Out :=
  s.on l (fun L => L.flxLive && (L.poc == 1 || L.poc == 3) && !L.is F.FLX_POC_CAUTHOLD) (fun L =>
    let L1 := (L.put F.FLX_POC_CYCLE cycle.toNat).onFlx (fun x => { x with
      attempts := 0, started := false, lead := false, cycBad := false, holdFull := false, fails := 0, inLim := 0, passive := 0 })
    if L1.is F.FLX_CTL_CAUT || L1.flx.cautNext then (L1.put F.FLX_POC_CAUTHOLD 1).setPoc 3
    else L1.setPoc 4)

/-- The schedule runs: NORMAL_ACTIVE, NORMAL_PASSIVE, or the cautious hold. -/
def Lane.flxRuns (L : Lane) : Bool := L.poc == 4 || L.poc == 5 || L.is F.FLX_POC_CAUTHOLD

/-- At least SYNCMIN sync frames on every enabled channel. -/
def Lane.syncEnough (L : Lane) (a b : Nat) : Bool :=
  let m := L.get F.FLX_INTEG_SYNCMIN
  (!L.fbit F.FLX_CTL_CHEN 0 || decide (m ≤ a)) && (!L.fbit F.FLX_CTL_CHEN 1 || decide (m ≤ b))

/-- The offset and rate corrections lie within OLIM and RLIM. -/
def Lane.corrIn (L : Lane) (ofs rate : Int) : Bool :=
  decide (ofs.natAbs ≤ L.get F.FLX_CCLIM_OLIM) && decide (rate.natAbs ≤ L.get F.FLX_CCLIM_RLIM)

/-- The judgement of a cycle of the cautious hold (R428). -/
def Lane.holdJudge (L : Lane) (syncA syncB : Nat) : Lane :=
  if !L.is F.FLX_POC_CAUTHOLD then L
  else if !L.flx.holdFull then L.onFlx (fun x => { x with holdFull := true })
  else if L.syncEnough syncA syncB && L.corrIn (L.getS F.FLX_CORR_OFS) (L.getS F.FLX_CORR_RATE) && !L.flx.cycBad then
    ((L.put F.FLX_POC_CAUTHOLD 0).onFlx (fun x => { x with cautNext := false, holdFull := false, fails := 0 })).setPoc 4
  else if L.flx.fails + 1 = 8 then (L.note Ev.FLX_CAUT_FAIL).flxListen false
  else L.onFlx (fun x => { x with fails := x.fails + 1 })

/-- CYCLE_START (R428, R435): cycle counter, MTCS and MTPER, CYCST; the hold judged with the sync frames of the cycle that ended. -/
def execCycleStart (l : LaneId) (syncA syncB : Nat) (s : State) : Out :=
  s.on l (fun L => L.flxLive && L.flxRuns) (fun L =>
    let prev := L.reg R.FLX_MTCS
    let L1 := if L.flx.started then L.setReg R.FLX_MTPER ((L.mtLo.toNat + 2 ^ 32 - prev) % 2 ^ 32) else L
    let L2 := (((L1.setReg R.FLX_MTCS L.mtLo.toNat).flag F.FLX_EVT_CYCST).incMod F.FLX_POC_CYCLE).holdJudge syncA syncB
    L2.onFlx (fun x => { x with
      started := true, cycBad := false, rxNow := [], txNow := [], cpiDone := [false, false, false, false],
      cpiEff := [0, 1, 2, 3].map (fun k => L.reg R.FLX_CPI 0 k) }))

/-- CPI (R436): the macrotick count reached a unit's position. -/
def execCpi (l : LaneId) (k : Fin 4) (s : State) : Out :=
  s.on l (fun L =>
      let w := L.flx.cpiEff.getD k.val 0
      L.flxLive && (L.poc == 4 || L.poc == 5) && bit w 23 && decide (bits w 0 14 < L.get F.FLX_CYC_MPC) &&
        cycMatch (L.get F.FLX_POC_CYCLE) (bits w 14 6) (bits w 20 3) && !L.flx.cpiDone.getD k.val false) (fun L =>
    (L.raise R.FLX_EVT (2 ^ k.val)).onFlx (fun x => { x with cpiDone := x.cpiDone.set k.val true }))

/-! ### Receiving (R430, R432, R437) -/

/-- The receive buffer a slot, channel and cycle match. -/
def Lane.bufFor (L : Lane) (f : FlxFrame) : Option Nat :=
  (List.range 128).find? (fun m => L.bg m 0 0 2 == 1 && L.bg m 0 4 11 == f.slot.toNat && L.bg m 0 (if f.chB then 3 else 2) 1 == 1 &&
    cycMatch (L.get F.FLX_POC_CYCLE) (L.bg m 0 15 6) (L.bg m 0 21 3))

/-- The payload a buffer keeps of a frame: at most PLEN words. -/
def Lane.bufPart (L : Lane) (m : Nat) (f : FlxFrame) : List Byte := f.payload.take (2 * L.bg m 4 0 7)

/-- A frame written into a buffer. A null frame updates the status only. -/
def Lane.bufStore (L : Lane) (m : Nat) (f : FlxFrame) : Lane :=
  let L1 := (((L.bp m 8 2 4 (if f.chB then 2 else 1)).bp m 8 6 1 (b2n f.nullF)).bp m 8 10 6 (L.get F.FLX_POC_CYCLE)).bp m 0xC 0 32 f.ts.toNat
  if f.nullF then L1
  else
    let L2 := if L1.bg m 8 0 1 = 1 then L1.bp m 8 1 1 1 else L1
    let at_ := flxPool (8 * L2.bg m 4 8 12)
    (((L2.bp m 8 0 1 1).setMemBytes at_ (L.bufPart m f)).unpoisonIn at_ (at_ + (L.bufPart m f).length)).raise R.FLX_RXEV
      (2 ^ (m % 32)) 0 (m / 32)

/-- The read lock of a buffer. -/
def FlxSt.lockOf (x : FlxSt) (m : Nat) : Option RdLock := x.locks.find? (fun k => k.obj == m)

/-- The first valid frame of a slot for a buffer: stored, or kept in the shadow while the buffer is locked (R432). -/
def Lane.bufTake (L : Lane) (m : Nat) (f : FlxFrame) : Lane :=
  if (L.flx.lockOf m).isSome then
    let waits := L.flx.shadow.any (fun h => h.1 == m)
    let L1 := if waits then L.bp m 8 1 1 1 else L
    L1.onFlx (fun x => { x with
      shadow := x.shadow.filter (fun h => h.1 != m) ++ [(m, f)]
      seconds := x.seconds.filter (fun h => h.1 != m) })
  else L.bufStore m f

/-- The second copy of a slot: its channel's valid bit, and CH_DIFF where the payload differs (R430). -/
def Lane.bufSecond (L : Lane) (m : Nat) (f : FlxFrame) : Lane :=
  let L1 := L.bp m 8 (if f.chB then 3 else 2) 1 1
  let first := L.memBytes (flxPool (8 * L.bg m 4 8 12)) (L.bufPart m f).length
  if f.nullF || first == L.bufPart m f then L1 else (L1.bp m 8 5 1 1).note Ev.FLX_CH_DIFF

/-- A second copy that arrives: it waits beside a first copy in the shadow. -/
def Lane.bufOther (L : Lane) (m : Nat) (f : FlxFrame) : Lane :=
  if L.flx.shadow.any (fun h => h.1 == m) then L.onFlx (fun x => { x with seconds := x.seconds ++ [(m, f)] }) else L.bufSecond m f

/-- FLX_RX_FRAME (R425, R430, R432, R437, R440). -/
def execFlxRxFrame (l : LaneId) (f : FlxFrame) (s : State) : Out :=
  s.on l (fun L => L.flxLive && decide (1 ≤ L.poc) && decide (L.poc ≤ 5) && L.fbit F.FLX_CTL_CHEN (if f.chB then 1 else 0)) (fun L0 =>
    -- a header during collision resolution: a node that contends to lead withdraws to listening (R425)
    let L := L0.onFlx (fun x => { x with listenAt := L0.now, lead := x.lead && L0.flxRuns })
    let win := L.get F.FLX_INTEG_APWIN
    if f.syntaxErr then
      ((L.incSat F.FLX_CNT_SYNTAX).transient Ev.FLX_SYNTAX).onFlx (fun x => { x with cycBad := true })
    else if !L.flxRuns then L
    else if (if win = 0 then 1 else win) < f.ofsUt.natAbs ∨ f.overrun then
      let L1 := match L.bufFor f with
        | some m => (L.bp m 8 4 1 1).note Ev.FLX_SLOT_BOUNDARY
        | none => L
      (L1.incSat F.FLX_CNT_SBV).onFlx (fun x => { x with cycBad := true })
    else
      match L.bufFor f with
      | none => L
      | some m =>
        if L.flx.rxNow.contains m then L.bufOther m f
        else (L.bufTake m f).onFlx (fun x => { x with rxNow := m :: x.rxNow }))

/-- A buffer's lock gone: the shadow written. -/
def Lane.bufRelease (L : Lane) (m : Nat) : Lane :=
  let held := L.flx.shadow.filter (fun h => h.1 == m)
  let second := L.flx.seconds.filter (fun h => h.1 == m)
  let L1 := (L.bp m 8 7 1 0).onFlx (fun x => { x with
    locks := x.locks.filter (fun k => k.obj != m), shadow := x.shadow.filter (fun h => h.1 != m)
    seconds := x.seconds.filter (fun h => h.1 != m) })
  second.foldl (fun K h => K.bufSecond m h.2) (held.foldl (fun K h => K.bufStore m h.2) L1)

/-- FLX_LOCK_READ (R432): a read of word 0x08 takes a free lock for its master. -/
def execFlxLockRead (l : LaneId) (m : Fin 128) (by_ : Master) (s : State) : Out :=
  s.on l (fun L => L.up && L.domOn 9) (fun L =>
    let L1 := match L.flx.lockOf m.val with
      | some _ => L
      | none => (L.bp m.val 8 7 1 1).onFlx (fun x => { x with
          locks := x.locks ++ [({ obj := m.val, who := by_, at_ := L.now } : RdLock)] })
    L1.onCmdq (fun q => { q with busData := L.memWord (bufAddr m.val 8) }))

/-- FLX_UNLOCK_READ (R432): a read of word 0x0C by the holding master. -/
def execFlxUnlockRead (l : LaneId) (m : Fin 128) (by_ : Master) (s : State) : Out :=
  s.on l (fun L => L.up && L.domOn 9) (fun L =>
    let L1 := match L.flx.lockOf m.val with
      | some k => if k.who = by_ then (L.bp m.val 8 0 2 0).bufRelease m.val else L
      | none => L
    L1.onCmdq (fun q => { q with busData := L.memWord (bufAddr m.val 0xC) }))

/-- LOCK_LAPSE (R412, R432): a lock not released for 20 us lapses and what waits is written; controller 4 is FLX. -/
def execLockLapse (l : LaneId) (n : Fin 5) (m : Fin 128) (s : State) : Out :=
  s.on l (fun L => L.up && match (if n.val = 4 then L.flx.lockOf m.val else (L.canSt n.val).lockOf m.val) with
      | some k => L.since k.at_ (us 20)
      | none => false) (fun L =>
    if n.val = 4 then (L.note Ev.FLX_LOCK_LAPSE).bufRelease m.val
    else (L.note Ev.CAN_LOCK_LAPSE n.val).objRelease n.val m.val)

/-! ### Sending (R433, R434) -/

/-- FLX_TXRQ (R433): a write of FLX_TXRQ_k commits the payloads of the transmit buffers its bits name. -/
def execFlxTxrq (l : LaneId) (k : Fin 4) (mask : Word) (s : State) : Out :=
  s.on l (fun L => L.up && L.domOn 9) (fun L =>
    ((List.range 32).foldl (fun K i => if bit mask.toNat i then K.bufRequest (32 * k.val + i) else K) L).flxVote)

/-- PAYLOAD_TAKE (R433, R434): the payload of a transmit buffer is taken for its slot, once a cycle, from the first cycle
start after the integration on (R427); a static slot without one sends a null frame, a dynamic frame past LATEST stays pending. -/
def execPayloadTake (l : LaneId) (m : Fin 128) (minislot : Nat) (memErr : Bool) (s : State) : Out :=
  s.on l (fun L => L.flxLive && L.poc == 4 && L.flx.started && !L.is F.FLX_POC_TXINH && !L.flx.txNow.contains m.val && L.bg m.val 0 0 2 == 2 &&
      cycMatch (L.get F.FLX_POC_CYCLE) (L.bg m.val 0 15 6) (L.bg m.val 0 21 3)) (fun L0 =>
    let k := m.val
    let L := L0.onFlx (fun x => { x with txNow := k :: x.txNow })
    let static := decide (L.bg k 0 4 11 ≤ L.get F.FLX_CYC_NSS)
    let pend := L.bufReady k
    let rep := L.bg k 0 25 1 == 1
    let free := (L.flx.lockOf k).isNone
    let nullOut (K : Lane) : Lane := if static then K.onFlx (fun x => { x with sent := some (k, []) }) else K
    if !static && pend && decide (L.get F.FLX_DYN_LATEST < minislot) then L.incSat F.FLX_CNT_DYNLATE
    else if (pend || (static && rep)) && free then
      let bad := if memErr then some (flxPool (8 * L.bg k 4 8 12)) else L.bufPoison k
      match bad with
      | some a => (nullOut ((L.memUe a false false).1.bp k 8 8 1 0)).transient Ev.FLX_MEMERR |>.flxVote
      | none =>
        let bs := L.memBytes (flxPool (8 * L.bg k 4 8 12)) (2 * L.bg k 4 0 7)
        let L1 := if rep then L else L.bp k 8 8 1 0
        ((L1.raise R.FLX_TXEV (2 ^ (k % 32)) 0 (k / 32)).onFlx
          (fun x => { x with sent := some (k, bs) })).flxVote
    else nullOut L)

/-! ### Clock correction and wake (R438 to R441) -/

/-- CLOCK_CORRECTION (R438, R439): at the end of each odd cycle. -/
def execClockCorrection (l : LaneId) (ofs rate : Int) (syncA syncB : Nat) (missing : Bool) (s : State) : Out :=
  s.on l (fun L => L.flxLive && L.flxRuns && L.get F.FLX_POC_CYCLE % 2 == 1) (fun L =>
    let L1 := (((L.putS F.FLX_CORR_OFS (satS 16 ofs)).putS F.FLX_CORR_RATE (satS 16 rate)).put F.FLX_POC_SYNCA (satU 15 syncA)).put
      F.FLX_POC_SYNCB (satU 15 syncB)
    let inn := L1.corrIn ofs rate
    if L1.poc = 4 then
      if !inn then
        ((((L1.put F.FLX_POC_TXINH 1).put F.FLX_POC_PCAUSE 1).onFlx (fun x => { x with inLim := 0, passive := 0 })).setPoc 5).transient
          Ev.FLX_CC_LIMIT
      else if missing then ((L1.put F.FLX_POC_PCAUSE 2).onFlx (fun x => { x with inLim := 0, passive := 0 })).setPoc 5
      else L1
    else if L1.poc = 5 then
      let good := if inn && L1.syncEnough syncA syncB && !missing then L1.flx.inLim + 1 else 0
      let pcp := L1.get F.FLX_CCLIM_PCP
      let maxp := L1.get F.FLX_CCLIM_MAXPASS
      let L1 := if !inn && L1.get F.FLX_POC_PCAUSE != 1 then
          ((L1.put F.FLX_POC_TXINH 1).put F.FLX_POC_PCAUSE 1).transient Ev.FLX_CC_LIMIT else L1
      let L2 := L1.onFlx (fun x => { x with inLim := good, passive := x.passive + 1 })
      if (if pcp = 0 then 1 else pcp) ≤ good then ((L2.put F.FLX_POC_TXINH 0).put F.FLX_POC_PCAUSE 0).setPoc 4
      else if (if maxp = 0 then 1 else maxp) ≤ L2.flx.passive then
        if L2.is F.FLX_CTL_AUTOREINT then ((L2.incSat F.FLX_CNT_REINT).transient Ev.FLX_REINT).flxListen true
        else L2.setPoc 6
      else L2
    else L1)

/-- WAKETX (R441): a write of CTL.WAKETX sends a wakeup pattern on WAKECH in READY, and is refused elsewhere. -/
def execWaketx (l : LaneId) (s : State) : Out :=
  s.on l (fun L => L.up && L.domOn 9) (fun L =>
    if L.poc = 1 then L.onFlx (fun x => { x with wakeOut := some (L.is F.FLX_CTL_WAKECH) }) else L.note Ev.FLX_CFG_ERR)

/-- FLX_WAKE (R441): a wakeup pattern on an enabled channel wakes the lane with cause 4. -/
def execFlxWake (l : LaneId) (s : State) : Out :=
  s.on l (fun L => L.hedgeUp && L.asleep && L.is F.PWR_WAKEEN_FLX) (fun L =>
    ((L.put F.FLX_POC_WCAUSE 4).onFlx (fun x => { x with woke := true })).wake 4)

end Sys2Proof.Machine
end

