-- ==== Sys2Proof/Machine/MemProt.lean ====
section
/-!
DEFINITION. Machine/MemProt.lean: commands of memory protection (11, R397 to R404): scrub passes and what they find, the copy of a
pruned bank into the reserve, relocated NVM blocks, decoder tests.
-/

namespace Sys2Proof.Machine

/-- The address lies in the trio TCM. -/
def inTrioTcm (a : Nat) : Bool := decide (0x10000000 ≤ a) && decide (a < 0x10040000)

/-- The address lies in the service TCM. -/
def inSvcTcm (a : Nat) : Bool := decide (0x10100000 ≤ a) && decide (a < 0x10120000)

/-- The loop engine of an address, and whether it lies in its data memory (R180). -/
def loopMemOf (a : Nat) : Option (Nat × Bool) :=
  if 0x30000000 ≤ a ∧ a < 0x30040000 then some ((a - 0x30000000) / 0x10000, decide (0x8000 ≤ a % 0x10000)) else none

/-- SCRUB_PASS (R398): at every multiple of 50,000,000 ticks a pass starts; one still running is late. -/
def execScrubPass (l : LaneId) (s : State) : Out :=
  s.on l (fun L => L.up && L.mtN % 50000000 == 0) (fun L =>
    let L1 := if L.test.scrubAt.isSome then (L.put F.MSUP_PASS_LATE 1).transient Ev.MSUP_SCRUB_LATE 0 8 else L
    L1.onTest (fun t => { t with scrubAt := some L.now }))

/-- The weak words of the worst bank shown. -/
def Lane.weakShow (L : Lane) : Lane :=
  let worst := (List.range 8).foldl (fun m k => max m (L.test.weak.filter (fun a => sramOf a == some k)).length) 0
  L.put F.MSUP_SRAM_WEAK (satU 255 worst)

/-- A word newly weak: WEAK; a TCM word takes a repair word, or TCM_REPAIR_OUT (R399, R401). The Bool says that the trio TCM has no
repair word left. -/
def Lane.makeWeak (L : Lane) (a : Nat) : Lane × Bool :=
  if L.test.weak.contains a then (L, false)
  else
    let L1 := (L.note Ev.MSUP_WEAK)
    if inTrioTcm a then
      if L1.get F.MSUP_REPAIR_TRIO < 16 then ((L1.incSat F.MSUP_REPAIR_TRIO).note Ev.MSUP_TCM_REPAIR, false)
      else ((L1.onTest (fun t => { t with weak := t.weak ++ [a] })).note Ev.MSUP_TCM_REPAIR_OUT, true)
    else if inSvcTcm a then
      if L1.get F.MSUP_REPAIR_SVC < 16 then ((L1.incSat F.MSUP_REPAIR_SVC).note Ev.MSUP_TCM_REPAIR, false)
      else (((L1.onTest (fun t => { t with weak := t.weak ++ [a] })).note Ev.MSUP_TCM_REPAIR_OUT).pruneSvc, false)
    else ((L1.onTest (fun t => { t with weak := t.weak ++ [a] })).weakShow, false)

/-- A word of 16 bytes copied from the same address of another lane (R210). -/
def Lane.copyWord (L D : Lane) (a : Nat) : Lane := L.setMemBytes (16 * (a / 16)) (D.memBytes (16 * (a / 16)) 16)

/-- A word poisoned: it decodes as uncorrectable until the next write (R398). -/
def Lane.poisonWord (L : Lane) (a : Nat) : Lane :=
  let L1 := L.onTest (fun t => { t with poison := if t.poison.contains a then t.poison else t.poison ++ [a] })
  L1.put F.MSUP_UE_POISON (satU 65535 L1.test.poison.length)

/-- A word of an engine's program memory found uncorrectable: the kernel's image is restored at the next boundary, the engine's
running programs in HANDOVER until then (R402). -/
def Lane.codeUe (L : Lane) (n : Nat) : Lane :=
  let L1 := L.onTest (fun t => { t with lpFix := if t.lpFix.contains n then t.lpFix else t.lpFix ++ [n] })
  (List.range 8).foldl (fun K m => if K.prgState n m = 1 then (K.setPrgState n m 4).portActions n m 4 else K)
    ((L1.keepRun n).onEng n (fun e => { e with act := none, due := [], hold := false }))

/-- A word found uncorrectable by scrubbing: data memory of a loop engine restored from a peer's copy where a peer holds one, its
program memory from the kernel's image, any other word poisoned (R398, R402). -/
def State.scrubHeal (s : State) (l : LaneId) (a : Nat) : State :=
  match loopMemOf a with
  | some (n, true) => match s.loopDonor l n with
    | some x => s.upd l (fun K => K.copyWord (s.lane x) a)
    | none => s.upd l (fun K => K.poisonWord a)
  | some (n, false) => s.upd l (fun K => K.codeUe n)
  | none => s.upd l (fun K => K.poisonWord a)

/-- A word read with `n` symbols corrected (R397): written back corrected, CE, ADDR, LAST. -/
def Lane.memCe (L : Lane) (a n : Nat) (data : List Nat) (scrub : Bool) : Lane :=
  let L1 := L.setMemBytes a (data.map (BitVec.ofNat 8))
  (((L1.note Ev.MSUP_CE).incSat F.MSUP_CE_TOTAL).setReg R.MSUP_ADDR a).setReg R.MSUP_LAST (min 2 n + 4 * b2n scrub)

/-- One word that the pass corrected: weak where the last pass corrected it too (R399). The Bool says that the trio TCM has no repair
word left. -/
def Lane.scrubCe (L : Lane) (a n : Nat) (data : List Nat) : Lane × Bool :=
  let L1 := (L.memCe a n data true).onTest (fun t => { t with fixedNow := t.fixedNow ++ [a] })
  if L1.test.fixedLast.contains a then L1.makeWeak a else (L1, false)

/-- One word that the pass found uncorrectable: weak where it was uncorrectable before and has been rewritten since (R399). The Bools:
the trio TCM has no repair word left, the bank's bucket promoted. -/
def Lane.scrubUe (L : Lane) (a : Nat) (address : Bool) : Lane × Bool × Bool :=
  let r := L.memUe a address true
  let again := r.1.test.ueSeen.contains a && !r.1.test.poison.contains a
  let w := if again then r.1.makeWeak a else (r.1, false)
  (w.1.onTest (fun t => { t with ueSeen := if t.ueSeen.contains a then t.ueSeen else t.ueSeen ++ [a] }), w.2, r.2)

/-- What a pass makes of the words it read, in order (R397 to R399, R402): the state, whether the trio TCM ran out of repair words, and
the banks whose buckets promoted. A word that decodes clean leaves nothing. -/
def State.scrubAll (s : State) (l : LaneId) : List ScrubFind → State × Bool × List Nat
  | [] => (s, false, [])
  | f :: rest =>
    let a := wordAt f.addr.toNat
    match memDecode a (f.stored.map BitVec.toNat) with
    | .clean => s.scrubAll l rest
    | .fixed n data =>
      let r := (s.lane l).scrubCe a n data
      let t := (s.setLane l r.1).scrubAll l rest
      (t.1, r.2 || t.2.1, t.2.2)
    | .bad address =>
      let r := (s.lane l).scrubUe a address
      let t := ((s.setLane l r.1).scrubHeal l a).scrubAll l rest
      (t.1, r.2.1 || t.2.1, (if r.2.2 then (sramOf a).toList else []) ++ t.2.2)

/-- A read of a poisoned word by a client (R397): UE; a bank whose bucket promotes is pruned (R399). -/
def State.readUe (s : State) (l : LaneId) (a : Nat) : State :=
  let r := (s.lane l).memUe (wordAt a) false false
  match r.2, sramOf a with
  | true, some k => (s.setLane l r.1).pruneBank l Ev.MSUP_BANK_PRUNED k
  | _, _ => s.setLane l r.1

/-- The banks that a finished pass prunes (R399): weak words at WEAKTH, more than CETH corrections, or a promotion. -/
def Lane.banksDue (L : Lane) (promoted : List Nat) : List Nat :=
  (List.range 8).filter (fun k =>
    let inBank (a : Nat) := sramOf a == some k
    !L.pruned (.sram k) && (promoted.contains k ||
      decide (max 1 (L.get F.MSUP_CFG_WEAKTH) ≤ (L.test.weak.filter inBank).length) ||
      decide (max 1 (L.get F.MSUP_CFG_CETH) < (L.test.fixedNow.filter inBank).length)))

/-- SCRUB_PASS_END (R398 to R402): the pass has read every word; `found` are words as they were stored, any that is left out was
clean. -/
def execScrubPassEnd (l : LaneId) (found : List ScrubFind) (s : State) : Out :=
  let L := s.lane l
  match L.test.scrubAt with
  | some t0 =>
    if L.up then
      let r := s.scrubAll l found
      let K := r.1.lane l
      let L1 := (((K.incMod F.MSUP_PASS_COUNT).put F.MSUP_PASS_LASTMS (satU 255 ((L.now - t0) / 200000))).put F.MSUP_PASS_LATE 0).put
        F.MSUP_CE_LAST (satU 65535 K.test.fixedNow.length)
      let banks := L1.banksDue r.2.2
      let L2 := (L1.onTest (fun t => { t with scrubAt := none, fixedLast := t.fixedNow, fixedNow := [] })).pulse 119
      let s1 := banks.foldl (fun t k => t.pruneBank l Ev.MSUP_BANK_PRUNED k) (r.1.setLane l L2)
      .next (if r.2.1 then (s1.loseLane l).1 else s1)
    else .next s
  | none => .next s

/-- REMAP_DONE (R400): the copy into bank 5 is over; the pruned bank's range is redirected. -/
def execRemapDone (l : LaneId) (s : State) : Out :=
  s.on l (fun L => L.up && L.test.remap.isSome) (fun L =>
    match L.test.remap with
    | some (k, _) => ((L.put F.MSUP_SRAM_REMAP (2 ^ k)).note Ev.MSUP_REMAP_DONE).onTest (fun t => { t with remap := none })
    | none => L)

/-- NVM_SPARED (R403): an NVM block relocated to a spare block; with none left it stays in use. -/
def execNvmSpared (l : LaneId) (s : State) : Out :=
  s.on l Lane.up (fun L =>
    if L.get F.MSUP_REPAIR_NVM < 128 then (L.incSat F.MSUP_REPAIR_NVM).note Ev.MSUP_NVM_SPARED else L.note Ev.MSUP_NVM_SPARE_OUT)

/-- DECODER_TEST (R404): every 1 ms, each decoder tried with a known two-symbol error; `bad` is the memory whose decoder was wrong. -/
def execDecoderTest (l : LaneId) (bad : Option DecMem) (s : State) : Out :=
  let L := s.lane l
  if L.up && L.since L.test.decAt (us 990) then
    let L1 := ((L.incMod F.MSUP_DECCHK_RUNS).putB F.MSUP_DECCHK_LAST_OK bad.isNone).onTest (fun t => { t with decAt := L.now })
    match bad with
    | none => .next (s.setLane l L1)
    | some m =>
      let L2 := L1.note Ev.MSUP_DEC_FAULT
      match m with
      | .trioTcm | .nvm => .next (s.setLane l L2.chkFault)
      | .svcTcm => .next (s.setLane l (L2.note Ev.TRIO_SVC_CHK).pruneSvc)
      | .elem (.sram k) => .next ((s.setLane l L1).pruneBank l Ev.MSUP_DEC_FAULT k)
      | .elem e => .next (s.setLane l (L2.pruneAny e))
  else .next s

end Sys2Proof.Machine
end

