-- ==== Sys2Proof/Machine/Pos.lean ====
section
/-!
DEFINITION. Machine/Pos.lean: commands of 09_position_feedback.md: decoders (R322 to R326, R338), resolvers (R327, R328), SENT
(R329 to R332), probes (R333), compare units (R335), speed (R336, R337), and what a vote boundary does to POS (R340, R342).
-/

namespace Sys2Proof.Machine

/-- The hidden state of an ENC channel. -/
def Lane.enc (L : Lane) (n : Nat) : EncSt := L.pos.enc.getD n {}
def Lane.onEnc (L : Lane) (n : Nat) (f : EncSt → EncSt) : Lane := L.onPos (fun p => { p with enc := p.enc.set n (f (L.enc n)) })

/-- The hidden state of a resolver. -/
def Lane.resl (L : Lane) (r : Nat) : ResSt := L.pos.res.getD r {}
def Lane.onResl (L : Lane) (r : Nat) (f : ResSt → ResSt) : Lane := L.onPos (fun p => { p with res := p.res.set r (f (L.resl r)) })

/-- The hidden state of a SENT receiver. -/
def Lane.sent (L : Lane) (n : Nat) : SentSt := L.pos.sent.getD n {}
def Lane.onSent (L : Lane) (n : Nat) (f : SentSt → SentSt) : Lane := L.onPos (fun p => { p with sent := p.sent.set n (f (L.sent n)) })

/-- A channel fault (R341): its quantities go down, the event is recorded, the channel is pruned. -/
def Lane.chanFault (L : Lane) (c : Nat) : Lane := (L.note (chanFaultEv c)).prune (.pos c)

/-- A channel works: enabled, not pruned, not isolated. -/
def Lane.chanRuns (L : Lane) (c : Nat) : Bool := L.up && L.chanOn c && !L.outOfService (.pos c)

/-- The filter length N of a field value (R319). -/
def filtN (f : Nat) : Nat := if f = 0 then 1 else f

/-- Module time of the input edge whose filtered edge is now (R319). -/
def Lane.edgeTime (L : Lane) (n : Nat) : Nat := L.mtN - (n + 2)

/-! ### Counting (R322, R323, R326) -/

/-- What a new filtered state does to a decoder: first state taken, no change, one step, an illegal event. -/
inductive StepKind where
  | first | same | step (up : Bool) | illegal
  deriving DecidableEq, Repr

/-- A quadrature step: A leads B counts up. -/
def quadKind (e : EncSt) (new : Nat) : StepKind :=
  if !e.seen then .first
  else
    match e.lines, new with
    | 0, 1 | 1, 3 | 3, 2 | 2, 0 => .step true
    | 1, 0 | 3, 1 | 2, 3 | 0, 2 => .step false
    | a, b => if a = b then .same else .illegal

/-- The sector of a Hall state (Table 9.2), none for 000 and 111. -/
def hallSector : Nat → Option Nat
  | 4 => some 0
  | 6 => some 1
  | 2 => some 2
  | 3 => some 3
  | 1 => some 4
  | 5 => some 5
  | _ => none

/-- The counted sector of a Hall state (R326). -/
def sigma (dir : Bool) (h : Nat) : Option Nat := (hallSector h).map (fun s => if dir then (6 - s) % 6 else s)

/-- A Hall step (R326): the first legal state is taken, whatever came before it. -/
def hallKind (e : EncSt) (dir : Bool) (new : Nat) : StepKind :=
  match sigma dir new, sigma dir e.lines with
  | none, _ => if e.got && e.lines == new then .same else .illegal
  | some _, none => if e.seen then .same else .first
  | some b, some a =>
    if !e.seen then .first
    else if a = b then .same
    else if (a + 1) % 6 = b then .step true
    else if (b + 1) % 6 = a then .step false
    else .illegal

/-- The nearest count congruent to a sector, ties toward the last direction (R326). -/
def nearestCount (cnt : Int) (s : Nat) (dirn : Bool) : Int :=
  let d := ((s : Int) - cnt) % 6
  if 3 < d ∨ (d = 3 ∧ dirn) then cnt + d - 6 else cnt + d

/-- ANG of an ENC channel (R324). -/
def Lane.encAng (L : Lane) (n : Nat) : Nat :=
  let cpt : Int := max 1 (L.get F.POS_ENC_CPT_CPT 0 n)
  (((L.getS F.POS_ENC_CNT_CNT 0 n - L.getS F.POS_ENC_ZREF_ZREF 0 n) % cpt) * 2 ^ 32 / cpt).toNat

/-- VAL and ANG of an ENC channel taken from its count (R317, R324). -/
def Lane.encShow (L : Lane) (n : Nat) : Lane :=
  (L.onQuant n (fun q => { q with ang := if q.avalid then L.encAng n else 0 })).setVal n (L.valOf n (L.getS F.POS_ENC_CNT_CNT 0 n))

/-- The count of an ENC channel set. -/
def Lane.setCnt (L : Lane) (n : Nat) (c : Int) : Lane := (L.putS F.POS_ENC_CNT_CNT c 0 n).encShow n

/-- One counted step of a channel at an edge (R322, R326, R337). -/
def Lane.encStep (L : Lane) (n : Nat) (up : Bool) : Lane :=
  let d : Int := if up then 1 else -1
  let t := L.edgeTime (filtN (L.get F.POS_ENC_CFG_FILT 0 n))
  let L1 := L.onEnc n (fun e => { e with
    dirn := !up, good := e.good + 1, raw := e.raw + d, edge := some (t, e.raw + d), used := match e.used with
      | some u => some u
      | none => some (t, e.raw + d) })
  L1.setCnt n (L1.getS F.POS_ENC_CNT_CNT 0 n + d)

/-- An illegal event of a channel (R322): counted, UNCERT; the fourth within 1 ms of the first of them faults the channel. -/
def Lane.encIllegal (L : Lane) (n : Nat) : Lane :=
  let L1 := ((L.incSat F.POS_ENC_ERR_ILLEGAL 0 n).note Ev.POS_ILLEGAL).onQuant n (fun q => { q with uDec := true })
  let recent := L.now :: (L.enc n).illAt.filter (fun t => decide (L.now ≤ t + ms 1))
  let L2 := L1.onEnc n (fun e => { e with illAt := recent, good := 0 })
  if 4 ≤ recent.length then L2.chanFault n else L2

/-- QUAD_EDGE of POS (R322): a filtered edge of A or B. -/
def Lane.posQuad (L : Lane) (n : Nat) (new : Nat) : Lane :=
  let k := quadKind (L.enc n) new
  let L1 := L.onEnc n (fun e => { e with lines := new, seen := true })
  match k with
  | .step up => L1.encStep n (up != L.is F.POS_ENC_CFG_DIR 0 n)
  | .illegal => L1.encIllegal n
  | _ => L1

/-- A Hall step of POS (R326). -/
def Lane.posHall (L : Lane) (n : Nat) (new : Nat) : Lane :=
  let dir := L.is F.POS_ENC_CFG_DIR 0 n
  let e := L.enc n
  let k := hallKind e dir new
  let legalNow := (sigma dir new).isSome
  let wasIll := e.seen && (sigma dir e.lines).isNone
  let L1 := L.onEnc n (fun e => { e with lines := new, seen := e.seen || legalNow, got := true })
  let fit := fun (K : Lane) => match sigma dir new with
    | some s => K.setCnt n (nearestCount (K.getS F.POS_ENC_CNT_CNT 0 n) s e.dirn)
    | none => K
  match k with
  | .first =>
    match sigma dir new with
    | some s => ((L1.put F.POS_ENC_ZREF_ZREF 0 0 n).onQuant n (fun q => { q with avalid := true })).setCnt n s
    | none => L1
  | .same => if wasIll && legalNow then fit L1 else L1
  | .step up =>
    let L2 := L1.encStep n up
    if 6 ≤ (L2.enc n).good then L2.onQuant n (fun q => { q with uDec := false }) else L2
  | .illegal => if e.seen then fit (L1.encIllegal n) else L1.encIllegal n

/-- The Hedge's decoder of ENC_n, 0 or 1 (R338): count, illegal events in HSF_DEC_STAT. -/
def Lane.hedgeCount (L : Lane) (n : Nat) (new : Nat) (hall : Bool) : Lane :=
  let e := L.pos.henc.getD n {}
  let dir := L.is (if n = 0 then F.HSF_DEC_CFG_E0DIR else F.HSF_DEC_CFG_E1DIR)
  let cnt := L.pos.hcnt.getD n 0
  let k := if hall then hallKind e dir new else quadKind e new
  let s := if hall then sigma dir new else none
  let up := fun u => if hall then u else u != dir
  let fit := match s with
    | some x => nearestCount cnt x e.dirn
    | none => cnt
  let cnt' : Int := match k with
    | .first => match s with
      | some x => (x : Int)
      | none => cnt
    | .step u => if up u then cnt + 1 else cnt - 1
    | _ => if hall && e.seen then fit else cnt
  let e' := { e with lines := new, seen := e.seen || !hall || s.isSome, got := true, illAt := if k = .illegal then L.now :: e.illAt else e.illAt, dirn := match k with
    | .step u => !up u
    | _ => e.dirn }
  let L1 := L.onPos (fun p => { p with henc := p.henc.set n e', hcnt := p.hcnt.set n cnt' })
  if k = .illegal then L1.incSat (if n = 0 then F.HSF_DEC_STAT_ILL0 else F.HSF_DEC_STAT_ILL1) else L1

/-- Mode of the Hedge's decoder of ENC_n: 1 quadrature, 2 Hall, else off (HSF_DEC_CFG). -/
def Lane.hdecMode (L : Lane) (n : Nat) : Nat := if n = 0 then L.get F.HSF_DEC_CFG_E0MODE else L.get F.HSF_DEC_CFG_E1MODE

/-- QUAD_EDGE (R322, R338): a filtered edge of A or B at POS, or at the Hedge's receivers of ENC_0 and ENC_1. -/
def execQuadEdge (l : LaneId) (hedge : Bool) (n : Fin 4) (a b : Bool) (s : State) : Out :=
  let new := b2n a + 2 * b2n b
  if hedge then
    s.on l (fun L => L.hedgeUp && decide (n.val < 2) && L.hdecMode n.val == 1) (fun L => L.hedgeCount n.val new false)
  else
    s.on l (fun L => L.chanRuns n.val && L.get F.POS_ENC_CFG_MODE 0 n.val == 0) (fun L => L.posQuad n.val new)

/-- HALL_STEP (R326, R338): a new filtered Hall state. -/
def execHallStep (l : LaneId) (hedge : Bool) (n : Fin 4) (uvw : BitVec 3) (s : State) : Out :=
  if hedge then
    s.on l (fun L => L.hedgeUp && decide (n.val < 2) && L.hdecMode n.val == 2) (fun L => L.hedgeCount n.val uvw.toNat true)
  else
    s.on l (fun L => L.chanRuns n.val && L.get F.POS_ENC_CFG_MODE 0 n.val == 1) (fun L => L.posHall n.val uvw.toNat)

/-- The nearest integer to a / b, ties toward zero (R323). -/
def roundTowardZero (a : Int) (b : Nat) : Int :=
  let m := (2 * a.natAbs + b - 1) / (2 * b)
  if a < 0 then -(m : Int) else m

/-- INDEX_EVENT (R323): a rising edge of Z while the last count change was positive, a falling edge while it was negative. -/
def execIndexEvent (l : LaneId) (n : Fin 4) (rising : Bool) (s : State) : Out :=
  s.on l (fun L => L.chanRuns n.val && L.get F.POS_ENC_CFG_MODE 0 n.val == 0 && L.is F.POS_ENC_CFG_ZEN 0 n.val
      && rising != (L.enc n.val).dirn) (fun L =>
    let c := L.getS F.POS_ENC_CNT_CNT 0 n.val
    if !(L.quant n.val).avalid then
      ((L.putS F.POS_ENC_ZREF_ZREF c 0 n.val).onQuant n.val (fun q => { q with avalid := true })).encShow n.val
    else
      let cpt := max 1 (L.get F.POS_ENC_CPT_CPT 0 n.val)
      let z := L.getS F.POS_ENC_ZREF_ZREF 0 n.val
      let m := roundTowardZero (c - z) cpt
      let d := c - z - m * cpt
      let L1 := L.putS F.POS_ENC_ERR_LASTD (clampI (-128) 127 d) 0 n.val
      if d.natAbs ≤ max 1 (L.get F.POS_ENC_CPT_ITOL 0 n.val) then
        let L2 := (L1.onQuant n.val (fun q => { q with uDec := false })).onEnc n.val (fun e =>
          { e with idxFails := 0, corr := e.corr - d })
        if d = 0 then L2
        else ((L2.incSat F.POS_ENC_ERR_IDXCORR 0 n.val).note Ev.POS_IDX_CORR).setCnt n.val (z + m * cpt)
      else
        let fails := (L.enc n.val).idxFails + 1
        let L2 := ((L1.incSat F.POS_ENC_ERR_IDXERR 0 n.val).transient Ev.POS_IDX_ERR 0 n.val).onQuant n.val
          (fun q => { q with uDec := true })
        let L3 := L2.onEnc n.val (fun e => { e with idxFails := fails })
        if 3 ≤ fails then L3.chanFault n.val else L3)

/-! ### Enabling (R342) -/

/-- The settings of R327 for a resolver. -/
def Lane.resSetup (L : Lane) (r : Nat) : Bool :=
  let k := L.get F.POS_RES_CFG_PAIR 0 r
  let j := L.get F.POS_RES_CFG_ENT 0 r
  let ok := fun n sel => L.get (F.CNV_ISEL_SEL_0.nth 8 j) n == sel && L.get F.CNV_ISEQ_TRIG n == 4 + r
    && !L.is F.CNV_ISEQ_ILV n && decide (j ≤ L.get F.CNV_ISEQ_LEN n)
  ok (2 * k) (13 + 2 * r) && ok (2 * k + 1) (14 + 2 * r)

/-- A channel's configuration may be enabled (R342). -/
def Lane.chanConfigOk (L : Lane) (c : Nat) : Bool :=
  if c < 4 then
    let m := L.get F.POS_ENC_CFG_MODE 0 c
    let cpt := L.get F.POS_ENC_CPT_CPT 0 c
    (m == 0 && cpt % 4 == 0 && decide (16 ≤ cpt)) || (m == 1 && cpt % 6 == 0)
  else if c < 6 then L.resSetup (c - 4)
  else
    let t := L.get F.POS_SENT_CFG_TICK 0 (c - 6)
    decide (20 ≤ t) && decide (t ≤ 1800)

/-- EN of a channel set. -/
def Lane.setChanOn (L : Lane) (c : Nat) (b : Bool) : Lane :=
  if c < 4 then L.putB F.POS_ENC_CFG_EN b 0 c
  else if c < 6 then L.putB F.POS_RES_CFG_EN b 0 (c - 4)
  else L.putB F.POS_SENT_CFG_EN b 0 (c - 6)

/-- POS_CHANNEL_ENABLE (R342): EN of a position channel written. -/
def execPosChannelEnable (l : LaneId) (c : Fin 10) (en : Bool) (s : State) : Out :=
  s.on l Lane.up (fun L =>
    let clear := fun (K : Lane) (v : Bool) => (quantsOf c.val).foldl (fun K q => K.onQuant q (fun x =>
      { x with valid := v && !x.fault, avalid := false, uDec := false, hdif := false, spd := 0, sUpd := false })) K
    if !en then clear (L.setChanOn c.val false) false
    else if L.chanOn c.val then L
    else if L.chanConfigOk c.val then
      let L1 := L.setChanOn c.val true
      if c.val < 4 then
        let L2 := (clear L1 true).put F.POS_ENC_ERR_ILLEGAL 0 0 c.val
        (L2.onEnc c.val (fun _ => {})).encShow c.val
      else if c.val < 6 then ((clear L1 false).onResl (c.val - 4) (fun _ => {})).put F.POS_RES_ERR_LOS 1 0 (c.val - 4)
      else
        let L2 := (clear L1 false).onSent (c.val - 6) (fun _ => { tmoAt := L.now })
        let fmt := L.get F.POS_SENT_CFG_FMT 0 (c.val - 6)
        if fmt == 0 || fmt == 3 then L2.setVal (c.val + 4) 0 else L2
    else (L.setChanOn c.val false).note Ev.POS_CFG_ERR)

/-! ### Resolvers (R327, R328) -/

/-- Codes rejected or a pair discarded: one more bad trigger. -/
def Lane.resBad (L : Lane) (r : Nat) : Lane := L.onResl r (fun x => { x with trigAt := none, bad := x.bad + 1, good := 0 })

/-- RPEAK (R327): at the excitation peak the two injected sequences of the resolver's pair are triggered. A trigger whose pair
never came counts as discarded. -/
def execRpeak (l : LaneId) (r : Fin 2) (s : State) : Out :=
  s.on l (fun L =>
      let d := L.get F.POS_RES_CFG_RDLY 0 r.val
      L.chanRuns (4 + r.val) && (L.mtN % 20000 == (5000 + d) % 20000
        || (L.is F.POS_RES_CFG_BOTH 0 r.val && L.mtN % 20000 == (15000 + d) % 20000))) (fun L =>
    let d := L.get F.POS_RES_CFG_RDLY 0 r.val
    let L1 := if (L.resl r.val).trigAt.isSome then (L.incSat F.POS_RES_ERR_SKIP 0 r.val).resBad r.val else L
    let L2 := L1.onResl r.val (fun x => { x with trigAt := some L.mtN, neg := L.mtN % 20000 != (5000 + d) % 20000 })
    let k := L.get F.POS_RES_CFG_PAIR 0 r.val
    (L2.cnvTrigger (2 * k) (4 + r.val)).cnvTrigger (2 * k + 1) (4 + r.val))

/-- R325: the channels that reconcile with quantity `q` at its new value. -/
def Lane.reconcile (L : Lane) (q : Nat) : Lane :=
  [0, 1, 2, 3].foldl (fun K n =>
    if K.chanRuns n && K.get F.POS_ENC_CFG_ABSQ 0 n == q && (K.quant n).uncert && (K.quant q).valid then
      if ((K.quant n).val - (K.quant q).val).natAbs ≤ K.get F.POS_ENC_ABSTOL_ABSTOL 0 n then
        K.onQuant n (fun x => { x with uDec := false })
      else K.note Ev.POS_ABS_MISMATCH
    else K) L

/-- Angle and quantity of a resolver taken from its tracking loop (R317, R328). -/
def Lane.resShow (L : Lane) (r : Nat) : Lane :=
  let x := L.resl r
  ((L.onQuant (4 + r) (fun q => { q with ang := x.theta, t := L.mtLo })).setVal (4 + r)
    (L.valOf (4 + r) (x.turns * 65536 + (x.theta / 65536 : Nat)))).reconcile (4 + r)

/-- The tracked angle moved to `theta`: the turn counter follows the shorter way round. -/
def ResSt.moveTo (x : ResSt) (theta : Nat) : ResSt :=
  let t := theta % 2 ^ 32
  let d := toSigned 32 (t + 2 ^ 32 - x.theta % 2 ^ 32)
  { x with theta := t, turns := x.turns + (if 0 ≤ d ∧ t < x.theta then 1 else if d < 0 ∧ x.theta < t then -1 else 0) }

/-- Ticks from a trigger to a sample end. -/
def afterTrig (its trig : Nat) : Nat := (its + 2 ^ 32 - trig % 2 ^ 32) % 2 ^ 32

/-- RES_SAMPLE_PAIR (R328): both results of a triggered pair are there; the pair is accepted, rejected or discarded. -/
def execResSamplePair (l : LaneId) (r : Fin 2) (s : State) : Out :=
  s.on l (fun L =>
      let k := L.get F.POS_RES_CFG_PAIR 0 r.val
      let j := L.get F.POS_RES_CFG_ENT 0 r.val
      L.chanRuns (4 + r.val) && (match (L.resl r.val).trigAt with
        | some t => decide (afterTrig (L.reg R.CNV_ITS (2 * k) j) t < 20000) && decide (afterTrig (L.reg R.CNV_ITS (2 * k + 1) j) t < 20000)
        | none => false)) (fun L =>
    let k := L.get F.POS_RES_CFG_PAIR 0 r.val
    let j := L.get F.POS_RES_CFG_ENT 0 r.val
    let x := L.resl r.val
    let ta := L.reg R.CNV_ITS (2 * k) j
    let tb := L.reg R.CNV_ITS (2 * k + 1) j
    let trig := x.trigAt.getD 0
    if ta ≠ tb ∨ 200 < afterTrig ta trig then (L.incSat F.POS_RES_ERR_SKIP 0 r.val).resBad r.val
    else
      let sg : Int := if x.neg then -1 else 1
      let sn := sg * L.getS F.CNV_IRES_CODE (2 * k) j
      let cs := sg * L.getS F.CNV_IRES_CODE (2 * k + 1) j
      let a2 := (sn * sn + cs * cs).toNat
      let lo := L.get F.POS_RES_AMP_AMIN 0 r.val
      let hi := L.get F.POS_RES_AMP_AMAX 0 r.val
      if a2 < lo * lo ∨ hi * hi < a2 then
        ((L.incSat F.POS_RES_ERR_AMPERR 0 r.val).note Ev.POS_RES_AMP).resBad r.val
      else
        let ang := angle32 cs sn / 65536 % 65536
        let L1 := (L.put F.POS_RES_RAW_ANG16 ang 0 r.val).put F.POS_RES_RAW_AMPL (satU 4095 (rootR a2)) 0 r.val
        let dt := match x.pairAt with
          | some t => L.mtN - t
          | none => 0
        let tr := Config.resTrack x.theta x.speed ang dt
        let err := (toSigned 32 (ang * 65536 + 2 ^ 32 - tr.1 % 2 ^ 32)).natAbs
        let y := { x.moveTo tr.1 with
          speed := satS 64 tr.2, trigAt := none, bad := 0, good := x.good + 1, pairAt := some L.mtN, stepAt := L.mtN }
        let L2 := (L1.onResl r.val (fun _ => y)).onQuant (4 + r.val) (fun q => { q with
          uDec := if 2 ^ 32 < err * 36 then true else if err * 72 < 2 ^ 32 then false else q.uDec })
        let L3 := if 16 ≤ y.good ∧ !(L.quant (4 + r.val)).fault then
          (L2.onQuant (4 + r.val) (fun q => { q with valid := true, avalid := true })).put F.POS_RES_ERR_LOS 0 0 r.val else L2
        L3.resShow r.val)

/-- RES_LOS (R328): 8 consecutive rejected or discarded triggers make the resolver invalid. -/
def execResLos (l : LaneId) (r : Fin 2) (s : State) : Out :=
  s.on l (fun L => L.chanRuns (4 + r.val) && decide (8 ≤ (L.resl r.val).bad) && (L.quant (4 + r.val)).valid) (fun L =>
    ((L.onQuant (4 + r.val) (fun q => { q with valid := false, avalid := false })).put F.POS_RES_ERR_LOS 1 0 r.val).transient
      Ev.POS_RES_LOS 0 (4 + r.val))

/-- RES_TRACK_STEP (R328): every 1 us, while the last accepted pair is at most 200 us old, the angle is extrapolated by the
tracking speed and T is set. -/
def execResTrackStep (l : LaneId) (r : Fin 2) (s : State) : Out :=
  s.on l (fun L =>
      let x := L.resl r.val
      L.chanRuns (4 + r.val) && decide (x.stepAt + 200 ≤ L.mtN) && (match x.pairAt with
        | some t => decide (L.mtN ≤ t + us 200)
        | none => false)) (fun L =>
    let x := L.resl r.val
    let d := divR (x.speed * 1) 1000000
    ((L.onResl r.val (fun _ => { x.moveTo (ofSigned 32 (x.theta + d)) with stepAt := L.mtN })).resShow r.val))

/-! ### SENT (R329 to R332) -/

/-- Data nibbles of a format (Table 9.3). -/
def fmtNibbles (f : Nat) : Nat := if f = 0 then 3 else 6

/-- A nibble's length in whole measured ticks (R329); a half, on which the rule is silent, is free (log 17). -/
def nibTicks (len cal : Nat) : Nat :=
  let x := 2 * 56 * len
  if x % (2 * cal) = cal then x / (2 * cal) + b2n (Config.roundUp x (2 * cal)) else (x + cal) / (2 * cal)

/-- Fields of a frame: fast channels, received counter. -/
structure SentData where
  fc1 : Nat
  fc2 : Nat
  rc : Nat

/-- Fast channels and counter of the data nibbles (Table 9.3). -/
def sentFields (fmt : Nat) (d : List Nat) : SentData :=
  let n := fun i => d.getD (i - 1) 0
  match fmt with
  | 0 => ⟨n 1 * 256 + n 2 * 16 + n 3, 0, 0⟩
  | 1 => ⟨n 1 * 256 + n 2 * 16 + n 3, n 6 * 256 + n 5 * 16 + n 4, 0⟩
  | 2 => ⟨n 1 * 4096 + n 2 * 256 + n 3 * 16 + n 4, n 5 * 16 + n 6, 0⟩
  | _ => ⟨n 1 * 256 + n 2 * 16 + n 3, 0, n 4 * 16 + n 5⟩

/-- The nibble values of a frame that passes the checks of R329, for a receiver of format `fmt` and nominal tick `tick` (50 ns
units) whose previous calibration pulse was `prev`. -/
def sentNibbles (fmt tick : Nat) (prev : Option Nat) (f : SentIn) : Option (List Nat) :=
  let okTick := decide (8 * tick * 56 ≤ f.cal) && decide (f.cal ≤ 12 * tick * 56)
  let okPrev : Bool := match prev with
    | some p => decide (((f.cal : Int) - p).natAbs * 64 ≤ p)
    | none => true
  let t := f.nibbles.map (fun x => nibTicks x f.cal)
  let vals := t.map (fun x => x - 12)
  let okInv := fmt != 3 || vals.getD 6 0 == 15 - vals.getD 1 0
  if 0 < f.cal ∧ okTick ∧ okPrev ∧ t.length = fmtNibbles fmt + 2 ∧ t.all (fun x => decide (12 ≤ x) && decide (x ≤ 27)) ∧ okInv then
    some vals else none

/-- The CRC of SAE J2716 over nibbles, x^4 + x^3 + x^2 + 1 from seed 5: the recommended method takes four more zero bits than the
legacy method (log 142). -/
def sentCrc (legacy : Bool) (d : List Nat) : Nat :=
  let table := [0, 13, 7, 10, 14, 3, 9, 4, 1, 12, 6, 11, 15, 2, 8, 5]
  let r := d.foldl (fun c x => (nthN table c ^^^ x) % 16) 5
  if legacy then r else nthN table r

/-- The CRC of a frame whose nibbles are status, data and CRC. -/
def sentCrcOk (legacy : Bool) (vals : List Nat) : Bool :=
  let d := vals.drop 1
  d.getD (d.length - 1) 0 == sentCrc legacy (d.take (d.length - 1))

/-- A serial message of SENT: kind (1 short, 2 enhanced with 12 bits of data, 3 with 16), identifier, data. -/
structure SerMsg where
  kind : Nat
  ident : Nat
  data : Nat
  deriving DecidableEq, Repr

/-- The CRC of an enhanced serial message, x^6 + x^4 + x^3 + 1 from seed 010101, over bits and six zeros (log 142). -/
def serCrc6 (bits : List Bool) : Nat :=
  (bits ++ List.replicate 6 false).foldl (fun r b =>
    let x := (2 * r + b2n b) % 64
    if 32 ≤ r then x ^^^ 25 else x) 21

/-- A number from bits, the first most significant. -/
def fromBits (l : List Bool) : Nat := l.foldl (fun n b => 2 * n + b2n b) 0

/-- The enhanced message that 18 status nibbles, oldest first, spell: bit 3 is 1 in the first six, 0 in the seventh, the thirteenth
and the eighteenth; bit 2 carries the CRC in the first six and twelve bits of data after it (log 142). -/
def serEnhanced (l : List Nat) : Option SerMsg :=
  let b3 := l.map (fun x => bit x 3)
  let b2 := l.map (fun x => bit x 2)
  let tail := l.drop 6
  let frame := fromBits (b3.take 7) == 126 && !nthB b3 12 && !nthB b3 17
  let crc := serCrc6 (tail.foldr (fun x acc => bit x 2 :: bit x 3 :: acc) [])
  let hi := fromBits ((b3.drop 8).take 4)
  let lo := fromBits ((b3.drop 13).take 4)
  let data := fromBits (b2.drop 6)
  if l.length = 18 ∧ frame ∧ fromBits (b2.take 6) = crc then
    some (if nthB b3 7 then ⟨3, hi, lo * 4096 + data⟩ else ⟨2, hi * 16 + lo, data⟩)
  else none

/-- The short message that 16 status nibbles, oldest first, spell: bit 3 is 1 in the first only; bit 2 carries four bits of
identifier, eight of data and the CRC (log 142). -/
def serShort (legacy : Bool) (l : List Nat) : Option SerMsg :=
  let b3 := fromBits (l.map (fun x => bit x 3))
  let v := fromBits (l.map (fun x => bit x 2))
  if l.length = 16 ∧ b3 = 32768 ∧ v % 16 = sentCrc legacy [v / 4096, v / 256 % 16, v / 16 % 16] then
    some ⟨1, v / 4096, v / 16 % 256⟩
  else none

/-- The status nibble of a valid frame joins the serial message; a complete one is placed in SER (R331). -/
def Lane.sentSerial (L : Lane) (n : Nat) (status : Nat) : Lane :=
  let l := (status :: (L.sent n).status).take 18
  let long := serEnhanced l.reverse
  let short := serShort (L.is F.POS_SENT_CFG_CRCM 0 n) (l.take 16).reverse
  match long, short with
  | some m, _ | none, some m =>
    (L.onSent n (fun x => { x with status := [] })).setReg R.POS_SENT_SER
      (m.ident + 0x100 * m.data + 0x1000000 * m.kind + 0x80000000) 0 n
  | none, none => L.onSent n (fun x => { x with status := l })

/-- A valid frame of receiver `n` taken (R317, R318, R330). -/
def Lane.sentTake (L : Lane) (n : Nat) (cal : Nat) (vals : List Nat) : Lane :=
  let fmt := L.get F.POS_SENT_CFG_FMT 0 n
  let d := sentFields fmt (vals.drop 1)
  let x := L.sent n
  let t := L.edgeTime (filtN (L.get F.POS_SENT_CFG_FILT 0 n))
  let rc : Byte := if fmt = 3 then BitVec.ofNat 8 d.rc else (x.rc.getD 0) + 1
  let jump := fmt == 3 && (match x.rc with
    | some p => rc != p + 1
    | none => false)
  let L1 := ((L.setReg R.POS_SENT_DATA (d.fc1 + 0x10000 * d.fc2) 0 n).put F.POS_SENT_FRM_STATUS (vals.getD 0 0) 0 n).put
    F.POS_SENT_FRM_TICKM ((2 * cal + 56) / 112) 0 n
  let L2 := if jump then (L1.incSat F.POS_SENT_ERR_RCJUMP 0 n).note Ev.POS_RC_JUMP else L1
  let w := if fmt = 2 then 16 else 12
  let v1 := L.valOf (6 + n) d.fc1
  let two := fmt == 1 || fmt == 2
  let v2 := L.valOf (10 + n) d.fc2
  let L3 := L2.onSent n (fun y => { y with
    rc := some rc, tmoAt := L.now, trigAt := none, lost := false, prev := y.last, last := some (v1, t) })
  let take := fun (K : Lane) (q ang : Nat) (v : Int) => (K.onQuant q (fun y => { y with
    ang := ang, t := BitVec.ofNat 32 t, rc := rc, valid := !y.fault, avalid := !y.fault })).setVal q v
  let L4 := take L3 (6 + n) (d.fc1 * 2 ^ (32 - w)) v1
  let L5 := if two then take L4 (10 + n) 0 v2 else L4
  L5.reconcile (6 + n)

/-- The Hedge's receiver of SENT_0 (R338). -/
def Lane.hedgeSent (L : Lane) (f : SentIn) : Lane :=
  let fmt := L.get F.HSF_DEC_CFG_S0FMT
  let x := L.pos.hsent
  let keep := fun (K : Lane) => K.onPos (fun p => { p with hsent := { p.hsent with prevCal := some f.cal } })
  match sentNibbles fmt (L.get F.HSF_DEC_CFG_S0TICK) x.prevCal f with
  | some vals =>
    if sentCrcOk (L.is F.HSF_DEC_CFG_S0CRCM) vals then
      let d := sentFields fmt (vals.drop 1)
      let rc : Byte := if fmt = 3 then BitVec.ofNat 8 d.rc else (x.rc.getD 0) + 1
      keep (L.onPos (fun p => { p with hsent := { p.hsent with rc := some rc }, hs0 := some (BitVec.ofNat 16 d.fc1, rc, L.now) }))
    else keep (L.incSat F.HSF_DEC_STAT_S0ERR)
  | none => keep (L.incSat F.HSF_DEC_STAT_S0ERR)

/-- SENT_FRAME (R329, R330, R338): a frame ends at POS, or at the Hedge's receiver of SENT_0. -/
def execSentFrame (l : LaneId) (hedge : Bool) (n : Fin 4) (f : SentIn) (s : State) : Out :=
  if hedge then
    s.on l (fun L => L.hedgeUp && n.val == 0 && L.is F.HSF_DEC_CFG_S0EN) (fun L => L.hedgeSent f)
  else
    s.on l (fun L => L.chanRuns (6 + n.val)) (fun L =>
      let r := sentNibbles (L.get F.POS_SENT_CFG_FMT 0 n.val) (L.get F.POS_SENT_CFG_TICK 0 n.val) (L.sent n.val).prevCal f
      let L1 := L.onSent n.val (fun x => { x with prevCal := some f.cal })
      let bad := L1.onSent n.val (fun x => { x with status := [] })
      match r with
      | none => (bad.incSat F.POS_SENT_ERR_FRMERR 0 n.val).transient Ev.POS_SENT_FRAME 0 (6 + n.val)
      | some vals =>
        if sentCrcOk (L.is F.POS_SENT_CFG_CRCM 0 n.val) vals then
          (L1.sentSerial n.val (vals.getD 0 0)).sentTake n.val f.cal vals
        else (bad.incSat F.POS_SENT_ERR_CRCERR 0 n.val).transient Ev.POS_SENT_CRC 0 (6 + n.val))

/-- A frame timeout of receiver `n` has run out: from its enable or its last valid frame, or, with SPCEN = 1, from the first trigger
since (R331, R332). -/
def Lane.sentDue (L : Lane) (n : Nat) : Bool :=
  let d := us (100 * max 1 (L.get F.POS_SENT_SPC_TOUT 0 n))
  L.since (L.sent n).tmoAt d || (L.is F.POS_SENT_CFG_SPCEN 0 n && (match (L.sent n).trigAt with
    | some t => L.since t d
    | none => false))

/-- SENT_TIMEOUT (R331): no valid frame for TOUT × 100 us; recorded once per loss. -/
def execSentTimeout (l : LaneId) (n : Fin 4) (s : State) : Out :=
  s.on l (fun L => L.chanRuns (6 + n.val) && !(L.sent n.val).lost && L.sentDue n.val) (fun L =>
    let L1 := [6 + n.val, 10 + n.val].foldl (fun K q => K.onQuant q (fun x => { x with valid := false, avalid := false })) L
    ((L1.onSent n.val (fun x => { x with lost := true })).incSat F.POS_SENT_ERR_TOUTS 0 n.val).transient
      Ev.POS_SENT_TIMEOUT 0 (6 + n.val))

/-- SENT_TRIGGER (R332): at every TPER-th boundary the receiver drives its line low for TRW nominal ticks. -/
def execSentTrigger (l : LaneId) (n : Fin 4) (s : State) : Out :=
  s.on l (fun L => L.chanRuns (6 + n.val) && L.is F.POS_SENT_CFG_SPCEN 0 n.val && L.atBoundary
      && L.voteK % max 1 (L.get F.POS_SENT_SPC_TPER 0 n.val) == 0) (fun L =>
    L.onSent n.val (fun x => { x with trigAt := some (x.trigAt.getD L.now) }))

/-! ### Probes, reads, compare units -/

/-- PROBE_EDGE (R333): a filtered probe edge of the kind EDGE selects latches VAL and the edge time. -/
def execProbeEdge (l : LaneId) (p : Fin 2) (rising : Bool) (s : State) : Out :=
  s.on l (fun L => L.up && L.is F.POS_PRB_CFG_EN 0 p.val && (match L.get F.POS_PRB_CFG_EDGE 0 p.val with
      | 0 => rising
      | 1 => !rising
      | _ => true)) (fun L =>
    let q := L.get F.POS_PRB_CFG_QSEL 0 p.val
    let v := (L.quant (if q ≤ 9 then q else 0)).val
    let again := L.is F.POS_PRB_CFG_VALID 0 p.val
    let t := L.edgeTime (filtN (L.get F.POS_PRB_CFG_FILT 0 p.val))
    let L1 := ((L.putS F.POS_PRB_VAL_VAL v 0 p.val).put F.POS_PRB_CFG_VALID 1 0 p.val).onPos (fun x =>
      { x with prbT := x.prbT.set p.val (BitVec.ofNat 32 t) })
    if again then (L1.put F.POS_PRB_CFG_OVR 1 0 p.val).note Ev.POS_PRB_OVR else L1)

/-- The data the last bus read returned. -/
def Lane.busRet (L : Lane) (w : Nat) : Lane := { L with cmdq := { L.cmdq with busData := BitVec.ofNat 32 w } }

/-- PRB_VAL_READ (R333): a read of POS_PRB_p_VAL copies the edge time into its shadow. -/
def execPrbValRead (l : LaneId) (m : Master) (p : Fin 2) (s : State) : Out :=
  s.gate l m false (R.POS_PRB_VAL.addr 0 p.val) (fun s => s.on l Lane.up (fun L =>
    (L.put F.POS_PRB_T_TIME (L.pos.prbT.getD p.val 0).toNat 0 p.val).busRet (L.reg R.POS_PRB_VAL 0 p.val)))

/-- PRB_T_READ (R333): a read of POS_PRB_p_T returns the shadow and clears VALID, and OVR with it. -/
def execPrbTRead (l : LaneId) (m : Master) (p : Fin 2) (s : State) : Out :=
  s.gate l m false (R.POS_PRB_T.addr 0 p.val) (fun s => s.on l Lane.up (fun L =>
    ((L.put F.POS_PRB_CFG_VALID 0 0 p.val).put F.POS_PRB_CFG_OVR 0 0 p.val).busRet (L.reg R.POS_PRB_T 0 p.val)))

/-- The STAT word of a quantity (POS_Q_q_STAT). -/
def Quant.stat (q : Quant) : Nat :=
  b2n q.valid + 2 * b2n q.avalid + 4 * b2n q.uncert + 8 * b2n q.fault + 16 * b2n q.svalid + 32 * b2n q.hdif
    + 0x100 * q.rc.toNat + 0x10000 * b2n q.dirn

/-- Q_VAL_READ (R320): a read of POS_Q_q_VAL latches the quantity's other fields from the same cycle. -/
def execQValRead (l : LaneId) (m : Master) (q : Fin 14) (s : State) : Out :=
  s.gate l m false (R.POS_Q_VAL.addr 0 q.val) (fun s => s.on l Lane.up (fun L =>
    let x := L.quant q.val
    let L1 := ((L.put F.POS_Q_ANG_ANG x.ang 0 q.val).put F.POS_Q_T_T (L.quantT q.val).toNat 0 q.val).putS F.POS_Q_SPD_SPD
      (if q.val < 10 then x.spd else 0) 0 q.val
    ((L1.setReg R.POS_Q_STAT x.stat 0 q.val).put F.POS_Q_ST_ST x.st.toNat 0 q.val).busRet (L.reg R.POS_Q_VAL 0 q.val)))

/-- A unit judged at a write, which the rest of the cycle remembers (R335). -/
def Lane.cmpWritten (L : Lane) (q u : Nat) : Lane :=
  (L.onPos (fun p => { p with judged := (q, u, L.now) :: p.judged.filter (fun x => x.2.2 == L.now) })).cmpJudge q u

/-- CMP_TGT_WRITE (R335): TGT, or CTL with ARM, of a compare unit written. A rise of ARM and every write of the target of an
armed unit are judged; W1C bits written as 1 clear. -/
def execCmpTgtWrite (l : LaneId) (q : Fin 10) (u : Fin 2) (ctl : Bool) (val : Word) (s : State) : Out :=
  s.on l Lane.up (fun L =>
    let f := fun x => cmpFld x u.val
    if ctl then
      let was := L.is (f F.POS_CMP_CTL_ARM) 0 q.val
      let old := L.reg (f F.POS_CMP_CTL_HIT).reg 0 q.val
      let keep := old - bits old 0 6
      let L1 := L.setReg (f F.POS_CMP_CTL_HIT).reg (keep + bits val.toNat 0 6) 0 q.val
      let L2 := if bit val.toNat 8 then L1.put (f F.POS_CMP_CTL_HIT) 0 0 q.val else L1
      let L3 := if bit val.toNat 10 then L2.put (f F.POS_CMP_CTL_CAUGHT) 0 0 q.val else L2
      if L3.is (f F.POS_CMP_CTL_ARM) 0 q.val && !was then L3.cmpWritten q.val u.val
      else if L3.is (f F.POS_CMP_CTL_ARM) 0 q.val then L3
      else L3.put (f F.POS_CMP_CTL_BEHIND) 0 0 q.val
    else (L.setReg (f F.POS_CMP_TGT_TGT).reg val.toNat 0 q.val).cmpWritten q.val u.val)

/-! ### Speed (R336, R337) -/

/-- The speed update of an ENC channel. -/
def Lane.encSpeed (L : Lane) (n : Nat) : Lane :=
  let e := L.enc n
  let ps := L.getS F.POS_Q_SCL_PSCL 0 n
  let old := (L.quant n).spd
  match e.edge, e.used with
  | some (te, ce), some (tu, cu) =>
    let fresh := decide (tu < te)
    let v : Int :=
      if fresh then divR ((ce - cu) * ps * 200000000) (((te : Int) - tu) * 65536)
      else if !e.moved then 0
      else
        let b := divR (ps.natAbs * 200000000) ((L.mtN - te : Nat) * 65536)
        let m := min (old.natAbs : Int) b
        if old < 0 then -m else m
    let L1 := if fresh then L.onEnc n (fun x => { x with used := some (te, ce), moved := true }) else L
    L1.onQuant n (fun q => { q with spd := satS 32 v, st := L.mtLo, sUpd := true })
  | _, _ => L.onQuant n (fun q => { q with spd := 0, st := L.mtLo, sUpd := true })

/-- The speed update of a resolver: its tracking speed in VAL units per second. -/
def Lane.resSpeed (L : Lane) (r : Nat) : Lane :=
  L.onQuant (4 + r) (fun q => { q with
    spd := satS 32 (divR ((L.resl r).speed * L.getS F.POS_Q_SCL_PSCL 0 (4 + r)) (2 ^ 32)), st := L.mtLo, sUpd := true })

/-- The speed update of a SENT receiver: the slope over its last two valid frames. -/
def Lane.sentSpeed (L : Lane) (n : Nat) : Lane :=
  let x := L.sent n
  let v := match x.prev, x.last with
    | some (v0, t0), some (v1, t1) => if t1 = t0 then 0 else divR ((v1 - v0) * 200000000) ((t1 : Int) - t0)
    | _, _ => 0
  L.onQuant (6 + n) (fun q => { q with spd := satS 32 v, st := L.mtLo, sUpd := true })

/-- SPEED_UPDATE (R336): at a multiple of 200 × SPER ticks of module time. -/
def execSpeedUpdate (l : LaneId) (s : State) : Out :=
  s.on l (fun L => L.up && L.mtN % (200 * max 1 (min 1000 (L.get F.POS_SPD_SPER))) == 0) (fun L =>
    let L1 := [0, 1, 2, 3].foldl (fun K n => if K.chanRuns n then K.encSpeed n else K) L
    let L2 := [0, 1].foldl (fun K r => if K.chanRuns (4 + r) then K.resSpeed r else K) L1
    [0, 1, 2, 3].foldl (fun K n => if K.chanRuns (6 + n) then K.sentSpeed n else K) L2)

/-- SPEED_ZERO (R337): SZERO ms without an edge set SPD to 0. -/
def execSpeedZero (l : LaneId) (n : Fin 4) (s : State) : Out :=
  s.on l (fun L => L.chanRuns n.val && (match (L.enc n.val).edge with
      | some (t, _) => decide (t + ms (max 1 (L.get F.POS_SPD_SZERO)) ≤ L.mtN)
      | none => false)) (fun L => L.onQuant n.val (fun q => { q with spd := 0 }))

/-! ### At a vote boundary -/

/-- The Hedge latches its counts and its newest SENT_0 frame (R338). -/
def Lane.hedgeLatch (L : Lane) : Lane :=
  let L1 := (L.putS F.HSF_DEC_E0LAT_CNT (L.pos.hcnt.getD 0 0)).putS F.HSF_DEC_E1LAT_CNT (L.pos.hcnt.getD 1 0)
  match L.pos.hs0 with
  | some (fc1, rc, t) =>
    let ok := decide (L.now ≤ t + us (100 * max 1 (L.get F.POS_SENT_SPC_TOUT 0 0)))
    L1.setReg R.HSF_DEC_S0 (fc1.toNat + 0x10000 * rc.toNat + 0x1000000 * b2n ok)
  | none => L1

/-- HDIF, UNCERT and the event of a comparison with the Hedge; a TRANSIENT that counts toward no bucket (R340). -/
def Lane.hdifSet (L : Lane) (q : Nat) : Lane :=
  let L1 := (L.onQuant q (fun x => { x with hdif := true })).note Ev.POS_HDEC_MISMATCH
  { L1 with ozl := { L1.ozl with scoreAt := L1.now :: L1.ozl.scoreAt } }

/-- One comparison: `i` 0 ENC_0, 1 ENC_1, 2 SENT_0; `q` its quantity. -/
def Lane.hcheck (L : Lane) (i q : Nat) (isMiss : Bool) : Lane :=
  let seq := max 1 (L.get F.POS_HCHK_HSEQ)
  if isMiss then
    let m := nthN L.pos.miss i + 1
    let L1 := L.onPos (fun p => { p with miss := p.miss.set i m, hit := p.hit.set i 0 })
    if seq ≤ m ∧ !(L.quant q).hdif then L1.hdifSet q else L1
  else
    let m := nthN L.pos.hit i + 1
    let L1 := L.onPos (fun p => { p with miss := p.miss.set i 0, hit := p.hit.set i m })
    if seq ≤ m then L1.onQuant q (fun x => { x with hdif := false }) else L1

/-- The count comparison of ENC_0 or ENC_1 (R340); corrections under R323 are added to the Hedge's side. -/
def Lane.hcheckEnc (L : Lane) (n : Nat) : Lane :=
  let e := L.enc n
  let c := L.getS F.POS_ENC_CNT_CNT 0 n
  let h := L.getS (if n = 0 then F.HSF_DEC_E0LAT_CNT else F.HSF_DEC_E1LAT_CNT)
  let hp := L.pos.hprev.getD n 0
  let L1 := (L.onEnc n (fun x => { x with prevCnt := some c, corr := 0 })).onPos (fun p => { p with hprev := p.hprev.set n h })
  match e.prevCnt with
  | some pc =>
    if L.is F.POS_HCHK_HEN && L.chanRuns n && (L.hdecMode n == 1 || L.hdecMode n == 2) then
      L1.hcheck n n (decide (L.get F.POS_HCHK_HTOL < (toSigned 32 (ofSigned 32 ((c - pc) - (h - hp + e.corr)))).natAbs))
    else L1
  | none => L1

/-- VAL of a channel's quantities taken again from what it holds, where an offset takes effect (R317, R342). -/
def Lane.reshow (L : Lane) (c : Nat) : Lane :=
  if c < 4 then L.encShow c
  else if c < 6 then
    let x := L.resl (c - 4)
    L.setVal c (L.valOf c (x.turns * 65536 + (x.theta / 65536 : Nat)))
  else if (L.sent (c - 6)).last.isNone then L
  else
    let fmt := L.get F.POS_SENT_CFG_FMT 0 (c - 6)
    let L1 := L.setVal c (L.valOf c (L.get F.POS_SENT_DATA_FC1 0 (c - 6)))
    if fmt == 1 || fmt == 2 then L1.setVal (c + 4) (L1.valOf (c + 4) (L1.get F.POS_SENT_DATA_FC2 0 (c - 6))) else L1

/-- What a vote boundary does to POS (R340, R342). -/
def Lane.posBoundary (L : Lane) : Lane :=
  let L1 := (List.range 14).foldl (fun K q => K.onQuant q (fun x => { x with ofs := K.getS F.POS_Q_OFS_OFS 0 q })) L
  let L2 := (List.range 10).foldl (fun K c => if K.chanRuns c then K.reshow c else K) L1
  let L3 := (L2.hcheckEnc 0).hcheckEnc 1
  let d := L3.reg R.HSF_DEC_S0
  let same := L3.get F.POS_SENT_CFG_FMT 0 0 != 3 || (L3.quant 6).rc.toNat == bits d 16 8
  if L3.is F.POS_HCHK_HEN && (L3.quant 6).valid && bit d 24 && L3.is F.HSF_DEC_CFG_S0EN && same then
    L3.hcheck 2 6 (L3.get F.POS_SENT_DATA_FC1 0 0 != bits d 0 16)
  else L3

end Sys2Proof.Machine
end

