-- ==== Sys2Proof/Machine/Pwr.lean ====
section
/-!
DEFINITION. Machine/Pwr.lean: the commands of Power domains, votes and waking (15): votes, the steps of a drop and of a raise, the
entry into parked sleep and the wake monitors, PREQ exchanges.
-/

namespace Sys2Proof.Machine

/-! ### Votes (R470, R471) -/

/-- The clients a master may name in PWR_VOTE (R470, Table 15.2). -/
def mayVote (m : Master) (c : Nat) : Bool :=
  match m with
  | .trioM | .trioU => c == 1 || c == 3
  | .svc => c == 2
  | .free => false

/-- PWR_VOTE (R470, R471): sets, replaces or withdraws a client's vote; what R470 and R471 rule out is ignored and recorded. An ON
vote aborts an entry into parked sleep (R492). -/
def execPwrVote (l : LaneId) (m : Master) (val : Word) (s : State) : Out :=
  s.on l (fun L => L.up && L.masterRuns m) (fun L =>
    let d := bits val.toNat 0 5
    let v := bits val.toNat 8 2
    let c := bits val.toNat 16 8
    if !mayVote m c then L.busErr
    else if d = 0x1F then (if v = 0 then L.unvoteAll c else L.busErr)
    else if 20 < d then L.busErr
    else if v = 3 then L
    else if v = 1 ∧ L.retIgnored d then L.busErr
    else
      (if v = 2 ∧ d ≠ 0 then L.entryVote c else L).vote c d v)

/-! ### Drops (R473, R474) -/

/-- A drop's next step: 2 Memory for RET, 3 Oscillator, 4 Regulator request, and the state reached. -/
def Lane.dropStep (L : Lane) (d step dst : Nat) : Lane :=
  if step = 1 then L.setDom d (.drop (if dst = 1 then 2 else 3) dst L.now)
  else if step = 2 then L.setDom d (.drop 3 dst L.now)
  else if step = 3 then L.setDom d (.drop 4 dst L.now)
  else (((if dst = 0 then L.domClear d else L).domState d dst).setDom d .stable).domFollow 0 d

/-- DOMAIN_DROP (R473, Table 15.3): the step in progress of a domain's drop ends. With step 1 its elements' operations stop. -/
def execDomainDrop (l : LaneId) (d : Fin 21) (s : State) : Out :=
  s.on l (fun L => L.logicOn && (L.pwr.sleep == .awake || L.pwr.sleep == .held) && match L.domPhase d.val with
      | .drop step dst _ => !(step == 2 && dst == 1)
      | _ => false) (fun L =>
    match L.domPhase d.val with
    | .drop step dst _ =>
      let L1 := if step = 1 then (domElems d.val).foldl (fun K e => K.stopElem e) L else L
      L1.dropStep d.val step dst
    | _ => L)

/-- RETENTION_SIGNED (R478): the retention signatures of a domain are computed; in an entry into parked sleep the frames follow
the last one. -/
def execRetentionSigned (l : LaneId) (d : Fin 21) (s : State) : Out :=
  s.on l (fun L => L.logicOn && match L.domPhase d.val with
      | .drop step dst _ => step == 2 && dst == 1
      | _ => false) (fun L =>
    let L1 := L.setDom d.val (.drop 3 1 L.now)
    if L1.pwr.sleep == .sign && !L1.signing then L1.sleepFrames else L1)

/-! ### Raises (R475, R476, R479) -/

/-- The bit of a lost bank in PWR_RETLOST: `k` 0 the domain's memory, 1 the second memory of TCM, 2 its register chain. -/
def lostBit (d k : Nat) : Option Nat :=
  if k = 2 then some (9 + d)
  else if k = 1 then (if d = 12 then some 9 else none)
  else if d = 12 then some 8 else if 13 ≤ d then some (d - 13) else none

/-- The memory of a retention bank of a domain: `k` 0 its memory, 1 the second memory of TCM (R478). -/
def bankMem (d k : Nat) : List (Nat × Nat) :=
  if d = 12 then (if k = 0 then [(0x10000000, 0x10040000)] else [(0x10100000, 0x10120000)])
  else if 13 ≤ d ∧ k = 0 then domMem d else []

/-- The signature of a memory bank: CRC-32C over its bytes in ascending order (R478). -/
def Lane.bankSig (L : Lane) (r : Nat × Nat) : Word := crc32c (L.memBytes r.1 (r.2 - r.1))

/-- The bytes that changed while they were retained. -/
def Lane.decayed (L : Lane) (flips : List (Word × Byte)) : Lane := flips.foldl (fun K f => K.setMemBytes f.1.toNat [f.2]) L

/-- The memory banks of a domain whose signature after the changes `flips` differs from that of the entry, since when nothing else has
written them (R479). -/
def Lane.lostBanks (L : Lane) (d : Nat) (flips : List (Word × Byte)) : List Nat :=
  let mine (r : Nat × Nat) := flips.filter (fun f => decide (r.1 ≤ f.1.toNat) && decide (f.1.toNat < r.2))
  [0, 1].filter (fun k => (bankMem d k).any (fun r => !(mine r).isEmpty && (L.decayed (mine r)).bankSig r != L.bankSig r))

/-- A lost bank (R479): RETLOST, RET_LOST, wiped; a lost chain puts the domain's blocks at their reset values. -/
def Lane.bankLost (L : Lane) (d k : Nat) : Lane :=
  match lostBit d k with
  | none => L
  | some b =>
    let L1 := (L.setRegBit R.PWR_RETLOST b true).transient Ev.PWR_RET_LOST
    if k = 2 then ((L1.clearRegs (inDom d)).clearHistory (inDom d) (fun x => !x.isHedge && domOf x == d)).domHidden d
    else (bankMem d k).foldl (fun K r => K.wipe r.1 r.2) L1

/-- The check of step 3 from RET (R479): bytes outside the domain's banks do not count; a bank whose signature differs is lost, and so is
the register chain where its own does, `chain`; what changed without its signature showing it stays. -/
def Lane.retCheck (L : Lane) (d : Nat) (flips : List (Word × Byte)) (chain : Bool) : Lane :=
  let inBank (f : Word × Byte) := [0, 1].any (fun k => (bankMem d k).any (fun r => decide (r.1 ≤ f.1.toNat) && decide (f.1.toNat < r.2)))
  let fs := flips.filter inBank
  let lost := L.lostBanks d fs ++ (if chain then [2] else [])
  lost.foldl (fun K k => K.bankLost d k) (L.decayed fs)

/-- WAKE events of network controllers whose wake woke the lane, recorded once their domain is ON (R420, R441). -/
def Lane.wakeEvents (L : Lane) (d : Nat) : Lane :=
  if d = 10 then
    [0, 1, 2, 3].foldl (fun K n =>
      if (K.can.getD n {}).woke then
        { (K.note Ev.CAN_WAKE n) with can := K.can.set n { K.can.getD n {} with woke := false } }
      else K) L
  else if d = 9 && L.flx.woke then { (L.note Ev.FLX_WAKE) with flx := { L.flx with woke := false } }
  else L

/-- DOMAIN_STEP_READY (R475): a step of a raise has ended. In step 3 from RET the signatures are compared: `flips` are the bytes that
changed while retained, `chain` says that the register chain's signature failed, whose order of bits the spec does not give (log 150). At
LOGIC_RDY the domain is ON, and a lower vote takes effect (R476). -/
def execDomainStepReady (l : LaneId) (d : Fin 21) (flips : List (Word × Byte)) (chain : Bool) (s : State) : Out :=
  s.on l (fun L => L.hedgeUp && match L.domPhase d.val with
      | .rise _ _ _ => true
      | _ => false) (fun L =>
    let k := d.val
    match L.domPhase k with
    | .rise step _ ret =>
      if step = 1 then (L.put F.PWR_D_STAT_REG_RDY 1 0 k).setDom k (.rise 2 L.now ret)
      else if step = 2 then (L.put F.PWR_D_STAT_OSC_RDY 1 0 k).setDom k (.rise 3 L.now ret)
      else if step = 3 then
        let L1 := if ret then L.retCheck k flips chain else L
        (L1.put F.PWR_D_STAT_MEM_RDY 1 0 k).setDom k (.rise 4 L.now ret)
      else
        (((L.domState k 2).setDom k .stable).wakeEvents k).followVotes 0
    | _ => L)

/-- STEP_FAIL (R475): a step not ended 1 ms after its start; the domain returns to OFF with its votes kept, its elements are pruned. It
rises again when its votes are next taken up (log 37). -/
def execStepFail (l : LaneId) (d : Fin 21) (s : State) : Out :=
  s.on l (fun L => L.hedgeUp && match L.domPhase d.val with
      | .rise _ t _ => L.since t (ms 1)
      | _ => false) (fun L =>
    let L1 := (((L.domClear d.val).domState d.val 0).setDom d.val .stable).note Ev.PWR_STEP_FAIL
    (domElems d.val).foldl (fun K e => K.prune e) L1)

/-! ### Parked sleep and waking (R489 to R497) -/

/-- SLEEP_REQ (R489, R490, R491): the sleep request; held while a frequency level change runs, then the check cycle. `wake` is the
cause, less 1, of a wake in the same cycle. -/
def execSleepReq (l : LaneId) (wake : Option (Fin 8)) (s : State) : Out :=
  s.on l (fun L => L.up && L.pwr.sleep == .awake) (fun L => L.sleepReq (wake.map (fun c => c.val + 1)))

/-- WAKE_PIN (R496): WAKE_x has held a level for PFILT us. -/
def execWakePin (l : LaneId) (high : Bool) (s : State) : Out :=
  s.on l (fun L => L.hedgeUp && L.is F.PWR_WAKEEN_PIN && high != L.is F.PWR_WAKEEN_PINPOL) (fun L => L.wake 6)

/-- BEMF_SAMPLE (R495): every 1 ms in parked sleep the Hedge compares the greatest phase-to-phase voltage of each watched bridge,
in mV; three in a row above BTH wake the lane. -/
def execBemfSample (l : LaneId) (mv : List Nat) (s : State) : Out :=
  s.on l (fun L => L.hedgeUp && L.pwr.sleep == .parked && L.since L.pwr.bemfAt (ms 1)) (fun L =>
    let th := 50 * (let t := L.get F.PWR_BEMF_BTH; if t = 0 then 1 else t)
    let cnt := [0, 1, 2, 3].map (fun b =>
      if L.fbit F.PWR_BEMF_BR b && decide (th < mv.getD b 0) then min 3 (L.pwr.bemf.getD b 0 + 1) else 0)
    let L1 := L.onPwr (fun w => { w with bemf := cnt, bemfAt := L.now })
    if L1.is F.PWR_WAKEEN_BEMF && cnt.any (fun n => n == 3) then L1.wake 8 else L1)

/-- COLD_FORM (R480): a lane with RET_LOST, ready for 100 ms while no lane without RET_LOST is ready, wipes every retained memory
and starts its kernel cold; it then takes part in forming. -/
def execColdForm (l : LaneId) (s : State) : Out :=
  s.on l (fun L => L.up && L.reg R.PWR_RETLOST != 0 && (match L.ozl.readyAt with
      | some t => L.since t (ms 100)
      | none => false) && [l.next, l.prev].all (fun x =>
        !reaches s x l || (s.lane x).ozl.readyAt.isNone || (s.lane x).reg R.PWR_RETLOST != 0)) (fun L =>
    let L1 := domOrder.foldl (fun K d => if d = 12 ∨ 13 ≤ d then (domMem d).foldl (fun J r => J.wipe r.1 r.2) K else K) L
    (L1.setReg R.PWR_RETLOST 0).put F.PWR_WAKE_WARM 0)

/-! ### PREQ (R482 to R488) -/

/-- The request at the head put on the wire: SEQ, BUSY, the first read frame due (R486). -/
def Lane.preqSend (L : Lane) (r : PreqReq) (seq tries : Nat) : Lane :=
  ((((L.put F.PREQ_STAT_BUSY 1).put F.PREQ_STAT_SEQ seq).put F.PREQ_STAT_RETRY tries)).onPwr (fun w => { w with
    run := some { req := r, seq := seq, tries := tries, t0 := L.now + 680, nextAt := L.now + 1760, busy := false } })

/-- PREQ_EXCHANGE (R486, R487): the request of the highest rank starts; after PMIC_FAULT only a STATUS request does (R488). -/
def execPreqExchange (l : LaneId) (s : State) : Out :=
  s.on l (fun L => L.hedgeUp && L.pwr.run.isNone && !L.pwr.queue.isEmpty) (fun L =>
    let q := if L.is F.PREQ_STAT_FAULT then L.pwr.queue.filter (fun r => r.cmd == 4) else L.pwr.queue
    match q with
    | [] => (L.onPwr (fun w => { w with queue := [] })).levelFail
    | r :: rest => (L.onPwr (fun w => { w with queue := rest })).preqSend r ((L.get F.PREQ_STAT_SEQ + 1) % 16) 0)

/-- An exchange ended: source 113 pulses, a level change that failed stays where it is (R488). -/
def Lane.preqEnd (L : Lane) (r : PreqReq) (ok : Bool) : Lane :=
  let L1 := ((L.put F.PREQ_STAT_BUSY 0).onPwr (fun w => { w with run := none })).pulse 113
  if ok then L1
  else
    let L2 := if r.rank = 2 then L1.levelFail else L1
    if r.rank = 1 && L2.pwr.sleep == .frames then
      (L2.onPwr (fun w => { w with queue := w.queue.filter (fun x => x.rank != 1) })).park
    else L2

/-- PMIC_FAULT (R486, R488): recorded, FAULT set, the exchange failed. -/
def Lane.pmicFault (L : Lane) : Lane :=
  let L1 := ((L.note Ev.PREQ_PMIC_FAULT).put F.PREQ_STAT_FAULT 1).onPwr (fun w => { w with pollAt := L.now })
  match L1.pwr.run with
  | some x => L1.preqEnd x.req false
  | none => L1

/-- A TRANSIENT event of PREQ; its promotion is handled as PMIC_FAULT (Table 15.11). -/
def Lane.preqTransient (L : Lane) (e : Event) : Lane :=
  let r := L.transientRaw e 0 0
  if r.2 then r.1.pmicFault else r.1

/-- The request frame sent again, or PMIC_FAULT after the third retry (R486). -/
def Lane.preqResend (L : Lane) : Lane :=
  match L.pwr.run with
  | none => L
  | some x => if 3 < x.tries + 1 then L.pmicFault else L.preqSend x.req x.seq (x.tries + 1)

/-- PREQ_TIMEOUT recorded and the request sent again (R486). -/
def Lane.preqTimedOut (L : Lane) : Lane := ((L.incSat F.PREQ_CNT_TMO).preqTransient Ev.PREQ_PREQ_TIMEOUT).preqResend

/-- The effects of an acknowledged request (Table 15.6). -/
def Lane.preqAck (L : Lane) (r : PreqReq) (value : Nat) : Lane :=
  if r.cmd = 1 then
    let L1 := L.put F.PREQ_RAIL_TARGET value 0 r.rail
    if r.rank = 2 then L1.levelAck else L1
  else if r.cmd = 4 then L.put F.PREQ_RAIL_MEAS value 0 r.rail
  else if r.cmd = 2 ∧ r.rail = 0xF ∧ r.rank = 1 then (if L.pwr.sleep == .waking then L.wakeRise else L)
  else if r.cmd = 5 ∧ r.rank = 1 then (if L.pwr.sleep == .frames then L.park else L)
  else L

/-- PREQ_READ (R486): a read frame has brought an echo, or 0xFFFF_FFFF where the PMIC drove nothing. -/
def execPreqRead (l : LaneId) (echo : Word) (s : State) : Out :=
  s.on l (fun L => L.hedgeUp && match L.pwr.run with
      | some x => decide (x.nextAt ≤ L.now)
      | none => false) (fun L =>
    match L.pwr.run with
    | none => L
    | some x =>
      let e := echo.toNat
      let st := bits e 28 4
      let again (K : Lane) (t0 : Nat) (busy : Bool) : Lane :=
        if t0 + us 100 ≤ K.now then K.preqTimedOut
        else if busy && decide (ms (let r := K.get F.PREQ_CFG_RAMPTO; if r = 0 then 1 else r) ≤ K.now - t0 + us 10) then K.preqResend
        else K.onPwr (fun w => { w with run := some { x with t0 := t0, busy := busy, nextAt := K.now + 2680 } })
      if e = 0xFFFFFFFF then again L x.t0 x.busy
      else if preqCrcOk echo && bits e 8 4 == x.seq then
        let L1 := L.put F.PREQ_STAT_LASTST st
        if st = 4 then again L1 L1.now true
        else if st = 1 then (L1.incSat F.PREQ_CNT_NAK).preqResend
        else if st = 0 then (L1.preqEnd x.req true).preqAck x.req (bits e 12 12)
        else if st = 2 ∨ st = 3 then ((L1.incSat F.PREQ_CNT_NAK).note Ev.PREQ_PREQ_NAK).preqEnd x.req false
        else (L1.note Ev.PREQ_PMIC_RAIL).preqEnd x.req false
      else ((L.incSat F.PREQ_CNT_CRCERR).preqTransient Ev.PREQ_PREQ_CRC).preqResend)

/-- PREQ_TIMEOUT (R486): no valid echo for 100 us. -/
def execPreqTimeout (l : LaneId) (s : State) : Out :=
  s.on l (fun L => L.hedgeUp && match L.pwr.run with
      | some x => L.since x.t0 (us 100)
      | none => false) Lane.preqTimedOut

/-- PMIC_STATUS_POLL (R488): after PMIC_FAULT one STATUS request every 100 ms. -/
def execPmicStatusPoll (l : LaneId) (s : State) : Out :=
  s.on l (fun L => L.hedgeUp && L.is F.PREQ_STAT_FAULT && L.since L.pwr.pollAt (ms 100)) (fun L =>
    (L.preqAsk { rank := 3, cmd := 4, rail := 0, value := 0 }).onPwr (fun w => { w with pollAt := L.now }))

/-- A write of PREQ_CMD: an exchange of rank 3 (R487). -/
def Lane.preqWrite (L : Lane) (cmd : Nat) (rail : BitVec 4) (value : BitVec 12) : Lane :=
  L.preqAsk { rank := 3, cmd := cmd, rail := rail.toNat, value := value.toNat }

/-- SET_RAIL (Table 15.6). -/
def execSetRail (l : LaneId) (rail : BitVec 4) (value : BitVec 12) (s : State) : Out :=
  s.on l Lane.up (fun L => L.preqWrite 1 rail value)

/-- ENABLE (Table 15.6). -/
def execPreqEnable (l : LaneId) (rail : BitVec 4) (value : BitVec 12) (s : State) : Out :=
  s.on l Lane.up (fun L => L.preqWrite 2 rail value)

/-- DISABLE (Table 15.6). -/
def execPreqDisable (l : LaneId) (rail : BitVec 4) (value : BitVec 12) (s : State) : Out :=
  s.on l Lane.up (fun L => L.preqWrite 3 rail value)

/-- STATUS (Table 15.6). -/
def execPreqStatus (l : LaneId) (rail : BitVec 4) (value : BitVec 12) (s : State) : Out :=
  s.on l Lane.up (fun L => L.preqWrite 4 rail value)

/-- SLEEP (Table 15.6). -/
def execPreqSleep (l : LaneId) (rail : BitVec 4) (value : BitVec 12) (s : State) : Out :=
  s.on l Lane.up (fun L => L.preqWrite 5 rail value)

/-- WAKE_CFG (Table 15.6). -/
def execWakeCfg (l : LaneId) (rail : BitVec 4) (value : BitVec 12) (s : State) : Out :=
  s.on l Lane.up (fun L => L.preqWrite 6 rail value)

end Sys2Proof.Machine
end

