-- ==== Sys2Proof/Machine/Reset.lean ====
section
/-!
DEFINITION. Machine/Reset.lean: Hedge power-on, lane resets and the lane reset order (R42 to R45, Tables 1.8 and 1.9), clock loss
(R27), what the kernel does at boot before the lane forms (R369, R497, R522, R524, R543), and the restart of R390 for a life-cycle
transition.
-/

namespace Sys2Proof.Machine

/-! ### What a lane reset leaves -/

/-- The bits of a register that a lane reset keeps (Table 1.8, R530; log 21): Hedge registers, AON's, those from fuses, prune and
held bits but for SRAM, CORE and SVC (R381), and counts of the drive cycle. -/
def laneKeep (a : Nat) : Nat :=
  match blockAt a with
  | some (b, n, o) =>
    if b.isHedge || aonReg a then 0xFFFFFFFF
    else if a = R.SYS_LC.addr 0 0 then 0x1D8
    else if b = .clk ∧ o = 0x08 then 0x100
    else if a = R.BIST_PRUNE_1.addr 0 0 ∨ a = R.BIST_HELD_1.addr 0 0 then 0xFF
    else if lastingReg a then 0xFFFFFFFF
    else if b = .hk then stateMask (b.base n + o)
    else if a = R.OZL_GRAFT.addr 0 0 then 0x30
    else if a = R.TRIO_INJ.addr 0 0 then 0x4000000
    else 0
  | none => 0

/-- The bit of a reset source in SYS_RSTCAUSE. -/
def causeBit : RstSrc → Nat
  | .por => 0
  | .vcore => 1
  | .vdd18 => 2
  | .vio => 3
  | .pin => 4
  | .soft => 5
  | .clkLoss => 6
  | .debug => 7

/-- What the logic die holds beside registers and addressed memory, as a lane reset leaves it; the Hedge's part, the Almanac's live
record and NVM stay (R42, R530). -/
def Lane.logicHidden (L : Lane) : Lane :=
  let hidden := logicBlks.foldl (fun K b => (List.range b.2).foldl (fun M n => M.blkHidden b.1 n) K) L
  { hidden with
    ozl := { ({} : OzlSt) with chkFaults := L.ozl.chkFaults }
    clk := { ({} : ClkSt) with aonLostAt := L.clk.aonLostAt }
    sdl := { hidden.sdl with vrefOut := none }
    trio := {}
    cmdq := {}
    drive := {}
    can := [{}, {}, {}, {}]
    flx := {}
    pwr := {}
    test := {}
    alm := { L.alm with copy := [], snapEnd := 0, queue := [], lc := none, turns := [] }
    claimed := []
    ip := []
    claimData := [0, 0, 0]
    isolated := none
    mt := 0
    link := { L.link with
      trained := false, accesses := [], rsp := none, lastLegSent := 0, legOut := List.replicate 12 0, lastTimeSent := 0
      timePend := false, mtAgo := [0, 0]
      downLine := false, irqLines := 0, gateWord := 0 }
    evqTime := L.evqTime.filter (fun e => laneKeep e.1 == 0xFFFFFFFF)
    evqRead := L.evqRead.filter (fun a => laneKeep a == 0xFFFFFFFF)
    tokens := L.tokens.filter (fun t => t.blk.isHedge) }

/-- The logic die put into lane reset: registers at their reset values, memories wiped, operations forgotten; pruned elements and a
pruned lane stay so. -/
def Lane.logicReset (L : Lane) : Lane :=
  let lanePruned := L.own == 4
  let L1 := (L.almTear.resetRegs (fun _ => true) laneKeep).wipeMems.logicHidden
  let L2 := logicBlks.foldl (fun K b => (List.range b.2).foldl (fun M n => M.keepPruned b.1 n) K) L1
  let L3 := L2.keepOfs L
  if lanePruned then L3.setStOf L3.strap 4 else L3

/-- The start of a lane reset by a source (R42, R43): its cause bit, the logic die wiped, the gates off through R23 and the lane
marked as not voting. A reset already running starts again. -/
def Lane.laneReset (L : Lane) (src : RstSrc) : Lane :=
  let cause := putBits (L.reg R.SYS_RSTCAUSE) (causeBit src) 1 1
  let L1 := L.logicReset.setReg R.SYS_RSTCAUSE cause
  let L2 := { L1 with rst := { L1.rst with
    sources := if L.rst.sources.contains src then L.rst.sources else src :: L.rst.sources, phase := .held, phaseAt := L.now } }
  let L3 := if L2.is F.GD_LSTOP_LEGTO then L2 else (L2.note Ev.HLNK_LEG_TIMEOUT).laneStop F.GD_LSTOP_LEGTO
  (L3.onSdl (fun d => { d with held := true })).showNovote

/-- LANE_RESET (Table 1.8, R43): a source of a lane reset asserts. A debug reset is ignored while the debug port is closed (R531). -/
def execLaneReset (l : LaneId) (src : RstSrc) (s : State) : Out :=
  s.on l (fun L => L.hedgeUp && src != .por && (src != .debug || L.is F.SYS_LC_DBGOPEN)) (fun L => L.laneReset src)

/-- SYS_RSTREQ: the key 0xA5C3 with LANE = 1 resets the lane, any other key is ignored and recorded. -/
def execSysRstreq (l : LaneId) (val : Word) (s : State) : Out :=
  s.on l Lane.up (fun L =>
    if bits val.toNat 0 16 ≠ 0xA5C3 then L.busErr
    else if bit val.toNat 16 then L.laneReset .soft
    else L)

/-- XTAL_LOSS (R27): the crystal clock is lost. -/
def execXtalLoss (l : LaneId) (s : State) : Out :=
  s.on l (fun L => L.logicOn && L.clk.xtalOk) (fun L => (L.note Ev.CLK_XTAL_LOSS).laneReset .clkLoss)

/-- PLL_UNLOCK (R27). -/
def execPllUnlock (l : LaneId) (s : State) : Out :=
  s.on l (fun L => L.logicOn && L.clk.pllOn) (fun L => (L.note Ev.CLK_PLL_UNLOCK).laneReset .clkLoss)

/-! ### The supplies -/

/-- The lane as VBAT_x falls below 4.5 V. -/
def Lane.vbatLow (L : Lane) : Lane :=
  let L1 := L.logicReset
  let L2 := { L1 with
    gate := { L1.gate with on := List.replicate 24 false, cpRun := false, aliveLevel := false }
    rst := { L1.rst with vbatOk := false, sources := [.por], phase := .held, phaseAt := L.now, powered := false } }
  (L2.put F.PROT_VM_BRK_ON 0).onSdl (fun d => { d with held := true })

/-- VBAT_LOW (R45, R542): the Hedge power-on reset; every gate off, the logic die held, an Almanac write torn. The Hedge drives no
cross-inhibit line any more, which its peers see. -/
def execVbatLow (l : LaneId) (s : State) : Out :=
  if (s.lane l).hedgeUp then .next (((s.upd l Lane.vbatLow).seeXinh l l.next).seeXinh l l.prev) else .next s

/-- The lane as VBAT_x rises through 4.9 V: everything at its reset value but for NVM and fuses (Table 1.8). -/
def Lane.powerOn (L : Lane) : Lane :=
  let F := Lane.fresh L.strap
  let fused := L.regs.filterMap (fun e =>
    match blockAt e.1 with
    | some (.sys, _, o) =>
      if o = R.SYS_LC.off then some (e.1, (e.2 &&& 0x18) ||| (resetWord L.strap e.1 &&& ~~~(0x18 : Word)))
      else if 0x40 ≤ o ∧ o < 0x70 then some e else none
    | some (.gd, _, o) => if o = R.GD_DT.off then some e else none
    | some (.ths, _, o) =>
      if o = R.THS_TDK.off ∨ (R.THS_TDF.off ≤ o ∧ o < R.THS_TDF.off + 16) then some e else none
    | _ => none)
  let K := fused.foldl (fun (M : Lane) e => M.wr e.1 e.2) F
  { K with
    mem := L.mem.filter (fun c => decide (c.1 < 0x01000000))
    link := { K.link with ident := L.link.ident }
    sdl := { K.sdl with lineStuck := L.sdl.lineStuck }
    gate := { K.gate with dtFailed := L.gate.dtFailed }
    ths := { K.ths with failed := L.ths.failed }
    alm := { K.alm with slots := L.alm.slots, erased := L.alm.erased, lcRec := L.alm.lcRec, sealRec := L.alm.sealRec } }.calRestart

/-- HEDGE_POWER_ON (R45): VBAT_x rises through 4.9 V. The Hedge leaves its cross-inhibit outputs de-asserted, which its peers see, and
sees the lines of its peers. -/
def execHedgePowerOn (l : LaneId) (s : State) : Out :=
  if (s.lane l).hedgeUp then .next s
  else .next (((((s.upd l Lane.powerOn).driveXinh l l.next false).driveXinh l l.prev false).seeXinh l.next l).seeXinh l.prev l)

/-- The logic supplies asked for by AON once the Hedge has let the logic die go and VIO_x is valid (R543). -/
def Lane.askRails (L : Lane) : Lane :=
  let L1 := [(2, 3300), (1, 1800), (0, 800)].foldl
    (fun (K : Lane) r => K.preqAsk { rank := 1, cmd := 6, rail := r.1, value := r.2 }) L
  let L2 := L1.preqAsk { rank := 1, cmd := 2, rail := 0xF, value := 0 }
  { L2 with rst := { L2.rst with powered := true } }

/-- RESET_RELEASE (R43, R45, Table 1.9): a source of the lane reset releases; VBAT_x must have stayed valid for 100 us. With the last
one the fuse load starts. -/
def execResetRelease (l : LaneId) (src : RstSrc) (s : State) : Out :=
  s.on l (fun L => L.hedgeUp && L.rst.phase == .held && L.rst.sources.contains src &&
      (src != .por || L.since 0 (us 100))) (fun L =>
    let left := L.rst.sources.filter (fun x => x != src)
    let L1 := { L with rst := { L.rst with sources := left } }
    let L2 := if !L1.rst.powered && !left.contains .por && !left.contains .vio then L1.askRails else L1
    if left.isEmpty then { L2 with rst := { L2.rst with phase := .wiping, phaseAt := L2.now } } else L2)

/-! ### The lane reset order (Table 1.9) and a wake (Table 15.9) -/

/-- The rails are back at a wake and some domain is rising. -/
def Lane.rising (L : Lane) : Bool :=
  L.pwr.sleep == .waking && L.pwr.dom.any (fun p => match p with
    | .rise _ _ _ => true
    | _ => false)

/-- CRYSTAL_VALID (Table 1.9): the wipe of 0.72 ms is complete and the 40 MHz clock valid; the PLLs run, level 0. At a wake the
memories are checked instead (Table 15.9). -/
def execCrystalValid (l : LaneId) (s : State) : Out :=
  s.on l (fun L => (L.rst.phase == .wiping && L.since L.rst.phaseAt 144000) || (L.rst.phase == .parked && L.rising)) (fun L =>
    { (L.put F.CLK_LEVEL_CUR 0) with
      rst := { L.rst with phase := .clocked, phaseAt := L.now }
      clk := { L.clk with xtalOk := true, pllOn := true } })

/-- HEDGE_LINK_TRAINED (Table 1.9, R62, R65): the link trains after a lane reset, or again after it was down, `up`; the Hedge identity
is copied into SYS. A training that fails during a reset leaves the link down: the identity reads 0, HLNK_DOWN is recorded once, and
the lane stays in lane reset until the link trains. -/
def execHedgeLinkTrained (l : LaneId) (up : Bool) (s : State) : Out :=
  s.on l (fun L => L.rst.phase == .clocked || (L.rst.phase == .running && !L.link.trained)) (fun L =>
    if !up then
      if L.rst.phase == .clocked then
        let L0 := (((L.setReg R.SYS_HD_LOT_0 0).setReg R.SYS_HD_LOT_1 0).setReg R.SYS_HD_POS 0).setReg R.SYS_HD_STEP 0
        if L0.link.downLine then L0 else (L0.note Ev.HLNK_HLNK_DOWN).onLink (fun k => { k with downLine := true })
      else L
    else
    let L1 := ((((L.setReg R.SYS_HD_LOT_0 (L.link.ident.getD 0 0).toNat).setReg R.SYS_HD_LOT_1 (L.link.ident.getD 1 0).toNat).setReg
      R.SYS_HD_POS (L.link.ident.getD 2 0).toNat).setReg R.SYS_HD_STEP (L.link.ident.getD 3 0).toNat)
    { L1 with
      link := { L1.link with trained := true, downLine := false, accesses := [], rsp := none }
      rst := if L.rst.phase == .clocked then { L1.rst with phase := .linked, phaseAt := L1.now } else L1.rst })

/-! ### The kernel at boot -/

/-- The life-cycle state as fuses and record give it (R524). -/
def Lane.bootLc (L : Lane) : Lane :=
  let f := L.get F.SYS_LC_FLOOR
  let st := if f = 0 then 0 else if f = 2 then 4 else L.alm.lcRec
  let L1 := (L.put F.SYS_LC_STATE st).putB F.SYS_LC_DBGOPEN (st != 2)
  if st = 4 then L1.laneStop F.GD_LSTOP_LEGTO else L1

/-- The entries of the seal record written into their registers on one die, unsealed bits kept. -/
def Lane.putSealed (L : Lane) (hedge : Bool) (entries : List (Nat × Word)) : Lane :=
  (sealImage hedge).foldl (fun K e =>
    match entries.find? (fun x => x.1 == e.1) with
    | some x =>
      let m := BitVec.ofNat 32 e.2
      K.wr e.1 ((x.2 &&& m) ||| (K.rd e.1 &&& ~~~m))
    | none => K) L

/-- The Hedge's part of the restore: its entries, the mirror of the logic-die entries, MIRN, SEALREF, CHK and LOCK (R369). -/
def Lane.restoreHedge (L : Lane) (v : Word) (entries : List (Nat × Word)) : Lane :=
  let logic := (sealImage false).filterMap (fun e => entries.find? (fun x => x.1 == e.1))
  let L1 := L.putSealed true entries
  let L2 := logic.zipIdx.foldl (fun (K : Lane) x =>
    (K.setReg R.HSF_MIR x.1.1 0 (2 * x.2)).setReg R.HSF_MIR x.1.2.toNat 0 (2 * x.2 + 1)) L1
  (((L2.put F.HSF_SEALCMD_MIRN logic.length).setReg R.HSF_SEALREF v.toNat).sealNow true).hsealLock

/-- NOVOTE set because the sealed state could not be restored; SAF records SEAL_MISMATCH (R369). -/
def Lane.sealRefused (L : Lane) : Lane := ((L.put F.TRIO_MODE_NOVOTE 1).note Ev.SAF_SEAL_MISMATCH).showNovote

/-- The sealed state restored from the seal record in FIELD and SERVICE (R369). -/
def Lane.restoreSeal (L : Lane) : Lane :=
  let st := L.get F.SYS_LC_STATE
  if st ≠ 2 ∧ st ≠ 3 then L
  else
    match (L.alm.sealRec.filterMap sealParse).head? with     -- the first valid copy (R516)
    | none => L.sealRefused
    | some (v, entries) =>
        let L1 := L.putSealed false entries
        let L2 := if L1.is F.HSF_SEALCMD_LOCKED then L1 else L1.restoreHedge v entries
        let L3 := (L2.setReg R.SAF_SEALREF v.toNat).sealNow false
        let L4 := if L3.is F.SAF_SEALCTL_LOCKED then L3 else L3.sealLock
        if L4.is F.HSF_SEALCMD_LOCKED && L4.is F.SAF_SEALCTL_LOCKED then L4
        else (L4.put F.TRIO_MODE_NOVOTE 1).showNovote

/-- A domain powered for the boot, unless a failed raise has pruned its elements (log 37). -/
def Lane.bootDom (L : Lane) (d : Nat) : Lane :=
  if !(domElems d).isEmpty && (domElems d).all L.pruned then L
  else ((L.domState d 2).setDom d .stable).wakeEvents d

/-- The counts of a drive cycle begun anew (R381, R526, Table 2.8): DCYC counts the wake, HELD bits clear. -/
def Lane.newDriveCycle (L : Lane) : Lane :=
  let L1 := ((((L.almInc 0x00C 4).setReg R.BIST_HELD_0 0).setReg R.BIST_HELD_1 0).put F.SYS_LC_AFAIL 0).put F.SYS_LC_AFLOCK 0
  let L2 := (L1.put F.OZL_GRAFT_ATTEMPTS 0).put F.TRIO_INJ_CHK 0
  ((L2.onOzl (fun o => { o with chkFaults := 0 })).onHsf (fun h => { h with sealLost := 0 })).onAlm (fun a => { a with calSet := false })

/-- A module of a pair starts as STANDBY until R111 gives it ACTIVE. -/
def Lane.pairStart (L : Lane) : Lane := L.putB F.OZL_PAIR_ROLE (!L.is F.OZL_PAIR_PAIRED)

/-- The Henpa kernel released: life-cycle state, live record, domains and votes, the sealed state, the lane in GRAFT before forming,
its reference check of forming asked for. `wake` says that this is the start of Table 15.9, not a reset. -/
def Lane.kernelStart (L : Lane) (wake : Bool) (app : List PmpEntry) : Lane :=
  let powerOn := !L.alm.loaded
  let L1 := { L with
    rst := { L.rst with phase := .running, phaseAt := L.now }
    trio := { L.trio with injAt := L.now, svcInjAt := L.now } }.bootLc
  let L2 := if powerOn then L1.almLoad else if wake then L1.newDriveCycle else L1
  let L3 := if wake then (L2.putB F.PWR_WAKE_WARM (L2.reg R.PWR_RETLOST == 0)).onPwr (fun w => { w with sleep := .awake }) else L2
  let st := L3.get F.SYS_LC_STATE
  let L4 := (if wake && st != 2 && st != 3 then kernelDoms else domOrder).foldl Lane.bootDom L3
  let L5 := L4.restoreSeal.pairStart
  let L6 := logicBlks.foldl (fun K b => (List.range b.2).foldl (fun M n => M.keepPruned b.1 n) K) L5
  let L7 := if L6.own == 4 && !wake then L6
    else (((L6.setStOf L6.strap 0).put F.OZL_GRAFT_PHASE 0).setMembers 0).onOzl (fun o => { o with
      readyAt := none, refPass := 0, odiagDone := 0, bootBad := false })
  (((L7.pmpBoot app).kernelVotes.onPwr (fun w => { w with woke := false })).refAsk 0xFF 5000 .forming).showNovote

/-- KERNEL_RELEASE (Table 1.9, Table 15.9): the boot ROM checks the kernel image and releases the trio. With a bad image the trio is
not released. `app` are the PMP entries of the application image header, whose layout the spec does not state (R145). At a wake the TRIO domain's memories are ready first. -/
def execKernelRelease (l : LaneId) (imageOk : Bool) (app : List PmpEntry) (s : State) : Out :=
  s.on l (fun L => L.rst.phase == .linked && imageOk && (L.pwr.sleep != .waking || (match L.domPhase 1 with
      | .rise step _ _ => step == 4
      | _ => L.domOn 1))) (fun L => L.kernelStart (L.pwr.sleep == .waking) app)

/-! ### The restart after a life-cycle transition (R527) -/

/-- The lane restarted as R390 states, in GRAFT before forming: its peers restart with it. -/
def Lane.lcRestart (L : Lane) : Lane :=
  ((L.fallowBoot.put F.OZL_GRAFT_PHASE 0).setMembers 0).refAsk 0xFF 5000 .forming

end Sys2Proof.Machine
end

