-- ==== Sys2Proof/Machine/Own.lean ====
section
/-!
DEFINITION. Machine/Own.lean: a whole register write, as a master's store, a WR transfer or a CFG_WRITE carries it: the fields by their
access codes (BusOps) and then the fields whose write is a command of its own, each by the meaning of that command; the element reset of
a block; and a whole register read with what it leaves behind. A voltage measured at such a write, and the payload of a twin-path frame,
whose place the spec does not state, are free values (logs 4, 33).
-/

namespace Sys2Proof.Machine

/-- The meaning run on a state, the state kept where it answers none. -/
def State.ran (s : State) (f : State → Out) : State :=
  match f s with
  | .next t => t
  | _ => s

/-- A meaning run where a condition holds. -/
def State.ranIf (s : State) (c : Bool) (f : State → Out) : State := if c then s.ran f else s

/-- Index of an offset in a family of registers `stride` apart. -/
def regIdx (r : Reg) (off : Nat) : Nat := (off - r.off) / r.stride

/-- The offset is one of a family of `m` registers. -/
def isReg (r : Reg) (m off : Nat) : Bool :=
  decide (r.off ≤ off) && (if r.stride = 0 then off == r.off else (off - r.off) % r.stride == 0 && decide ((off - r.off) / r.stride < m))

/-! ### The element reset of a block (R51, R52, R307) -/

/-- A block that drives a bridge or takes part in the vote (R52). -/
def guarded (b : Blk) : Bool := b.isHedge || b == .drv || b == .loop || b == .ozl || b == .saf

/-- An element reset of a block instance is ignored now (R52, R307). -/
def Lane.srstRefused (L : Lane) (b : Blk) (n : Nat) : Bool :=
  let e := L.estate b n
  (guarded b && e != 0 && e != 2) || (b == .cnv && !L.drvIdle (n / 2) && e != 2 && e != 3)

/-- BIST ignores SRST while a slice or a fallow runs (11). -/
def Lane.bistBusy (L : Lane) : Bool := L.test.slice.isSome || L.test.fallowAt.isSome

/-- A write of 1 to CTL.SRST: the element reset, or SRST_REFUSED; in a domain that is not ON a bus error. -/
def Lane.srst (L : Lane) (b : Blk) (n : Nat) : Lane :=
  if !L.blkPowered b then L.busErr
  else if b == .bist && L.bistBusy then L
  else if L.srstRefused b n then L.note (Ev.SRST_REFUSED b) n
  else (L.blockReset b n).note (Ev.SRST_DONE b) n

/-! ### Register writes -/

/-- A meaning that needs a number the spec ties to a measurement, run with a free one (log 4). -/
def State.ranFree (s : State) (c : Bool) (f : Nat → State → Out) : State :=
  if c then (s.draw.2).ran (f (Config.freeNat s.draw.1)) else s

/-- Free bytes, at most `m` of them (log 33). -/
def State.freeBytes (s : State) (m : Nat) : List Byte × State :=
  ((List.range (Config.freeNat s.free % (m + 1))).map (fun i => BitVec.ofNat 8 (Config.freeNat (s.free + 1 + i))),
    { s with free := s.free + m + 2 })

/-- PREQ_CMD by its command (Table 15.6). -/
def execPreqCmd (l : LaneId) (val : Word) (s : State) : Out :=
  let rail := BitVec.ofNat 4 (bits val.toNat 4 4)
  let v := BitVec.ofNat 12 (bits val.toNat 8 12)
  s.on l Lane.up (fun L => L.preqWrite (bits val.toNat 0 4) rail v)

/-- A DID entry's EN written with its word 0 (R451): the word's other fields first, so that an enable judges what was written. -/
def State.ownTwpMem (s : State) (l : LaneId) (off v : Nat) : State :=
  let i := (off - 0x1000) / 0x20
  s.ranIf (decide (0x1000 ≤ off) && decide (off < 0x1800) && off % 0x20 == 0 && ((s.lane l).dg i 0 16 1 == 1) != bit v 16)
    (execDidEnable l (Fin.ofNat 64 i) (bit v 16))

/-- The fields of a logic-die register whose write is a command of its own. -/
def State.ownLogic (s : State) (l : LaneId) (m : Master) (b : Blk) (n off : Nat) (val : Word) : State :=
  let v := val.toNat
  if off = 4 then
    let s1 := if bit v 0 then s.upd l (fun L => L.srst b n) else s
    s1.ranIf (bit v 1) (execEvqClr l b n)
  else match b with
  | .sys => s.ranIf (off == R.SYS_RSTREQ.off) (execSysRstreq l val)
  | .pwr =>
    if off = R.PWR_VOTE.off then s.ran (execPwrVote l m val) else s.ranIf (off == R.PWR_SLEEP.off && bit v 0) (execSleepReq l none)
  | .clk => s.ranIf (off == R.CLK_LEVEL.off) (execClkLevelReq l (BitVec.ofNat 2 v))
  | .trio =>
    if off = R.TRIO_SPLIT.off then
      if bit v 0 && bit v 1 then s.upd l Lane.busErr
      else if bit v 1 then s.ran (execTrioSplitJoin l)
      else s.ranIf (bit v 0) (if bit v 2 then execTrioSplitAll l else execTrioSplitReq l)
    else s
  | .cmdq =>
    if isReg R.CMDQ_RING_POST 4 off then
      s.ran (execPost l m (Fin.ofNat 4 (regIdx R.CMDQ_RING_POST off)) (bits v 0 6))
    else s.ranIf (off == R.CMDQ_CPL_HEAD.off) (execCplHeadWrite l (BitVec.ofNat 8 v))
  | .saf =>
    if off = R.SAF_SEALCTL.off then
      (s.ranIf (bit v 0) (execSealChk l)).ranIf (bit v 1) (execSealLock l (BitVec.ofNat 16 (bits v 16 16)))
    else s
  | .cnv =>
    let k : Fin 8 := Fin.ofNat 8 n
    let seq (inj : Bool) (en : Fld) (go : LaneId → Fin 8 → State → Out) :=
      (s.ranIf ((s.lane l).is en n != bit v 18) (execSequenceEnable l k inj (bit v 18))).ranIf (bit v 17) (go l k)
    if off = R.CNV_RSEQ.off then seq false F.CNV_RSEQ_EN execRseqGo
    else if off = R.CNV_ISEQ.off then seq true F.CNV_ISEQ_EN execIseqGo
    else s.ranIf (off == R.CNV_CAL_GO.off && bit v 0) (execCalGo l k)
  | .cnvSq => s.ranIf (off == R.CNV_SQ_REFCHK.off && bit v 24) (execRefchkGo l)
  | .loop =>
    s.ranIf (isReg R.LOOP_PRG_SRC 8 off && bit v 28) (execResel l (Fin.ofNat 4 n) (Fin.ofNat 8 (regIdx R.LOOP_PRG_SRC off)))
  | .drv => s.ranIf (off == R.DRV_MODE.off && bit v 8) (execRearm l (Fin.ofNat 4 n))
  | .pos =>
    let L := s.lane l
    let en (c : Nat) := s.ranIf (L.chanOn c != bit v 0) (execPosChannelEnable l (Fin.ofNat 10 c) (bit v 0))
    if isReg R.POS_ENC_CFG 4 off then en (regIdx R.POS_ENC_CFG off)
    else if isReg R.POS_RES_CFG 2 off then en (4 + regIdx R.POS_RES_CFG off)
    else if isReg R.POS_SENT_CFG 4 off then en (6 + regIdx R.POS_SENT_CFG off)
    else
      let d := (off - R.POS_CMP_TGT.off) % R.POS_CMP_TGT.stride
      let q := (off - R.POS_CMP_TGT.off) / R.POS_CMP_TGT.stride
      s.ranIf (decide (R.POS_CMP_TGT.off ≤ off) && decide (q < 10) && decide (d < 0x20) && (d % 0x10 == 0 || d % 0x10 == 4))
        (execCmpTgtWrite l (Fin.ofNat 10 q) (Fin.ofNat 2 (d / 0x10)) (d % 0x10 == 4) val)
  | .bist =>
    s.ranIf (off == R.BIST_SLICE.off && bit v 12) (execSliceGo l (BitVec.ofNat 4 v) (BitVec.ofNat 4 (bits v 8 4)))
  | .alm =>
    if off = R.ALM_CTL.off then (s.ranIf (bit v 0) (execSnap l)).ranIf (bit v 1) (execAlmWrite l)
    else s.ranIf (off == R.ALM_CALSET.off) (execCalset l val)
  | .can =>
    let k : Fin 4 := Fin.ofNat 4 n
    if off = R.CAN_MODE.off then s.ranIf ((s.lane l).is F.CAN_MODE_EN n != bit v 0) (execCanEnable l k (bit v 0))
    else if off = R.CAN_ERR.off then s.ranIf (bit v 24) (execRecover l k)
    else if isReg R.CAN_TXRQ 4 off then s.ran (execTxrq l k (Fin.ofNat 4 (regIdx R.CAN_TXRQ off)) val)
    else s.ranIf (isReg R.CAN_TXCAN 4 off) (execTxcan l k (Fin.ofNat 4 (regIdx R.CAN_TXCAN off)) val)
  | .flx =>
    if off = R.FLX_CTL.off then
      (s.ranIf ((s.lane l).is F.FLX_CTL_EN != bit v 0) (execFlxEnable l (bit v 0))).ranIf (bit v 9) (execWaketx l)
    else s.ranIf (isReg R.FLX_TXRQ 4 off) (execFlxTxrq l (Fin.ofNat 4 (regIdx R.FLX_TXRQ off)) val)
  | .eth => s.ranIf (isReg R.ETH_QBV 3 off && bit v 1) (execQbvSwap l (Fin.ofNat 3 (regIdx R.ETH_QBV off)))
  | .twp =>
    if off = R.TWP_TXREQ.off then
      let e : Fin 64 := Fin.ofNat 64 v
      let p := s.freeBytes ((s.lane l).dg e.val 4 16 11)
      p.2.ran (execTwpTxreq l e p.1)
    else if off = R.TWP_RXQ.off then s.ranIf (bit v 14) (execRxqPop l)
    else s.ownTwpMem l off v
  | .preq => s.ranIf (off == R.PREQ_CMD.off) (execPreqCmd l val)
  | .ozl => if off = R.OZL_PAIR.off then s.upd l Lane.pairWritten else s
  | _ => s

/-- The same for a Hedge register. -/
def State.ownHedge (s : State) (l : LaneId) (m : Master) (b : Blk) (off : Nat) (val : Word) : State :=
  let v := val.toNat
  if off = 4 then
    let s1 := if bit v 0 then s.upd l (fun L => L.srst b 0) else s
    s1.ranIf (bit v 1) (execEvqClr l b 0)
  else match b with
  | .sdl => s.ranIf (off == R.SDL_XINH.off && bit v 4) (execSdlXinhStoppedClear l)
  | .gd =>
    if off = R.GD_DTFUSE.off then s.ranFree true (fun mv => execDtFuse l m val mv)
    else if off = R.GD_LSTOP.off then s.ranIf (bit v 16) (execLstopClr l)
    else if off = R.GD_STO.off then s.ranIf (bits v 12 4 != 0) (execIlkRelease l (BitVec.ofNat 4 (bits v 12 4)))
    else s.ranIf (off == R.GD_ALIVE.off) (execAliveKick l (BitVec.ofNat 16 v))
  | .prot =>
    if off = R.PROT_ODIAG.off then
      s.ranFree (bits v 0 5 != 0) (fun mv => execOdiagWrite l (BitVec.ofNat 4 v) (bit v 4) mv)
    else s.ranIf (off == R.PROT_LATCH.off && bits v 0 4 != 0) (execLatchRelease l (BitVec.ofNat 4 v))
  | .hsf =>
    if off = R.HSF_STO.off then s.ran (execHsfStoRel l (BitVec.ofNat 4 v) (BitVec.ofNat 4 (bits v 4 4)))
    else if off = R.HSF_SEALCMD.off then (s.ranIf (bit v 0) (execHsealChk l)).ranIf (bit v 1) (execHsealLock l)
    else s
  | .ths => s.ranFree (off == R.THS_TDFUSE.off) (fun mv => execTdFuse l m val mv)
  | _ => s

/-- A whole register write of a master inside the lane map. -/
def State.regWriteAll (s : State) (l : LaneId) (m : Master) (a : Nat) (val : Word) : State :=
  let s1 := s.upd l (fun L => L.regWrite a val)
  match blockAt a with
  | some (b, n, off) => if b.isHedge then s1.ownHedge l m b off val else s1.ownLogic l m b n off val
  | none => s1

/-- A store of a master to an aligned word (R11, R46, R146): what the fabric does with it, and in a logic-die block the fields whose
write is a command of its own. A store to the Hedge window goes to the link, where WR carries it out. -/
def State.storeNow (s : State) (l : LaneId) (m : Master) (a : Nat) (val : Word) : State :=
  let L := s.lane l
  let s1 := s.upd l (fun K => K.busWrite m a val)
  match blockAt a with
  | some (b, n, off) =>
    if a % 4 = 0 ∧ !b.isHedge ∧ (aonReg a || L.blkPowered b) ∧ !(L.blkIsolated b n && decide (0x40 ≤ off)) then
      s1.ownLogic l m b n off val
    else s1
  | none => s1

/-- A write to PRG_m_SP, KVAL_i or a descriptor field that completes in the cycle of the snapshot, which has yet to be taken: its
engine (R193). -/
def Lane.loopLate (L : Lane) (a : Nat) : Option Nat :=
  if L.atBoundary && L.ozl.lastBound != some L.mtN && L.blkPowered .loop then
    match blockAt a with
    | some (.loop, n, off) =>
      if a % 4 = 0 ∧ ((R.LOOP_KVAL.off ≤ off ∧ off < R.LOOP_KVAL.off + 32) ∨ (0x100 ≤ off ∧ off < 0x300)) ∧ !L.blkIsolated .loop n
      then some n else none
    | _ => none
  else none

/-- A store of a master (R11, R46, R146); one that R193 holds back is carried out behind the snapshot. -/
def State.store (s : State) (l : LaneId) (m : Master) (a : Nat) (val : Word) : State :=
  match (s.lane l).loopLate a with
  | some n => s.upd l (fun K => K.onEng n (fun e => { e with late := e.late ++ [(a, val)] }))
  | none => s.storeNow l m a val

/-- The writes that R193 held back, carried out once the snapshot is taken. -/
def State.loopFlush (s : State) (l : LaneId) : State :=
  let ws := (s.lane l).loops.flatMap (fun e => e.late)
  if ws.isEmpty then s
  else ws.foldl (fun t w => t.storeNow l .trioM w.1 w.2)
    (s.upd l (fun K => [0, 1, 2, 3].foldl (fun J n => J.onEng n (fun e => { e with late := [] })) K))

/-! ### Register reads -/

/-- The meaning of a read that has a command of its own, at an offset of a block instance. -/
def readOwn (l : LaneId) (m : Master) (b : Blk) (n off : Nat) : Option (State → Out) :=
  if 0x20 ≤ off ∧ off < 0x30 ∧ off % 4 = 0 then some (execEvqRead l m b n (Fin.ofNat 4 ((off - 0x20) / 4)))
  else match b with
  | .clk => if off = R.CLK_MT_LO.off then some (execClkMtLoRead l m) else none
  | .cmdq => if isReg R.CMDQ_RING_ALLOC 4 off then some (execAlloc l m (Fin.ofNat 4 (regIdx R.CMDQ_RING_ALLOC off))) else none
  | .cnv =>
    if isReg R.CNV_RES 16 off then some (execResRead l m (Fin.ofNat 8 n) false (Fin.ofNat 16 (regIdx R.CNV_RES off)))
    else if isReg R.CNV_IRES 4 off then some (execResRead l m (Fin.ofNat 8 n) true (Fin.ofNat 16 (regIdx R.CNV_IRES off)))
    else none
  | .pos =>
    if isReg R.POS_PRB_VAL 2 off then some (execPrbValRead l m (Fin.ofNat 2 (regIdx R.POS_PRB_VAL off)))
    else if isReg R.POS_PRB_T 2 off then some (execPrbTRead l m (Fin.ofNat 2 (regIdx R.POS_PRB_T off)))
    else if isReg R.POS_Q_VAL 14 off then some (execQValRead l m (Fin.ofNat 14 (regIdx R.POS_Q_VAL off)))
    else none
  | .drv => if off = R.DRV_SWCNT_LO.off then some (execSwcntRead l m (Fin.ofNat 4 n)) else none
  | .can =>
    let o := (off - 0x4000) % 0x80
    let k : Fin 128 := Fin.ofNat 128 ((off - 0x4000) / 0x80)
    if 0x4000 ≤ off ∧ off < 0x8000 then
      if o = 0 then some (execObjLockRead l (Fin.ofNat 4 n) k m) else if o = 0x7C then some (execObjUnlockRead l (Fin.ofNat 4 n) k m) else none
    else none
  | .flx =>
    let o := (off - 0x4000) % 0x10
    let k : Fin 128 := Fin.ofNat 128 ((off - 0x4000) / 0x10)
    if 0x4000 ≤ off ∧ off < 0x4800 then
      if o = 8 then some (execFlxLockRead l k m) else if o = 0xC then some (execFlxUnlockRead l k m) else none
    else none
  | _ => none

/-- A read that reaches a protected memory finds a poisoned word (R397). -/
def Lane.readsPoison (L : Lane) (a : Nat) : Bool :=
  a % 4 == 0 && L.poisoned a && (if inMemory a then L.domOn (memDom a)
    else match blockAt a with
    | some (b, n, _) => inBlkMem b n a && L.blkPowered b
    | none => false)

/-- A read of a master at an aligned word, with what the read leaves behind: the word, or none for a bus error. -/
def State.load (s : State) (l : LaneId) (m : Master) (a : Nat) : Option Nat × State :=
  match (s.lane l).busRead a, blockAt a with
  | some v, some (b, n, off) =>
    match readOwn l m b n off with
    | some f => let t := s.ran f; (some (t.lane l).cmdq.busData.toNat, t)
    | none => (some v, s)
  | none, _ => (none, if (s.lane l).readsPoison a then s.readUe l a else s)
  | v, _ => (v, s)

/-- Reads in order. -/
def State.loadAll (s : State) (l : LaneId) (m : Master) : List Nat → List (Option Nat) × State
  | [] => ([], s)
  | a :: rest =>
    let r := s.load l m a
    let t := r.2.loadAll l m rest
    (r.1 :: t.1, t.2)

end Sys2Proof.Machine
end

