-- ==== Sys2Proof/Machine/TrellisOps.lean ====
section
/-!
DEFINITION. Machine/TrellisOps.lean: what the Trellis opcodes share: whose turn it is (R159, R175), scopes (R163, R168), envelopes
(R106, R107, R176), trajectories (Table 4.6), bridge states (Table 4.7), conflicts (Table 4.11), the arming of SDI (R350), and
what the kernel does for the actuators at a vote boundary.
-/

namespace Sys2Proof.Machine

/-! ### Parameters, turns and scopes -/

/-- An unsigned little-endian parameter field. -/
def TCmd.u (c : TCmd) (off n : Nat) : Nat := fieldLE c.params off n

/-- A signed 32-bit parameter. -/
def TCmd.i32 (c : TCmd) (off : Nat) : Int := fieldLES c.params off 4

/-- The actuator counted from 0. -/
def TCmd.actI (c : TCmd) : Nat := c.act - 1

/-- The same outstanding command. -/
def TCmd.same (c d : TCmd) : Bool := d.tag == c.tag && d.net == c.net

/-- An immediate opcode (R160). -/
def immediate (op : Nat) : Bool :=
  match opRow op with
  | some r => r.imm
  | none => false

/-- The command acts now: an immediate one at intake, any other as the first admitted one that has not acted (R159, R175). -/
def Lane.turnOf (L : Lane) (c : TCmd) : Bool :=
  immediate c.op || (match L.cmdq.queue.find? (fun d => d.phase == .admitted && !immediate d.op) with
    | some d => c.same d
    | none => false)

/-- An opcode row: the command with the tag acts on lane `l` when it is its turn. -/
def trellis (l : LaneId) (tag : Half) (net : Bool) (op : Nat) (f : TCmd → State → State) (s : State) : Out :=
  match (s.lane l).cmd tag net with
  | some c => .next (if (s.lane l).up && c.op == op && c.phase == .admitted && (s.lane l).turnOf c then f c s else s)
  | none => .next s

/-- The status a named lane brings that is not ACTIVE (R168, log 28). -/
def Lane.absentStatus (L : Lane) : Nat := if L.own = 4 then St.RESOURCE_PRUNED else St.NOT_IN_STATE

/-- A module-scope opcode: it runs in every member lane (R163), elsewhere it ends. -/
def trellisM (l : LaneId) (tag : Half) (net : Bool) (op : Nat) (f : TCmd → State → State) (s : State) : Out :=
  trellis l tag net op (fun c s => if (s.lane l).active then f c s else s.upd l (fun L => L.finish c L.absentStatus)) s

/-- A lane- or single-scope opcode that needs an ACTIVE lane (R168). -/
def trellisL (l : LaneId) (tag : Half) (net : Bool) (op : Nat) (f : TCmd → State → State) (s : State) : Out :=
  trellis l tag net op (fun c s => if (s.lane l).active then f c s else s.conclude l c (s.lane l).absentStatus) s

/-! ### Levels and envelopes (R106, R107, R176, R353) -/

/-- The bridge of a lane drives its winding set: in service, not latched, with a converter of its pair left to measure it (R107,
R109). -/
def Lane.bridgeServes (L : Lane) (a : Nat) : Bool :=
  !L.outOfService (.drv a) && !L.fbit F.PROT_LATCH_LATCH a && !(L.outOfService (.cnv (2 * a)) && L.outOfService (.cnv (2 * a + 1)))

/-- Lane `x` has a winding set of the actuator: bridge 3 of lane C is unused where it drives the parking lock (Table 0.2). -/
def Lane.hasWinding (L : Lane) (x : LaneId) (a : Nat) : Bool := L.kindOf a != 3 || x != .c

/-- The members whose winding set of an actuator is in service, as lane `l` hears of them. -/
def State.servers (s : State) (l : LaneId) (a : Nat) : List LaneId :=
  LaneId.all.filter (fun x => (s.lane l).isMember x && reaches s x l && (s.lane l).hasWinding x a && (s.lane x).bridgeServes a)

/-- The actuator level: winding sets driven by member lanes through bridges in service. -/
def State.actLevel (s : State) (l : LaneId) (a : Nat) : Nat := (s.servers l a).length

/-- The level whose envelope an actuator runs in; a LOCK actuator runs fully on either winding set. -/
def State.envLevel (s : State) (l : LaneId) (a : Nat) : Nat :=
  let m := (s.lane l).get F.OZL_LSTATE_LEVEL
  max 1 (if (s.lane l).kindOf a = 3 then m else min m (s.actLevel l a))

/-- The steering angles allowed at a level: the SLA window, at L1 the L1 window. -/
def Lane.angleWindow (L : Lane) (lv : Nat) : Int × Int :=
  let a := L.angleOf (L.getS (if lv = 1 then F.SAF_L1_LO_POS else F.SAF_SLA_LO_POS))
  let b := L.angleOf (L.getS (if lv = 1 then F.SAF_L1_HI_POS else F.SAF_SLA_HI_POS))
  (min a b, max a b)

/-- The greatest steering rate in mdeg/s at a level: the SLR limit as an angle rate; the L1 rate while a quantity is unavailable. -/
def Lane.maxRate (L : Lane) (a lv : Nat) : Nat :=
  let lim := slrLimit (L.get F.SAF_SLR_RMAX) (if L.fbit F.SAF_VIOL_UNAV a then 1 else lv)
  let r := (L.getS F.SAF_RATIO_RATIO).natAbs
  if r = 0 then (Config.divZero lim).natAbs else lim * 65536 / r

/-- The most of a torque (`unit` 3) or force (2) that an actuator may be asked for at a level: thirds of the full torque (Table 2.12). -/
def edgeOf (a unit lv : Nat) : Nat :=
  let t := Config.fullTorque a * lv / 3
  if unit = 2 then Config.forceOf a t else t

/-! ### Trajectories (Table 4.6): the set-point moves once a vote period, in 1/1,000 of its unit -/

/-- What an actuator's set-point is of: 1 an angle, 2 a force, 3 a torque, 0 nothing yet. -/
def unitOf (kind : TrajKind) (actKind : Nat) : Nat :=
  match kind with
  | .angle => 1
  | .force | .release | .brakeHold => 2
  | .torque => 3
  | .hold => if actKind = 2 then 2 else 1
  | _ => 0

/-- The set-point a trajectory starts from: the present one, or the measured value where that is of another quantity; a torque
starts from 0. -/
def Lane.startPoint (L : Lane) (a unit : Nat) : Int :=
  if unitOf (L.act a).kind (L.kindOf a) = unit then (L.act a).setpoint
  else if unit = 3 then 0
  else L.measured a

/-- Step per period of a rate in units per second. -/
def Lane.rateStep (L : Lane) (rate : Nat) : Nat := rate * L.period / 1000

/-- Step per period of a ramp over `d` in `us` microseconds; a ramp of 0 us is made at once. -/
def Lane.rampStep (L : Lane) (d us : Nat) : Nat := if us = 0 then d * 1000 else (d * 1000 * L.period + us - 1) / us

/-- A trajectory begun. -/
def Lane.beginTraj (L : Lane) (a : Nat) (kind : TrajKind) (start target : Int) (step endAt : Nat) : Lane :=
  L.onAct a (fun t => { t with
    kind := kind, setpoint := start, frac := start * 1000, target := target, step := step, rampEnd := endAt, near := 0 })

/-- One period of a trajectory. -/
def ActSt.move (t : ActSt) : ActSt :=
  let goal := t.target * 1000
  let d := clampI (-(t.step : Int)) t.step (goal - t.frac)
  { t with frac := t.frac + d, setpoint := roundDiv (t.frac + d) 1000 }

/-! ### Commands of one actuator (Tables 4.7 and 4.11) -/

/-- Live commands of an actuator other than `c` that run or are deferred. -/
def Lane.othersOn (L : Lane) (c : TCmd) : List TCmd :=
  L.cmdq.queue.filter (fun d => d.live && !c.same d && d.act == c.act && (d.phase == .running || d.phase == .deferred))

/-- Those of them that `p` names end. -/
def Lane.endOthers (L : Lane) (c : TCmd) (p : TCmd → Bool) (status : Nat) : Lane :=
  ((L.othersOn c).filter p).foldl (fun K d => K.finish d status) L

/-- Motion and clamp commands: STEER_ANGLE, STEER_TORQUE, CLAMP_FORCE, CLAMP_RELEASE, HOLD. -/
def moves (d : TCmd) : Bool := decide (0x10 ≤ d.op) && decide (d.op ≤ 0x14)

/-- ANGLE_ZERO, CALIPER_KISSPOINT, ENCODER_ALIGN. -/
def serves (d : TCmd) : Bool := decide (0x21 ≤ d.op) && decide (d.op ≤ 0x23)

/-- What becomes of a motion or clamp command when it is its turn. -/
inductive Turn where
  | run
  | wait
  | refuse
  deriving DecidableEq, Repr

/-- Tables 4.7 and 4.11 for a motion or clamp command. -/
def Lane.motionTurn (L : Lane) (c : TCmd) : Turn :=
  if (L.othersOn c).any (fun d => serves d || (d.op == 0x14 && d.phase == .running)) then .refuse
  else match (L.act c.actI).bridge with
    | .enabled => .run
    | .enabling => .wait
    | _ => .refuse

/-- STEER_ANGLE starts: the target into the window, the rate to the level's limit (R176). -/
def Lane.startAngle (L : Lane) (lv : Nat) (c : TCmd) : Lane :=
  let a := c.actI
  let w := L.angleWindow lv
  let target := clampI w.1 w.2 (c.i32 0)
  let top := L.maxRate a lv
  let asked := c.u 4 4
  let rate := if asked = 0 then top else min asked top
  let start := L.startPoint a 1
  let time := if rate = 0 then 0 else (target - start).natAbs * 200000000 / rate
  let flags := b2n (decide (top < asked)) + 2 * b2n (target != c.i32 0)
  (L.beginTraj a .angle start target (L.rateStep rate) (L.now + time)).accept { c with limited := flags, planned := L.now + time }

/-- A ramp over a duration starts, its target brought to the edge of the level's envelope (R176). -/
def Lane.startRamp (L : Lane) (lv : Nat) (c : TCmd) (kind : TrajKind) (unit : Nat) (asked : Int) (us : Nat) : Lane :=
  let start := L.startPoint c.actI unit
  let edge : Int := edgeOf c.actI unit lv
  let target := clampI (-edge) edge asked
  (L.beginTraj c.actI kind start target (L.rampStep (target - start).natAbs us) (L.now + 200 * us)).accept
    { c with limited := 2 * b2n (target != asked), planned := L.now + 200 * us }

/-- HOLD with MODE 0: the present set-point, or the measured value, is held with torque; DONE at admission. -/
def Lane.startHold (L : Lane) (c : TCmd) : Lane :=
  let p := L.startPoint c.actI (if L.kindOf c.actI = 2 then 2 else 1)
  let L1 := L.beginTraj c.actI .hold p p 0 L.now
  L1.finish c St.DONE (L1.endResult c)

/-- A motion or clamp command acts on its actuator. -/
def Lane.startMotion (L : Lane) (lv : Nat) (c : TCmd) : Lane :=
  if c.op = 0x10 then L.startAngle lv c
  else if c.op = 0x11 then L.startRamp lv c .torque 3 (c.i32 0) (c.u 4 4)
  else if c.op = 0x12 then L.startRamp lv c .force 2 (c.u 0 4) (c.u 4 4)
  else if c.op = 0x13 then L.startRamp lv c .release 2 0 (c.u 0 4)
  else L.startHold c

/-- HOLD with MODE 1. -/
def TCmd.safeHold (c : TCmd) : Bool := c.op == 0x14 && c.u 0 1 == 1

/-- A later command `d` of the same boundary ends `c`, which has not acted yet, with this status (R175, Tables 4.7 and 4.11). -/
def Lane.endedBy (L : Lane) (c d : TCmd) : Option Nat :=
  let b := (L.act c.actI).bridge
  if moves c && moves d then
    (if c.safeHold || (d.op == 0x14 && (decide (1 < d.u 0 1) || d.u 1 3 != 0)) then none else some St.SUPERSEDED)
  else if (moves c || serves c) && (d.op == 0x16 || d.op == 0x17) then some St.ABORTED
  else if c.op = 0x15 ∧ b = .disabling then (if d.op = 0x16 then some St.SUPERSEDED else none)
  else if c.op = 0x15 ∧ b ≠ .enabled ∧ (d.op = 0x16 ∨ d.op = 0x17) then some St.ABORTED
  else if c.op = 0x16 ∧ b ≠ .disabled ∧ d.op = 0x17 then some St.ABORTED
  else if c.op = 0x17 ∧ b ≠ .asc ∧ (d.op = 0x15 ∨ d.op = 0x16) then some St.ABORTED
  else none

/-- What the first such command of the boundary gives. -/
def Lane.overtaken (L : Lane) (c : TCmd) : Option Nat :=
  (L.cmdq.queue.filter (fun d => d.phase == .admitted && !c.same d && d.act == c.act && d.startAt == c.startAt)).findSome? (L.endedBy c)

/-- A command that a later one of its boundary ends does so without having acted; any other acts (R175). -/
def Lane.unlessOvertaken (L : Lane) (c : TCmd) (acts : Lane) : Lane :=
  match L.overtaken c with
  | some st => L.finish c st
  | none => acts

/-- The actuator's bridge is pruned in every member lane (Table 4.8). -/
def State.bridgesPruned (s : State) (l : LaneId) (a : Nat) : Bool :=
  LaneId.all.all (fun x => !((s.lane l).isMember x && reaches s x l) || (s.lane x).pruned (.drv a))

/-- A motion or clamp command at its admission: earlier ones end SUPERSEDED, then it runs, waits for ENABLED, or ends. -/
def State.admitMotion (s : State) (l : LaneId) (c : TCmd) : State :=
  let lv := s.envLevel l c.actI
  let gone := s.bridgesPruned l c.actI
  s.upd l (fun L =>
    if gone then L.finish c St.RESOURCE_PRUNED
    else
      let K := L.endOthers c moves St.SUPERSEDED
      match L.motionTurn c with
      | .run => K.unlessOvertaken c (K.startMotion lv c)
      | .wait => K.unlessOvertaken c (K.defer c)
      | .refuse => L.finish c St.NOT_IN_STATE)

/-- HOLD with MODE 1: safe brake hold of a CLAMP actuator begins (R356). -/
def Lane.admitBrakeHold (L : Lane) (c : TCmd) : Lane :=
  let a := c.actI
  if L.motionTurn c != .run then L.finish c St.NOT_IN_STATE
  else
    let L1 := L.endOthers c moves St.SUPERSEDED
    let f := L1.measured a
    L1.unlessOvertaken c <| ((L1.onAct a (fun t => { t with setpoint := f, target := f, frac := f * 1000 })).sbhStart a).accept c

/-! ### Bridges (Table 4.7) -/

/-- The processor path lets a bridge go at BRIDGE_ENABLE where no violation of it stands, and the kernel releases the hard-wired
latch it asked for (R354, R355). -/
def Lane.releaseSto (L : Lane) (a : Nat) : Lane :=
  if [0, 1, 2].any (fun fn => (L.saf.conf.getD (safIdx fn a) none).isSome) then L
  else if L.fbit F.SAF_VIOL_STO a then
    let L1 := L.putBit F.SAF_VIOL_STO a false
    if L1.fbit F.HSF_STO_REQ a then L1.hsfRelease a false else L1
  else L

/-- The enable of a bridge begins: safe brake hold ends (R358), the processor STO is released. -/
def Lane.enableBridge (L : Lane) (a : Nat) : Lane :=
  ((L.sbhStop a).onSbh a (fun b => { b with torque := false, creeps := [] })).releaseSto a |>.onAct a (fun t => { t with
    bridge := .enabling, kind := .none, near := 0 })

/-- Lanes of the membership whose bridge is enabled, as a mask (BRIDGE_ENABLE's result). -/
def State.runMask (s : State) (l : LaneId) (a : Nat) : Nat :=
  (LaneId.all.filter (fun x => (s.lane l).isMember x && reaches s x l && (s.lane x).drvState a == 3)).foldl (fun m x => m + 2 ^ x.idx) 0

/-- Every member lane's bridge in service runs, at least one of them. -/
def State.bridgeRuns (s : State) (l : LaneId) (a : Nat) : Bool :=
  s.runMask l a != 0 && (s.servers l a).all (fun x => (s.lane x).drvState a == 3)

/-- BRIDGE_ENABLE at its admission. -/
def State.admitEnable (s : State) (l : LaneId) (c : TCmd) : State :=
  let mask := s.runMask l c.actI
  let gone := s.bridgesPruned l c.actI
  s.upd l (fun L =>
    if gone then L.finish c St.RESOURCE_PRUNED
    else match (L.act c.actI).bridge with
      | .disabled => L.unlessOvertaken c ((L.enableBridge c.actI).accept c)
      | .asc =>
        let K := L.endOthers c (fun d => d.op == 0x17) St.ABORTED
        K.unlessOvertaken c ((K.enableBridge c.actI).accept c)
      | .enabling => L.unlessOvertaken c (L.accept c)
      | .enabled => L.finish c St.DONE [BitVec.ofNat 8 mask]
      | .disabling => L.unlessOvertaken c (L.defer c))

/-- Motion, clamp and service commands of the actuator end ABORTED; HOLD among them (Table 4.11). -/
def Lane.abortMotions (L : Lane) (c : TCmd) : Lane := L.endOthers c (fun d => moves d || serves d) St.ABORTED

/-- BRIDGE_DISABLE at its admission: the torque ramps down, the gates are off one period after the ramp. -/
def Lane.admitDisable (L : Lane) (c : TCmd) : Lane :=
  let a := c.actI
  let L1 := (L.abortMotions c).endOthers c (fun d => d.op == 0x15 && d.phase == .deferred) St.SUPERSEDED
  let L2 := L1.endOthers c (fun d => d.op == 0x15 || d.op == 0x17) St.ABORTED
  match (L.act a).bridge with
  | .disabled => L2.finish c St.DONE
  | .disabling => L2.unlessOvertaken c (L2.accept c)
  | _ =>
    L2.unlessOvertaken c <|
    let us := c.u 0 4
    let start := L2.startPoint a 3
    let L3 := L2.beginTraj a .torque start 0 (L2.rampStep start.natAbs us) (L2.now + 200 * us)
    (L3.onAct a (fun t => { t with bridge := .disabling, disableAt := L3.now + 200 * us + L3.periodT })).accept c

/-- ASC_BRAKE at its admission: active short circuit from the next voted boundary. -/
def Lane.admitAsc (L : Lane) (c : TCmd) : Lane :=
  let a := c.actI
  let L1 := (L.abortMotions c).endOthers c (fun d => d.op == 0x16 || (d.op == 0x15 && d.phase == .running)) St.ABORTED
  match (L.act a).bridge with
  | .asc => L1.finish c St.DONE
  | _ => L1.unlessOvertaken c (((L1.sbhStop a).onAct a (fun t => { t with bridge := .asc, kind := .none })).accept c)

/-! ### SDI (R350) -/

/-- SDI of an actuator armed or disarmed by the kernel in SAF_ARM, and in HSF_ARM for the bridges its decoders watch; the intended
motion increases the position (log 46). -/
def Lane.armSdi (L : Lane) (a : Nat) (on : Bool) : Lane :=
  let L1 := (L.putBit F.SAF_ARM_SDI a on).putBit F.SAF_ARM_DIR a on
  let L2 := if L1.get F.HSF_MAP_E0BR = a then (L1.putB F.HSF_ARM_SDI0 on).putB F.HSF_ARM_SDI0P on else L1
  let L3 := if L2.get F.HSF_MAP_E1BR = a then (L2.putB F.HSF_ARM_SDI1 on).putB F.HSF_ARM_SDI1P on else L2
  L3.onAct a (fun t => { t with armed := on })

/-- A service motion begins under SDI, with the force limit of its search or the current of its alignment. -/
def Lane.startService (L : Lane) (c : TCmd) (kind : TrajKind) (arg : Nat) : Lane :=
  ((L.armSdi c.actI true).onAct c.actI (fun t => { t with kind := kind, service := arg })).accept c

/-! ### Configuration (R173) -/

/-- Count of addresses of a CFG_WRITE or CFG_READ, and its pairs. -/
def TCmd.cfgPairs (c : TCmd) : List (Nat × Word) :=
  (List.range (c.u 0 1)).map (fun i => (c.u (4 + 8 * i) 4, BitVec.ofNat 32 (c.u (8 + 8 * i) 4)))

/-- The addresses of a CFG_READ. -/
def TCmd.cfgAddrs (c : TCmd) : List Nat := (List.range (c.u 0 1)).map (fun i => c.u (4 + 4 * i) 4)

/-- An address CFG_WRITE accepts: aligned, at offset 0x040 or above in a block, a register without a WO field or a block's memory. -/
def cfgAddrOk (a : Nat) : Bool :=
  a % 4 == 0 && match blockAt a with
    | some (b, n, off) => decide (0x40 ≤ off) && (inBlkMem b n a || match findRow b off with
        | some r => r.fields.all (fun f => f.acc != .wo)
        | none => false)
    | none => false

/-- An address CFG_READ accepts: those of R173, and the block's header (Table 4.9). -/
def cfgReadOk (a : Nat) : Bool :=
  cfgAddrOk a || (a % 4 == 0 && match blockAt a with
    | some (_, _, off) => decide (off < 0x40)
    | none => false)

/-- A write would change an RWL field of a block that the Seal has locked. -/
def Lane.cfgLocked (L : Lane) (a : Nat) (val : Word) : Bool :=
  match blockAt a with
  | some (b, n, off) => L.locked b n && !inBlkMem b n a && (match findRow b off with
      | some r => (r.fields.filter (fun f => f.acc == .rwl)).any (fun f => bits val.toNat f.lo f.w != bits (L.rd a).toNat f.lo f.w)
      | none => false)
  | none => false

/-- The block of an address takes a write now: powered, and the Hedge reached over a trained link. -/
def Lane.cfgReach (L : Lane) (a : Nat) : Bool :=
  match blockAt a with
  | some (b, _, _) => if b.isHedge then L.link.trained else aonReg a || L.blkPowered b
  | none => false

/-- The block of an address stands in a weeding slice (R384). -/
def Lane.cfgIsolated (L : Lane) (a : Nat) : Bool :=
  match blockAt a with
  | some (b, n, _) => L.blkIsolated b n
  | none => false

/-- A CFG_WRITE waits: a SEAL_CONFIRM runs (R367) or a block it addresses is ISOLATED (R384). -/
def Lane.cfgWaits (L : Lane) (c : TCmd) : Bool :=
  L.cmdq.queue.any (fun d => d.live && d.op == 0x52 && d.phase == .running) || c.cfgPairs.any (fun p => L.cfgIsolated p.1)

/-- One write of a CFG_WRITE. -/
def State.cfgOne (s : State) (l : LaneId) (p : Nat × Word) : State :=
  match blockAt p.1 with
  | some (b, _, _) => if b.isHedge then s.regWriteAll l .trioM p.1 p.2 else s.store l .trioM p.1 p.2
  | none => s

/-- The writes of a CFG_WRITE applied all together or none (R173); a block that cannot be reached ends it NOT_IN_STATE (log 47). -/
def State.cfgApply (s : State) (l : LaneId) (c : TCmd) : State :=
  let L := s.lane l
  let ps := c.cfgPairs
  if !ps.all (fun p => cfgAddrOk p.1) then s.conclude l c St.BAD_PARAM
  else if ps.any (fun p => L.cfgLocked p.1 p.2) then s.conclude l c St.LOCKED
  else if !ps.all (fun p => L.cfgReach p.1) then s.conclude l c St.NOT_IN_STATE
  else (ps.foldl (fun t p => t.cfgOne l p) s).conclude l c St.DONE

/-! ### Starts shared by admission and DEFERRED_START -/

/-- Converters of a mask. -/
def convsOf (m : Nat) : List Nat := (List.range 8).filter (fun n => bit m n)

/-- Calibrations of a CNV_SELFCAL that may be asked for now: one of each pair at a time, the lower first (R303). -/
def Lane.calAdvance (L : Lane) (c : TCmd) : Lane × Nat :=
  (convsOf (c.u 0 1)).foldl (fun (r : Lane × Nat) n =>
    if bit r.2 n || (r.1.cnv (partner n)).calAt.isSome then r
    else if r.1.pruned (.cnv n) then (r.1, r.2 + 2 ^ n) else ((r.1.calStart n).1, r.2 + 2 ^ n)) (L, c.limited)

/-- Every calibration of a CNV_SELFCAL has been asked for and none runs. -/
def Lane.calComplete (L : Lane) (c : TCmd) : Bool :=
  (convsOf (c.u 0 1)).all (fun n => bit c.limited n && (L.cnv n).calAt.isNone)

/-- Masks of the converters whose calibration passed, and of the others: failed, refused (R306) or pruned. -/
def Lane.calMasks (L : Lane) (c : TCmd) : List Byte :=
  let pass (n : Nat) := L.get F.CNV_CAL_STAT_RESULT n == 1 && !L.pruned (.cnv n)
  let m (b : Bool) := ((convsOf (c.u 0 1)).filter (fun n => pass n == b)).foldl (fun x n => x + 2 ^ n) 0
  [BitVec.ofNat 8 (m true), BitVec.ofNat 8 (m false)]

/-- Bridges of an OFFSTATE_DIAG: the actuator's, or all four. -/
def TCmd.odMask (c : TCmd) : Nat := if c.act = 0 then 0xF else 2 ^ c.actI

/-- Those of them in service: a pruned bridge is not tested (R168). -/
def Lane.odLive (L : Lane) (c : TCmd) : Nat :=
  ([0, 1, 2, 3].filter (fun b => bit c.odMask b && !L.pruned (.drv b))).foldl (fun m b => m + 2 ^ b) 0

/-- The result bytes of an OFFSTATE_DIAG; bit 3, not run, of a pruned bridge. -/
def Lane.odBytes (L : Lane) (c : TCmd) : List Byte :=
  [0, 1, 2, 3].map (fun b =>
    if bit (L.odLive c) b then BitVec.ofNat 8 (L.get (F.PROT_ODIAG_RES_0.nth 4 b)) else if bit c.odMask b then 8 else 0)

/-- A weeding slice for a WEED_SLICE begins, or the command waits for its cover. -/
def State.startSlice (s : State) (l : LaneId) (c : TCmd) (e : Elem) : State :=
  if sliceReady s l e then s.upd l (fun L => (L.chooseSlice e false (some (c.tag, c.net))).accept c)
  else s.upd l (fun L => L.defer c)

/-- A fallow for a FALLOW_REQUEST announced, or the command waits for the fallow conditions (R95). -/
def State.startFallow (s : State) (l : LaneId) (c : TCmd) : State :=
  if s.fallowOk l then (s.announceLeave l 2).upd l (fun L => L.accept c)
  else s.upd l (fun L => L.defer c)

/-- POWER_VOTE: the vote of client 3 placed; DONE once the domain has reached at least the voted state (R472). -/
def Lane.domReached (L : Lane) (d st : Nat) : Bool :=
  let now := L.get F.PWR_D_STAT_STATE 0 d
  (match L.domPhase d with
    | .stable => decide (st ≤ now)
    | _ => false)

/-- The drop of a domain is past its regulator request (R474). -/
def Lane.dropLate (L : Lane) (d : Nat) : Bool :=
  match L.domPhase d with
  | .drop step _ _ => decide (4 ≤ step)
  | _ => false

/-! ### The kernel at a vote boundary -/

/-- Measured value and arrival count of an actuator at a boundary. -/
def Lane.watchAct (L : Lane) (a : Nat) : Lane :=
  let m := L.measured a
  let t := L.act a
  let tol := L.get (if t.kind = .angle then F.CMDQ_TOL_ANGLE else F.CMDQ_TOL_FORCE)
  let inside := (t.kind == .angle || t.kind == .force) && decide ((m - t.target).natAbs ≤ tol)
  L.onAct a (fun t => { t with measured := m, near := if inside then satU 5 (t.near + 1) else 0 })

/-- The command that moves an actuator marked as limited (R176). -/
def Lane.flagMotion (L : Lane) (a flags : Nat) : Lane :=
  if flags = 0 then L
  else L.onCmdq (fun q => { q with queue := q.queue.map (fun d =>
    if moves d && d.act == a + 1 && d.phase == .running then { d with limited := d.limited ||| flags } else d) })

/-- The envelope of torque of the present level applied to a torque or force set-point: one beyond its edge goes to it at once. -/
def Lane.narrowForce (L : Lane) (a lv : Nat) : Lane :=
  let t := L.act a
  let unit := unitOf t.kind (L.kindOf a)
  let edge : Int := edgeOf a unit lv
  if t.bridge = .enabled ∧ (t.kind = .torque ∨ t.kind = .force ∨ t.kind = .hold) ∧ 2 ≤ unit ∧ edge < (t.target.natAbs : Int) then
    let target := clampI (-edge) edge t.target
    (L.onAct a (fun t => { t with target := target, step := max t.step (target * 1000 - t.frac).natAbs })).flagMotion a 2
  else L

/-- The envelope of the present level applied to a steering set-point in progress; the command running is marked (R176, R349). -/
def Lane.narrow (L : Lane) (a lv : Nat) : Lane :=
  let t := L.act a
  if L.kindOf a = 1 ∧ (t.kind = .angle ∨ t.kind = .hold) ∧ t.bridge = .enabled then
    let w := L.angleWindow lv
    let target := clampI w.1 w.2 t.target
    let top := L.rateStep (L.maxRate a lv)
    let step := if t.kind = .hold then top else min t.step top
    let flags := b2n (t.kind == .angle && decide (step < t.step)) + 2 * b2n (target != t.target)
    let L1 := L.onAct a (fun t => { t with target := target, step := step })
    L1.flagMotion a flags
  else L.narrowForce a lv

/-- Bridge states that change at a boundary (R170), `runs` whether the bridge runs in every member lane. -/
def Lane.bridgeStep (L : Lane) (a : Nat) (runs : Bool) : Lane :=
  let t := L.act a
  match t.bridge with
  | .enabling => if runs then L.onAct a (fun t => { t with bridge := .enabled }) else L
  | .disabling => if t.disableAt ≤ L.now then L.onAct a (fun t => { t with bridge := .disabled }) else L
  | _ => L

/-- SDI disarmed once the command it was armed for has ended. -/
def Lane.sdiStep (L : Lane) (a : Nat) : Lane :=
  if (L.act a).armed && !L.cmdq.queue.any (fun d => d.live && d.act == a + 1 && serves d && d.phase == .running)
  then (L.armSdi a false).onAct a (fun t => { t with kind := .none }) else L

/-- A set-point in the unit of the loop programs' feedback: an angle as rack position (R361); of a force or torque the unit is not
stated (log 88). -/
def Lane.setRaw (L : Lane) (a : Nat) (v : Int) : Int :=
  let u := unitOf (L.act a).kind (L.kindOf a)
  if u = 1 ∧ L.kindOf a = 1 then L.getS F.SAF_ZERO_ZERO + roundDiv (v * L.getS F.SAF_RATIO_RATIO) 65536 else Config.setRaw a u v

/-- The set-point that drives the actuator: in a STANDBY module the mirrored one of the ACTIVE module (R113). -/
def Lane.driveSet (L : Lane) (a : Nat) : Int :=
  match L.cmdq.mirrorTraj[a]? with
  | some v => if L.standby then v else (L.act a).setpoint
  | none => (L.act a).setpoint

/-- The kernel writes the set-point of an actuator that moves or holds to its loop programs' inputs (Table 4.6). -/
def Lane.feedAct (L : Lane) (a : Nat) : Lane :=
  let t := L.act a
  if (t.bridge == .enabled || t.bridge == .disabling) &&
    (t.kind == .angle || t.kind == .torque || t.kind == .force || t.kind == .release || t.kind == .hold)
  then L.feedLoops a (L.setRaw a (L.driveSet a)) else L

/-- One actuator at a vote boundary: bridge state, envelope, the trajectory's next set-point, which the loop engines sample in this
boundary's snapshot. -/
def State.actBoundary (s : State) (l : LaneId) (a : Nat) : State :=
  if (s.lane l).kindOf a = 0 then s
  else
    let lv := s.envLevel l a
    let runs := s.bridgeRuns l a
    s.upd l (fun L =>
      let L1 := ((L.bridgeStep a runs).narrow a lv).sdiStep a
      (L1.onAct a (fun t => if t.kind == .angle || t.kind == .torque || t.kind == .force || t.kind == .release || t.kind == .hold
        then t.move else t)).watchAct a |>.feedAct a)

/-- The next calibrations of the CNV_SELFCAL commands that run. -/
def Lane.calBoundary (L : Lane) : Lane :=
  (L.cmdq.queue.filter (fun d => d.op == 0x20 && d.phase == .running)).foldl (fun K d =>
    let r := K.calAdvance d
    r.1.setCmd { d with limited := r.2 }) L

/-- Actuators and calibrations at a vote boundary. -/
def State.trellisBoundary (s : State) (l : LaneId) : State :=
  ([0, 1, 2, 3].foldl (fun t a => t.actBoundary l a) s).upd l Lane.calBoundary

/-! ### Admission (R158, R159) -/

/-- Lexicographic order of keys. -/
def keyLess : List Nat → List Nat → Bool
  | a :: s, b :: t => decide (a < b) || (a == b && keyLess s t)
  | _, _ => false

/-- The key of the admission order (R159): due earlier, ring, URGENT, ISSUE modulo 2^32 around the present time `us`, network, TAG. -/
def TCmd.key (us : Nat) (c : TCmd) : List Nat :=
  [c.due, c.ring, 1 - b2n c.urgent, (c.issue + 2 ^ 32 + 2 ^ 31 - us) % 2 ^ 32, 1 - b2n c.net, c.tag.toNat]

/-- A command put into its place of the admission order. -/
def insertCmd (us : Nat) (c : TCmd) : List TCmd → List TCmd
  | [] => [c]
  | d :: t => if keyLess (c.key us) (d.key us) then c :: d :: t else d :: insertCmd us c t

/-- Admission at a boundary: at most BUDGET held commands that are due, in the order of R159, at the queue's end (source 15). -/
def Lane.admitDue (L : Lane) : Lane :=
  let k := L.mtN / L.periodT
  let due := (L.cmdq.queue.filter (fun c => c.phase == .held && decide (c.due ≤ k))).foldl (fun l c => insertCmd L.pairUs c l) []
  let now := due.take (max 1 (L.get F.CMDQ_ADMIT_BUDGET))
  if now.isEmpty then L
  else
    let rest := L.cmdq.queue.filter (fun c => !now.any c.same)
    (L.onCmdq (fun q => { q with queue := rest ++ now.map (fun c => { c with phase := .admitted, startAt := L.now }) })).pulse 15

end Sys2Proof.Machine
end

