-- ==== Sys2Proof/Machine/Boundary.lean ====
section
/-!
DEFINITION. Machine/Boundary.lean: the vote boundary T(k) (R92, Table 2.7): voted references, ENA and ASC take effect, lanes leave and
join, the blocks' boundary checks run, commands are admitted; and the 10 ms mark (R115, R133, R102).
-/

namespace Sys2Proof.Machine

/-! ### Voted values take effect (R76, R215, R248, R263) -/

/-- The configuration of the drive engines taken over at the boundary (R248). -/
def Lane.takeDrvConfig (L : Lane) : Lane :=
  { L with drive := { L.drive with eff := L.regs.filter (fun e => match blockAt e.1 with
      | some (.drv, _, _) => true
      | _ => false) } }

/-- The voted references received with VREF take effect in the drive engines. A lane that grafts drives zero torque (Table 2.11,
phase 5). -/
def Lane.takeRefs (L : Lane) : Lane :=
  match L.drive.vref with
  | none => L
  | some r =>
    let graft := L.own == 0
    [0, 1, 2, 3].foldl (fun K k =>
      let K1 := (K.put F.DRV_TQREF_VOTED (r.tq.getD k 0).toNat k).put F.DRV_FXREF_VOTED (r.fx.getD k 0).toNat k
      (K1.drvVoted k (bit r.ena.toNat k) (bit r.asc.toNat k)).onDrv k (fun d => { d with heldTq := graft })) L

/-- The Hedge's part: voted ENA and ASC take effect, what they abort ends, its functions are judged, its vote starts anew. -/
def Lane.hedgeBoundary (L : Lane) : Lane :=
  let old := L.get F.GD_VCMD_ENA ||| L.get F.GD_VCMD_ASC
  let L1 := L.vcmdBoundary
  let now := L1.get F.GD_VCMD_ENA ||| L1.get F.GD_VCMD_ASC
  let L2 := [0, 1, 2, 3].foldl (fun K k => if bit now k && !bit old k then K.stimAbort k else K) L1
  L2.odAbort.hedgeLatch.hsfBoundary

/-- Cells are gathered for the next vote. -/
def Lane.clearCells (L : Lane) : Lane :=
  (L.onSdl (fun d => { d with
    cells := [none, none, none], lateMask := [false, false, false], came := [false, false, false], decided := false })).onOzl
    (fun o => { o with cellOut := none, cellSent := false, shLate := false })

/-! ### Membership at a boundary (R91, R96, R97, Table 2.9) -/

/-- The departures and joins that the vote of this boundary has announced; none where it gave no values of its own. -/
def Lane.announced (L : Lane) : Nat × Nat :=
  if L.sdl.decided && L.get F.SDL_VSTAT_MODE != 0 && !L.is F.SDL_VSTAT_FROZEN then
    match L.sdl.voted with
    | some r => (r.leave.toNat, r.join.toNat)
    | none => (0, 0)
  else (0, 0)

/-- A peer that this lane counts out: its heartbeat says EXCLUDED or PRUNED, or this lane stops it (R81, R82) while it still votes
with another lane. -/
def Lane.peerGone (L : Lane) (x : LaneId) : Bool :=
  let i := peerIdx L.strap x
  let st := L.stOf x
  st == 3 || st == 4 || (L.sdl.noPeer == 0 && ((L.sdl.xDecide.getD i none).isSome ||
    L.is (if i = 0 then F.SDL_XINH_OUT_NX else F.SDL_XINH_OUT_PV)))

/-- The membership after the boundary, but for the own lane's own step. -/
def Lane.nextMembers (L : Lane) (leave join : Nat) : Nat :=
  LaneId.all.foldl (fun m x =>
    let was := bit L.members x.idx
    let stays := was && !bit leave x.idx && (x == L.strap || !L.peerGone x)
    if stays || (bit join x.idx && !bit leave x.idx) then m + 2 ^ x.idx else m) 0

/-- The own lane's planned departure (Table 2.9): FALLOW, PRUNED, or GRAFT for LATENT_DIVERGE. -/
def Lane.departs (L : Lane) : Lane :=
  if L.ozl.leaveTo = 2 then L.enterFallow
  else if L.ozl.leaveTo = 4 then L.pruneLane
  else if L.ozl.leaveTo = 0 then L.startGraft
  else L

/-- The split L1 of R91 begins at the boundary that ends its first vote alone; it ends with a join. -/
def Lane.splitStep (L : Lane) : Lane :=
  if L.is F.SDL_VSTAT_SPLIT && !L.is F.OZL_LSTATE_SPLIT && L.active then
    ((L.setMembers (2 ^ L.strap.idx)).put F.OZL_LSTATE_SPLIT 1).note Ev.OZL_SPLIT_L1
  else if L.is F.OZL_LSTATE_SPLIT && decide (1 < L.memberCount) then (L.put F.OZL_LSTATE_SPLIT 0).put F.SDL_VSTAT_SPLIT 0
  else L

/-- Lanes leave and join. -/
def Lane.memberStep (L : Lane) : Lane :=
  let (leave, join) := L.announced
  let me := L.strap.idx
  let grafted := L.own == 0 && L.get F.OZL_GRAFT_PHASE == 6 && bit join me
  let m := L.nextMembers leave join
  let L1 := if grafted then (L.becomeActive m).onOzl (fun o => { o with lastAttempt := L.now })
    else if L.active && bit leave me then (L.setMembers (putBits m me 1 1)).departs
    else if L.active then L.setMembers m
    else L.setMembers (putBits m me 1 0)
  (L1.onOzl (fun o => { o with
    leavePend := BitVec.ofNat 3 (o.leavePend.toNat - (o.leavePend.toNat &&& leave))
    joinPend := BitVec.ofNat 3 (o.joinPend.toNat - (o.joinPend.toNat &&& join)) })).splitStep

/-- LEAVE, JOIN and SHARE of the period that begins, latched for its cell and for the engines' references alike (R96). -/
def Lane.latchAnnounce (L : Lane) : Lane :=
  L.onOzl (fun o => { o with leaveNow := o.leavePend, joinNow := o.joinPend, shareNow := L.shareNext })

/-- GRAFT commands and the fallow's report that wait for the graft's end (Table 4.9, R395). -/
def Lane.graftSettle (L : Lane) : Lane :=
  let L1 := if L.own = 0 ∨ L.own = 2 then L else L.fallowClose (L.own == 1)
  if L1.own = 0 then L1
  else (L1.cmdq.queue.filter (fun c => c.live && c.op == 0x71 && c.phase == .running)).foldl
    (fun K c => K.finish c St.DONE [BitVec.ofNat 8 K.own]) L1

/-- The drawing lane has left and this lane follows it: it draws a new challenge at once (R526). -/
def State.redraw (s : State) (l : LaneId) (was : Lane) : State :=
  if was.isMember l && !was.drawer && (s.lane l).drawer then
    let (k, s1) := s.draw
    s1.upd l (fun L => L.drawChal (Config.freeWord k))
  else s

/-! ### The boundary -/

/-- The logic die's part: references, membership, the blocks' checks. -/
def Lane.logicBoundary (L : Lane) : Lane :=
  let L1 := L.takeDrvConfig.takeRefs
  let L2 := L1.memberStep.graftSettle.latchAnnounce
  L2.clearCells.icvBoundary.posBoundary.safBoundary.thrBoundary

/-- Actuators, loop engines, admission and what is looked at again at every boundary. -/
def State.kernelBoundary (s : State) (l : LaneId) : State :=
  let s1 := (s.trellisBoundary l).loopRestore l
  let s2 := (s1.upd l (fun L => ([0, 1, 2, 3].foldl Lane.loopBoundary L).admitDue)).loopFlush l
  (((s2.settleAll l).coverBoundary l).upd l Lane.readyCheck)

/-- A fallow that ended at this boundary is told to the peers: NEXT names the lane in every lane that hears it (R102). -/
def State.tellFallow (s : State) (l : LaneId) (was : Lane) : State :=
  if (s.lane l).ozl.fallowDone = was.ozl.fallowDone then s
  else LaneId.all.foldl (fun t x => if reaches s l x then t.upd x (fun K => K.put F.OZL_FALLOW_NEXT l.idx) else t) s

/-- VOTE_BOUNDARY (R92): carried out once at each T(k). -/
def execVoteBoundary (l : LaneId) (s : State) : Out :=
  let L := s.lane l
  if L.hedgeUp && L.atBoundary && L.ozl.lastBound != some L.mtN then
    let s1 := s.upd l (fun K => (K.onOzl (fun o => { o with lastBound := some K.mtN })).hedgeBoundary)
    if L.up then .next ((((s1.upd l Lane.logicBoundary).redraw l (s1.lane l)).tellFallow l (s1.lane l)).kernelBoundary l)
    else .next (s1.upd l Lane.clearCells)
  else .next s

/-! ### The 10 ms mark -/

/-- Mask of the RW fields of a register. -/
def rwMask (r : RegRow) : Nat :=
  (r.fields.filter (fun f => f.acc == .rw)).foldl (fun m f => m ||| ((2 ^ f.w - 1) * 2 ^ f.lo)) 0

/-- The bits of a field in its register. -/
def fldMask (f : Fld) : Nat := (2 ^ f.w - 1) * 2 ^ f.lo

/-- The bits of a register that CDIG covers (R115, R248, R316, R343, R422, R442, R466; SAF_ZERO; the descriptors of chapter 5, whose
set-point word is not configuration). -/
def cdigMask (a : Nat) : Nat :=
  match blockAt a with
  | none => 0
  | some (b, _, o) =>
    match findRow b o with
    | none => 0
    | some r =>
      if o < 0x40 then 0
      else match b with
        | .saf => if r.reg = R.SAF_ZERO then rwMask r else 0
        | .drv => if r.reg = R.DRV_AOFS ∨ r.reg = R.DRV_PSCALE then 0 else rwMask r
        | .loop => if o < R.LOOP_PRG_CTL.off ∨ r.reg = R.LOOP_PRG_SP then 0 else rwMask r
        | .cnv | .cnvSq | .icv => rwMask r
        | .pos =>
          if [R.POS_Q_SCL, R.POS_ENC_CFG, R.POS_ENC_CPT, R.POS_RES_CFG, R.POS_RES_AMP, R.POS_SENT_CFG, R.POS_SENT_SPC, R.POS_PRB_CFG,
            R.POS_SPD, R.POS_HCHK].contains r.reg then rwMask r else 0
        | .can => if [R.CAN_MODE, R.CAN_NBT, R.CAN_DBT, R.CAN_XBT, R.CAN_TDC, R.CAN_XLPWM].contains r.reg then rwMask r else 0
        | .flx =>
          if r.reg = R.FLX_CTL then fldMask F.FLX_CTL_RATE + fldMask F.FLX_CTL_CHEN
          else if [R.FLX_CYC, R.FLX_SLOT, R.FLX_DYN, R.FLX_KEY, R.FLX_INTEG, R.FLX_CCLIM].contains r.reg then rwMask r else 0
        | .eth =>
          if r.reg = R.ETH_T1S then rwMask r - fldMask F.ETH_T1S_NODEID
          else if r.reg = R.ETH_PORT_CFG ∨ r.reg = R.ETH_PTP then rwMask r else 0
        | .twp => if r.reg = R.TWP_CFG then fldMask F.TWP_CFG_ETYPE + fldMask F.TWP_CFG_MOD else 0
        | _ => 0

/-- A byte of memory that CDIG covers: loop program memories, the RW words of the DID entries but NODE of an own send entry (R466). -/
def Lane.cdigByte (L : Lane) (a : Nat) : Bool :=
  (decide (0x30000000 ≤ a) && decide (a < 0x30040000) && decide (a % 0x10000 < 0x8000)) ||
  (decide (0x40171000 ≤ a) && decide (a < 0x40171800) && decide (a % 0x20 < 0x10) &&
    !((a % 0x20 == 4 || a % 0x20 == 5) && L.dg ((a - 0x40171000) / 0x20) 0 17 1 == 1 && L.dg ((a - 0x40171000) / 0x20) 0 18 1 == 0))

/-- The configuration as CDIG covers it: what differs from the reset state, in the order of the addresses. -/
def Lane.cdigWords (L : Lane) : List (Nat × Word) :=
  L.regs.filterMap (fun e =>
    let m := BitVec.ofNat 32 (cdigMask e.1)
    if e.2 &&& m = resetWord L.strap e.1 &&& m then none else some (e.1, e.2 &&& m)) ++
  (L.mem.filter (fun c => L.cdigByte c.1)).map (fun c => (c.1, BitVec.ofNat 32 c.2.toNat))

/-- The own digest recomputed; its function is not stated (log 17). -/
def Lane.newCdig (L : Lane) : Lane := L.onOzl (fun o => { o with cdig := Config.cdigOf L.cdigWords })

/-- One of the three digests differs from the two peers' while those agree (R115). -/
def oddDigest (own : Word) : List (Option Word) → Bool
  | [some x, some y] => x == y && own != x
  | _ => false

/-- This lane is the odd one of three ACTIVE lanes (R115): its digests of the last mark against those its peers streamed after it. -/
def Lane.diverges (L : Lane) : Bool :=
  L.allActive && (match L.ozl.markDig with
    | some (c, d) => oddDigest c L.ozl.peerCdig || oddDigest d L.ozl.peerSdig
    | none => false)

/-- The digests of this mark kept, to be streamed to the peers and compared at the next one (R115). -/
def Lane.keepMark (L : Lane) : Lane :=
  L.onOzl (fun o => { o with
    markDig := some (o.cdig, BitVec.ofNat 32 (L.get F.TRIO_SDIG_SDIG)), markAt := L.mtN, peerCdig := [none, none], peerSdig := [none, none] })

/-- Operation counted: OZL_FALLOW.AGE in minutes of ACTIVE time (R102). -/
def Lane.ageStep (L : Lane) : Lane :=
  if !L.active then L
  else if L.ozl.opMarks < 5999 then L.onOzl (fun o => { o with opMarks := o.opMarks + 1 })
  else (L.onOzl (fun o => { o with opMarks := 0 })).incSat F.OZL_FALLOW_AGE

/-- A lane is due for a fallow (R102). -/
def Lane.fallowDue (L : Lane) : Bool := L.active && decide (30 ≤ L.get F.OZL_FALLOW_AGE)

/-- The fallow scheduler of R105 as the kernel of lane `l` runs it: this lane's LEAVE for the next due lane, after the one that completed
a fallow last, before parked sleep in the order A, B, C; and PENDING of a lane whose fallow waits. -/
def State.fallowSchedule (s : State) (l : LaneId) : State :=
  let L := s.lane l
  let order := if L.pwr.keyOff then LaneId.all else rotation (L.get F.OZL_FALLOW_NEXT)
  let cand := if s.fallowOpen l then order.find? (fun x => reaches s x l && (s.lane x).fallowDue) else none
  s.upd l (fun L =>
    let L1 := L.putB F.OZL_FALLOW_PENDING (L.fallowDue && cand != some l)
    match cand with
    | some x => L1.putLeave x 2
    | none => L1)

/-! ### Key-off (R105, R489) -/

/-- Trellis or a network controller holds a vote on a domain. -/
def Lane.netVotes (L : Lane) : Bool := (List.range 21).any (fun d => [3, 4, 5, 6, 7, 8, 9].any (fun c => L.voteOf d c != 0))

/-- The lane's part of the conditions of R489: no such vote for 1 s, every bridge DISABLED, every actuator at rest. -/
def Lane.quiet (L : Lane) : Bool :=
  !L.netVotes && L.since L.pwr.quietAt (sec 1) &&
    [0, 1, 2, 3].all (fun a => (L.act a).bridge == .disabled && (L.kindOf a == 0 || L.atRest a))

/-- The kernel's part in entering parked sleep, at a 10 ms mark: once the conditions of R489 hold in every member lane the key-off
fallows begin; they end where a condition fails; when no lane is due for a fallow any more and none is out for one, the kernel
has the Almanac written (R521), withdraws its votes and requests sleep. DESIGN CHOICE: the votes are withdrawn with the request and not before the fallows, whose
grafts need them (R471; log 130). -/
def State.keyOffStep (s : State) (l : LaneId) : State :=
  let L := s.lane l
  let ok := L.active && LaneId.all.all (fun x => !L.isMember x || (reaches s x l && (s.lane x).quiet))
  let back := LaneId.all.any (fun x => L.stOf x == 0 || L.stOf x == 2 || L.leaving x)
  let due := LaneId.all.any (fun x => reaches s x l && (s.lane x).fallowDue)
  s.upd l (fun K =>
    let K1 := if K.netVotes then K.onPwr (fun w => { w with quietAt := K.now }) else K
    if !ok then K1.onPwr (fun w => { w with keyOff := false, keyWrote := false })
    else if !K.pwr.keyOff then K1.onPwr (fun w => { w with keyOff := true })
    else if back || (due && L.allActive) || K.asleep then K1
    else if !K1.pwr.keyWrote then (K1.onPwr (fun w => { w with keyWrote := true })).almBegin
    else if K1.is F.ALM_STAT_BUSY then K1
    else ((K1.onPwr (fun w => { w with keyWrote := false })).keyVotes).sleepReq none)

/-- MARK_10MS (R115, R131, R133, R134, R102): at the first boundary at or after each multiple of 10 ms, once it has been carried out.
`writes` are the register writes the trio's cores have made since the mark before, in order; each moves its core's ADIG. -/
def execMark10ms (l : LaneId) (writes : List CoreWrite) (s : State) : Out :=
  let L := s.lane l
  if L.up && L.atBoundary && L.ozl.lastBound == some L.mtN && decide (L.trio.markDue ≤ L.mtN) then
    let odd := L.diverges
    let s1 := s.upd l (fun K => (((writes.foldl Lane.coreWrite K).digestMark).newCdig.ageStep).keepMark)
    let s2 := if odd then s1.upd l (fun K => K.transient Ev.OZL_LATENT_DIVERGE) else s1
    if odd && s2.fallowOpen l then .next (s2.announceLeave l 0) else .next ((s2.fallowSchedule l).keyOffStep l)
  else .next s

end Sys2Proof.Machine
end

