-- ==== Sys2Proof/Machine/Bus.lean ====
section
/-!
DEFINITION. Machine/Bus.lean: the commands of register access and interrupts (01): a write of a master (R11, R46), the element reset of
a block (R51, R52, R307), claim and completion of an interrupt (R57, R60).
-/

namespace Sys2Proof.Machine

/-- REGISTER_WRITE (R11, R46, R145, R146): a master writes an aligned word of the lane map. A store to the Hedge window goes to the Hedge
link, where a WR transfer carries it out (R24). -/
def execRegisterWrite (l : LaneId) (m : Master) (addr val : Word) (s : State) : Out :=
  if (s.lane l).up then s.gate l m true addr.toNat (fun t => .next (t.store l m addr.toNat val)) else .next s

/-- SRST (R51, R52, R307): the element reset of a block instance, or SRST_REFUSED; in a domain that is not ON a bus error. -/
def execSrst (l : LaneId) (b : Blk) (n : Nat) (s : State) : Out :=
  s.on l (fun L => (if b.isHedge then L.hedgeUp else L.up) && decide (n < b.count)) (fun L => L.srst b n)

/-- The transaction the trio issues with the majority value (R118, Table 3.2): a bus access with the privilege compared, a CSR write or
the CSRs of a trap entry or mret in the lock-step cores, a claim or completion; a halt or resume acknowledge goes to the debug module. A
write of some bytes of a word reaches memories only (R46). -/
def State.issue (s : State) (l : LaneId) (o : CoreOut) : State :=
  let each (ws : List (CoreReg × Word)) := s.upd l (fun L => L.onCores L.lockStep (fun _ c => ws.foldl (fun k w => k.write w.1 w.2) c))
  match o with
  | .bus addr data be write priv pmpOk =>
    let m : Master := if priv = 3 then .trioM else .trioU
    let a := 4 * (addr.toNat / 4)
    if !pmpOk then s
    else if !permits m write a then s.upd l (fun L => L.busFault m write a)
    else if write then
      if be = 0xF then s.store l m a data
      else if inMemory a then
        let old := ((s.lane l).memWord a).toNat
        let v := [0, 1, 2, 3].foldl (fun v k => if bit be.toNat k then putBits v (8 * k) 8 (bits data.toNat (8 * k) 8) else v) old
        s.store l m a (BitVec.ofNat 32 v)
      else s.upd l (fun L => L.busFault m true a)
    else
      let r := s.load l m a
      r.2.upd l (fun L => match r.1 with
        | some v => L.onCmdq (fun q => { q with busData := BitVec.ofNat 32 v })
        | none => L.busFault m false a)
  | .csr n v => each [(.csr n, v)]
  | .trap _ ms mc me mt => each [(.csr csrMstatus, ms), (.csr csrMcause, mc), (.csr csrMepc, me), (.csr csrMtval, mt)]
  | .claim ctx src => s.upd l (fun L => L.takeClaim ctx.val (if L.claimOf ctx.val = src then src else 0))
  | .complete ctx src => s.upd l (fun L => L.completeSrc ctx.val src)
  | .haltAck | .resumeAck => s

/-- CORE_MISMATCH (R117, R118, R119, Table 3.4): the outputs of cores 0, 1 and 2 that meet in one cycle, compared; the majority value is
issued, the odd core located or the trio stopped. -/
def execCoreMismatch (l : LaneId) (o0 o1 o2 : CoreOut) (s : State) : Out :=
  let L := s.lane l
  let o (c : Nat) := if c = 0 then o0 else if c = 1 then o1 else o2
  if L.up && L.lockStep != 0 then
    let r := L.compareOut o
    let s1 := match r.issue with
      | some x => s.issue l x
      | none => s
    .next (s1.upd l (fun K => K.trioCompared r (outKind (r.issue.getD o0))))
  else .next s

/-- A context's core takes interrupts now: not the trio in RESYNC, whose interrupts stay pending (R127). -/
def Lane.ctxRuns (L : Lane) (ctx : Nat) : Bool :=
  if ctx = 0 then L.masterRuns .trioM && L.trioMode != 1 else if ctx = 1 then L.masterRuns .svc else L.masterRuns .free

/-- CLAIM (R57, R60): the context takes the highest pending source, which the read returns; 0 where none is pending. Of two contexts
that claim in the same cycle, `also` the second, one is returned the source and the other 0 where both would take the same one. -/
def execClaim (l : LaneId) (ctx : Fin 3) (also : Option (Fin 3)) (s : State) : Out :=
  s.on l (fun L => L.up && L.ctxRuns ctx.val && (also.map (fun c => L.ctxRuns c.val)).getD true) (fun L =>
    let src := L.claimOf ctx.val
    let L1 := L.takeClaim ctx.val src
    let L2 := match also with
      | some c => if c = ctx then L1 else L1.takeClaim c.val (if L.claimOf c.val = src then 0 else L.claimOf c.val)
      | none => L1
    L2.onCmdq (fun q => { q with busData := BitVec.ofNat 32 src }))

/-- COMPLETE (R57). -/
def execComplete (l : LaneId) (ctx : Fin 3) (src : Nat) (s : State) : Out := s.on l Lane.up (fun L => L.completeSrc ctx.val src)

end Sys2Proof.Machine
end

