-- ==== Sys2Proof/Machine/Hlink.lean ====
section
/-!
DEFINITION. Machine/Hlink.lean: the transfers of the Hedge link that carry voted references, interrupt lines and register accesses
(01, R18 to R25; R215, R265, R518).
-/

namespace Sys2Proof.Machine

/-- Payload of a VREF transfer: torque and flux reference per bridge, then the flags beat, whose layout the spec does not give
(Table 1.2, log 123). -/
def vrefBeats (r : Refs) (flags : Half) : List Half :=
  [0, 1, 2, 3].flatMap (fun b => [r.tq.getD b 0, r.fx.getD b 0]) ++ [flags]

/-- VREF (R215): the voted references enter the drive engines' shadow, to take effect at the next boundary. -/
def execVref (l : LaneId) (flags hdr crc : Half) (s : State) : Out :=
  s.on l (fun L => L.linkOn && L.sdl.vrefOut.isSome) (fun L =>
    if xferOk 2 (vrefBeats (L.sdl.vrefOut.getD noRefs) flags) hdr crc then { L with drive := { L.drive with vref := L.sdl.vrefOut } }
    else L.crcErr)

/-- The overrides and the readiness of the gate supplies that the gate-state word reports, taken by the drive engines (R236,
Table 6.5). -/
def Lane.takeGateWord (L : Lane) : Lane :=
  [0, 1, 2, 3].foldl (fun K k =>
    let K1 := K.drvOverride k (bit K.link.gateWord.toNat (8 + k))
    if bit K1.link.gateWord.toNat (12 + k) then K1.drvReady k else K1) L

/-- The Hedge's occurrences carried with an IRQ transfer reach ALM (R518). -/
def Lane.takeHedgeQ (L : Lane) : Lane :=
  (L.alm.hedgeQ.foldl (fun K o => K.almTake o) L) |> fun K => { K with alm := { K.alm with hedgeQ := [] } }

/-- IRQ (R265): the logic die takes the Hedge's source lines and the gate-state word; drive engines follow overrides, readiness and
over-voltage (R231, R236). -/
def execIrq (l : LaneId) (hdr crc : Half) (s : State) : Out :=
  s.on l Lane.linkOn (fun L =>
    let L0 := L.onLink (fun k => { k with lastIrq := L.now })
    if xferOk 5 [BitVec.ofNat 16 L.irqBeat0, BitVec.ofNat 16 L.gateState] hdr crc then
      let was := L0.ovReported
      let L1 := L0.onLink (fun k => { k with gateWord := BitVec.ofNat 32 L.gateState, irqLines := L.hedgeLines })
      let L2 := L1.takeGateWord
      (if L2.ovReported || was then L2.noregReport else L2).takeHedgeQ
    else L0.crcErr)

/-! ### Register accesses -/

/-- A WR or RD transfer arrives: the access at the head of the queue, or one issued now. None where another access is in flight. -/
def Lane.arrive (L : Lane) (write : Bool) (off : Nat) (data : Word) : Option Lane :=
  match L.link.accesses with
  | [] => some (L.hedgeAccess write off data)
  | h :: _ => if h.write = write ∧ h.off = off ∧ (!write ∨ h.data = data) then some L else none

/-- The Hedge's answer on its way: 0 OK, 1 NAK_CRC, 2 BAD_ADDR, and the data of a read. -/
def Lane.respond (L : Lane) (st : Nat) (data : Word) : Lane := L.onLink (fun k => { k with rsp := some (st, data) })

/-- An offset of the Hedge window that a WR or RD may name. -/
def hedgeOff (off : Nat) : Bool := decide (off < 0x7000) && off % 4 == 0

/-- WR (R20, R24): the Hedge writes the register and answers; a failed CRC is answered NAK_CRC. A block in a weeding slice ignores
the write (R384). -/
def execWr (l : LaneId) (off : Half) (data : Word) (hdr crc : Half) (s : State) : Out :=
  let L := s.lane l
  if L.linkOn then
    match L.arrive true off.toNat data with
    | none => .next s
    | some L1 =>
      if !xferOk 6 (off :: wordBeats data) hdr crc then .next (s.setLane l (L1.crcErr.respond 1 0))
      else if !hedgeOff off.toNat then .next (s.setLane l (L1.respond 2 0))
      else
        let a := 0x50000000 + off.toNat
        match blockAt a with
        | some (b, n, o) =>
          if L1.blkIsolated b n && decide (0x40 ≤ o) then .next (s.setLane l (L1.busErr.respond 0 0))
          else .next (((s.setLane l L1).regWriteAll l .trioM a data).upd l (fun K => K.respond 0 0))
        | none => .next (s.setLane l (L1.respond 2 0))
  else .next s

/-- What a read of a Hedge register leaves behind: the shadow of a history entry (R56). -/
def Lane.hedgeReadMark (L : Lane) (b : Blk) (off : Nat) : Lane :=
  if 0x20 ≤ off ∧ off < 0x30 then
    let e := (off - 0x20) / 4
    let L1 := L.wr (evqT b 0 e) (L.evqTimeOf b 0 e)
    { L1 with evqRead := if L1.evqRead.contains (evqA b 0 e) then L1.evqRead else evqA b 0 e :: L1.evqRead }
  else L

/-- RD (R20, R24): the Hedge reads the register and answers. -/
def execRd (l : LaneId) (off : Half) (hdr crc : Half) (s : State) : Out :=
  s.on l Lane.linkOn (fun L =>
    match L.arrive false off.toNat 0 with
    | none => L
    | some L1 =>
      if !xferOk 7 [off] hdr crc then L1.crcErr.respond 1 0
      else if !hedgeOff off.toNat then L1.respond 2 0
      else
        let a := 0x50000000 + off.toNat
        match blockAt a with
        | some (b, _, o) => (L1.hedgeReadMark b o).respond 0 (BitVec.ofNat 32 (L1.regView a))
        | none => L1.respond 2 0)

/-- The access in flight has ended: the next one starts. -/
def Lane.nextAccess (L : Lane) : Lane :=
  L.onLink (fun k => { k with rsp := none, accesses := match k.accesses.tail with
    | [] => []
    | h :: t => { h with sentAt := L.now } :: t })

/-- The access that waits for its answer is sent once more, at most twice; after that it ends in a bus error, the link is down and
source 79 stands until it has trained again (R21, R62). DESIGN CHOICE: the accesses queued behind it end in bus errors with it, for
no link is left to carry them (log 124). -/
def Lane.retransmit (L : Lane) : Lane :=
  match L.link.accesses with
  | [] => L
  | h :: t =>
    if h.tries < 2 then
      L.onLink (fun k => { k with rsp := none, accesses := { h with tries := h.tries + 1, sentAt := L.now } :: t })
    else
      let L1 := (h :: t).foldl (fun K _ => K.busErr) L
      let L2 := (L1.note Ev.HLNK_HLNK_DOWN).onLink (fun k => { k with
        rsp := none, accesses := [], downLine := true, trained := false })
      L2.laneFault

/-- RSP (R20, R21, R24): OK ends the access, a read's data returned; NAK_CRC has it sent again; BAD_ADDR ends it in a bus error. -/
def execRsp (l : LaneId) (hdr crc : Half) (s : State) : Out :=
  s.on l Lane.linkOn (fun L =>
    match L.link.rsp, L.link.accesses with
    | some (st, data), h :: _ =>
      if !xferOk 8 (BitVec.ofNat 16 st :: (if h.write then [] else wordBeats data)) hdr crc then
        L.crcErr.onLink (fun k => { k with rsp := none })
      else if st = 1 then L.retransmit
      else if st = 2 then L.nextAccess.busErr
      else if h.write then L.nextAccess
      else L.nextAccess.onCmdq (fun q => { q with busData := data })
    | _, _ => L)

/-- RSP_TIMEOUT (R21): no answer within 1.5 us of the header beat of the attempt. -/
def execRspTimeout (l : LaneId) (s : State) : Out :=
  s.on l (fun L => L.linkOn && (match L.link.accesses with
      | h :: _ => L.since h.sentAt 300
      | [] => false)) Lane.retransmit

end Sys2Proof.Machine
end

