-- ==== Sys2Proof/Machine/Sha.lean ====
section
/-!
DEFINITION. Machine/Sha.lean: SHA-256 (FIPS 180-4) and HMAC-SHA-256 (FIPS 198-1), as the authorisation code of a life-cycle transition
uses them (R526).
-/

namespace Sys2Proof.Machine

/-- The round constants. -/
def shaK : List Word :=
  [0x428A2F98, 0x71374491, 0xB5C0FBCF, 0xE9B5DBA5, 0x3956C25B, 0x59F111F1, 0x923F82A4, 0xAB1C5ED5] ++
  [0xD807AA98, 0x12835B01, 0x243185BE, 0x550C7DC3, 0x72BE5D74, 0x80DEB1FE, 0x9BDC06A7, 0xC19BF174] ++
  [0xE49B69C1, 0xEFBE4786, 0x0FC19DC6, 0x240CA1CC, 0x2DE92C6F, 0x4A7484AA, 0x5CB0A9DC, 0x76F988DA] ++
  [0x983E5152, 0xA831C66D, 0xB00327C8, 0xBF597FC7, 0xC6E00BF3, 0xD5A79147, 0x06CA6351, 0x14292967] ++
  [0x27B70A85, 0x2E1B2138, 0x4D2C6DFC, 0x53380D13, 0x650A7354, 0x766A0ABB, 0x81C2C92E, 0x92722C85] ++
  [0xA2BFE8A1, 0xA81A664B, 0xC24B8B70, 0xC76C51A3, 0xD192E819, 0xD6990624, 0xF40E3585, 0x106AA070] ++
  [0x19A4C116, 0x1E376C08, 0x2748774C, 0x34B0BCB5, 0x391C0CB3, 0x4ED8AA4A, 0x5B9CCA4F, 0x682E6FF3] ++
  [0x748F82EE, 0x78A5636F, 0x84C87814, 0x8CC70208, 0x90BEFFFA, 0xA4506CEB, 0xBEF9A3F7, 0xC67178F2]

/-- The hash value before the first block. -/
def shaInit : List Word :=
  [0x6A09E667, 0xBB67AE85, 0x3C6EF372, 0xA54FF53A, 0x510E527F, 0x9B05688C, 0x1F83D9AB, 0x5BE0CD19]

/-- The next word of the message schedule from those before it, newest first. -/
def shaNext (l : List Word) : Word :=
  let a := l.getD 1 0
  let b := l.getD 14 0
  let s1 := (a.rotateRight 17) ^^^ (a.rotateRight 19) ^^^ (a >>> 10)
  let s0 := (b.rotateRight 7) ^^^ (b.rotateRight 18) ^^^ (b >>> 3)
  s1 + l.getD 6 0 + s0 + l.getD 15 0

/-- `n` more words of the message schedule, newest first. -/
def shaExtend : Nat → List Word → List Word
  | 0, l => l
  | n + 1, l => shaExtend n (shaNext l :: l)

/-- One round on the eight working variables. -/
def shaRound (v : List Word) (kw : Word × Word) : List Word :=
  match v with
  | [a, b, c, d, e, f, g, h] =>
    let s1 := (e.rotateRight 6) ^^^ (e.rotateRight 11) ^^^ (e.rotateRight 25)
    let t1 := h + s1 + ((e &&& f) ^^^ (~~~e &&& g)) + kw.1 + kw.2
    let s0 := (a.rotateRight 2) ^^^ (a.rotateRight 13) ^^^ (a.rotateRight 22)
    let t2 := s0 + ((a &&& b) ^^^ (a &&& c) ^^^ (b &&& c))
    [t1 + t2, a, b, c, d + t1, e, f, g]
  | _ => v

/-- A block of 64 bytes taken into the hash value. -/
def shaBlock (h : List Word) (bs : List Byte) : List Word :=
  let w := (shaExtend 48 ((List.range 16).map (fun i => BitVec.ofNat 32 (fieldBE bs (4 * i) 4))).reverse).reverse
  (h.zip ((shaK.zip w).foldl shaRound h)).map (fun p => p.1 + p.2)

/-- The first `n` blocks of a padded message taken in. -/
def shaBlocks : Nat → List Word → List Byte → List Word
  | 0, h, _ => h
  | n + 1, h, bs => shaBlocks n (shaBlock h (bs.take 64)) (bs.drop 64)

/-- SHA-256. -/
def sha256 (msg : List Byte) : List Byte :=
  let zeros := (119 - msg.length % 64) % 64
  let padded := msg ++ [0x80] ++ List.replicate zeros 0 ++ bytesBE 8 (8 * msg.length)
  (shaBlocks (padded.length / 64) shaInit padded).flatMap (fun w => bytesBE 4 w.toNat)

/-- HMAC-SHA-256 with a key of at most 64 bytes. -/
def hmacSha256 (key msg : List Byte) : List Byte :=
  let k := key ++ List.replicate (64 - key.length) 0
  sha256 (k.map (fun b => b ^^^ 0x5C) ++ sha256 (k.map (fun b => b ^^^ 0x36) ++ msg))

/-- The authorisation code for a serial number, challenge and target (R526), first byte in bits [7:0]. -/
def lcCode (serial chal : Word) (target : Byte) : BitVec 64 :=
  let mac := hmacSha256 (bytesBE 32 Config.moduleKey.toNat) (bytesLE 4 serial.toNat ++ bytesLE 4 chal.toNat ++ [target])
  BitVec.ofNat 64 (fieldLE mac 0 8)

end Sys2Proof.Machine
end

