-- ==== Sys2Proof/Machine/Trellis.lean ====
section
/-!
DEFINITION. Machine/Trellis.lean: the opcodes of Table 4.9 (R172), and the starts, ends and limits of commands that run or wait (R169,
R171).
-/

namespace Sys2Proof.Machine

/-! ### Identity, status and life cycle -/

/-- Identity bytes of a die from its four SYS registers (Table 4.9). -/
def Lane.dieIdent (L : Lane) (lot0 lot1 pos step : Reg) : List Byte :=
  let w1 := L.reg lot1
  bytesBE 4 (L.reg lot0) ++ bytesBE 2 (w1 / 0x10000) ++ [BitVec.ofNat 8 w1, 0] ++ bytesLE 4 (L.reg pos) ++
    [BitVec.ofNat 8 (L.reg step / 0x100), BitVec.ofNat 8 (L.reg step)]

/-- The module's identity; the stepping is the logic die's. -/
def Lane.moduleIdent (L : Lane) : List Byte :=
  bytesBE 4 (L.reg R.SYS_PART_0) ++ bytesBE 4 (L.reg R.SYS_PART_1) ++ bytesLE 4 (L.reg R.SYS_SERIAL) ++
    bytesLE 2 (L.reg R.SYS_ASSY) ++ [BitVec.ofNat 8 (L.get F.SYS_LD_STEP_LETTER), BitVec.ofNat 8 (L.get F.SYS_LD_STEP_NUM)]

/-- IDENT. -/
def execIdent (l : LaneId) (tag : Half) (net : Bool) (s : State) : Out :=
  trellis l tag net 0x01 (fun c s => s.upd l (fun L =>
    if 2 < c.u 0 1 ∨ c.u 1 3 ≠ 0 then L.finish c St.BAD_PARAM
    else if c.u 0 1 = 0 then L.finish c St.DONE L.moduleIdent
    else if c.u 0 1 = 1 then L.finish c St.DONE (L.dieIdent R.SYS_LD_LOT_0 R.SYS_LD_LOT_1 R.SYS_LD_POS R.SYS_LD_STEP)
    else L.finish c St.DONE (L.dieIdent R.SYS_HD_LOT_0 R.SYS_HD_LOT_1 R.SYS_HD_POS R.SYS_HD_STEP))) s

/-- Results of STATUS (Table 4.9, R359). -/
def statusBytes (s : State) (l : LaneId) : List Byte :=
  let L := s.lane l
  let late := LaneId.all.any (fun x => (s.lane x).is F.OZL_FALLOW_OVERDUE)
  bytesLE 4 (L.reg R.OZL_LSTATE) ++ [0, 1, 2, 3].map (fun a => BitVec.ofNat 8 (if L.kindOf a = 0 then 0 else s.actLevel l a)) ++
    [BitVec.ofNat 8 (b2n (safeStopReq s l) + 2 * b2n late), BitVec.ofNat 8 (L.get F.SYS_LC_STATE)] ++
    bytesLE 2 L.cmdq.queue.length ++ bytesLE 4 L.mtUs

/-- STATUS. -/
def execStatus (l : LaneId) (tag : Half) (net : Bool) (s : State) : Out :=
  trellis l tag net 0x02 (fun c s => s.upd l (fun L => L.finish c St.DONE (statusBytes s l))) s

/-- Whether a transition stands in Table 17.7, and whether it needs an authorisation code (R525). -/
def lcRow (old target : Nat) : Option Bool :=
  match old, target with
  | 0, 1 => some false
  | 1, 2 | 3, 2 => some false
  | 2, 3 | 3, 1 => some true
  | 1, 4 | 2, 4 | 3, 4 => some true
  | _, _ => none

/-- All three lanes are locked, trio and Hedge (R368). -/
def State.allLocked (s : State) : Bool :=
  LaneId.all.all (fun x => (s.lane x).is F.SAF_SEALCTL_LOCKED && (s.lane x).is F.HSF_SEALCMD_LOCKED)

/-- What a lane makes of the code of a LIFECYCLE (R526): valid, or refused and counted unless it is for the earlier challenge. -/
def Lane.judgeCode (L : Lane) (c : TCmd) : Lane × Bool :=
  let code := BitVec.ofNat 64 (c.u 4 8)
  let serial := L.rd (R.SYS_SERIAL.addr 0 0)
  let target := BitVec.ofNat 8 (c.u 0 1)
  let ok := code == lcCode serial (L.rd (R.SYS_LC_CHAL.addr 0 0)) target
  let stale := match L.alm.oldChal with
    | some w => code == lcCode serial w target
    | none => false
  let L1 := L.onAlm (fun a => { a with oldChal := none, chalUsed := true })
  if L.is F.SYS_LC_AFLOCK then (L1, false)
  else if ok then (L1, true)
  else if stale then (L1, false)
  else
    let n := satU 3 (L.get F.SYS_LC_AFAIL + 1)
    ((L1.put F.SYS_LC_AFAIL n).putB F.SYS_LC_AFLOCK (n == 3), false)

/-- The transition starts: mark 0xF0, Almanac write, then the pending record in copy 0; the lanes exchange confirmations (R527). -/
def Lane.lcBegin (L : Lane) (c : TCmd) : Lane :=
  let old := L.get F.SYS_LC_STATE
  let target := c.u 0 1
  let L1 := (L.almMark 0xF0 0 [BitVec.ofNat 8 old, BitVec.ofNat 8 target]).1.almBegin
  (L1.onAlm (fun a => { a with lc := some ⟨c.tag, c.net, old, target, L1.now, 0, !L1.is F.ALM_STAT_BUSY⟩ })).accept c

/-- LIFECYCLE at its admission boundary (R525 to R527). After one that carries a code the drawing lane draws a new challenge. -/
def execLifecycle (l : LaneId) (tag : Half) (net : Bool) (s : State) : Out :=
  trellis l tag net 0x03 (fun c s =>
    let L := s.lane l
    let target := c.u 0 1
    let row := lcRow (L.get F.SYS_LC_STATE) target
    if 4 < target ∨ c.u 1 3 ≠ 0 then s.upd l (fun K => K.finish c St.BAD_PARAM)
    else if !(L.active || L.get F.SYS_LC_STATE == 0) || L.alm.lc.isSome || row.isNone ||
        [0, 1, 2, 3].any (fun a => (L.act a).bridge != .disabled) || (target == 2 && !s.allLocked) then
      s.upd l (fun K => K.finish c St.NOT_IN_STATE)
    else if row = some true then
      let (k, s1) := s.draw
      let r := L.judgeCode c
      let L1 := if r.2 then r.1.lcBegin c else r.1.finish c St.LOCKED
      s1.setLane l (L1.drawChal (Config.freeWord k))
    else s.upd l (fun K => K.lcBegin c)) s

/-- The transition's own work once every member has confirmed (R527, Table 17.7): floor and record, erasures, the other commands
ABORTED, the wipe and the restart, then the reply as the first entry (R177). -/
def Lane.lcComplete (L : Lane) (r : LcRun) (c : TCmd) : Lane :=
  let L1 := if r.old = 0 then L.put F.SYS_LC_FLOOR 1 else if r.target = 4 then L.put F.SYS_LC_FLOOR 2 else L
  let L2 := (L1.setLc r.target).onAlm (fun a => { a with lc := none, erased := a.erased.set 6 (a.erased.getD 6 0 + 1) })
  let L3 := if r.target = 1 ∧ r.old = 3 then
      (((L2.onAlm (fun a => { a with sealRec := [[], []], erased := a.erased.set 4 (a.erased.getD 4 0 + 1) })).put
        F.SAF_SEALCTL_LOCKED 0).put F.HSF_SEALCMD_LOCKED 0).lockDie false false |>.lockDie true false
    else L2
  let L4 := (L3.endAll (fun d => !c.same d) St.ABORTED).wipe 0x00920000 0x00F80000
  let L5 := L4.lcRestart
  let L6 := if r.target = 4 then L5.laneStop F.GD_LSTOP_LEGTO else L5
  L6.finish c St.DONE [BitVec.ofNat 8 r.target]

/-! ### Motion and bridges -/

/-- STEER_ANGLE. -/
def execSteerAngle (l : LaneId) (tag : Half) (net : Bool) (s : State) : Out :=
  trellisM l tag net 0x10 (fun c s => s.admitMotion l c) s

/-- STEER_TORQUE. -/
def execSteerTorque (l : LaneId) (tag : Half) (net : Bool) (s : State) : Out :=
  trellisM l tag net 0x11 (fun c s => s.admitMotion l c) s

/-- CLAMP_FORCE. -/
def execClampForce (l : LaneId) (tag : Half) (net : Bool) (s : State) : Out :=
  trellisM l tag net 0x12 (fun c s => s.admitMotion l c) s

/-- CLAMP_RELEASE. -/
def execClampRelease (l : LaneId) (tag : Half) (net : Bool) (s : State) : Out :=
  trellisM l tag net 0x13 (fun c s => s.admitMotion l c) s

/-- HOLD (R356): MODE 0 holds with torque, MODE 1 is safe brake hold of a CLAMP actuator. -/
def execHold (l : LaneId) (tag : Half) (net : Bool) (s : State) : Out :=
  trellisM l tag net 0x14 (fun c s =>
    if 1 < c.u 0 1 ∨ c.u 1 3 ≠ 0 ∨ (c.u 0 1 = 1 ∧ (s.lane l).kindOf c.actI ≠ 2) then s.upd l (fun L => L.finish c St.BAD_PARAM)
    else if c.u 0 1 = 0 then s.admitMotion l c
    else s.upd l (fun L => L.admitBrakeHold c)) s

/-- BRIDGE_ENABLE (Table 4.7). -/
def execBridgeEnable (l : LaneId) (tag : Half) (net : Bool) (s : State) : Out :=
  trellisM l tag net 0x15 (fun c s => s.admitEnable l c) s

/-- BRIDGE_DISABLE (Table 4.7). -/
def execBridgeDisable (l : LaneId) (tag : Half) (net : Bool) (s : State) : Out :=
  trellisM l tag net 0x16 (fun c s => s.upd l (fun L => L.admitDisable c)) s

/-- ASC_BRAKE (Table 4.7). -/
def execAscBrake (l : LaneId) (tag : Half) (net : Bool) (s : State) : Out :=
  trellisM l tag net 0x17 (fun c s => s.upd l (fun L => L.admitAsc c)) s

/-! ### Service and tests -/

/-- CNV_SELFCAL: partners one after the other, pairs in parallel. -/
def execCnvSelfcal (l : LaneId) (tag : Half) (net : Bool) (s : State) : Out :=
  trellisL l tag net 0x20 (fun c s =>
    if c.u 1 3 ≠ 0 then s.conclude l c St.BAD_PARAM
    else if c.u 0 1 ≠ 0 ∧ (convsOf (c.u 0 1)).all (fun n => (s.lane l).pruned (.cnv n)) then s.conclude l c St.RESOURCE_PRUNED
    else s.upd l (fun L =>
      let r := L.calAdvance { c with limited := 0 }
      r.1.accept { c with limited := r.2 })) s

/-- COMMISSIONING or SERVICE. -/
def Lane.workshop (L : Lane) : Bool := L.get F.SYS_LC_STATE == 1 || L.get F.SYS_LC_STATE == 3

/-- ANGLE_ZERO (R361): SAF_ZERO set from the median position and the present angle. -/
def execAngleZero (l : LaneId) (tag : Half) (net : Bool) (s : State) : Out :=
  trellisM l tag net 0x21 (fun c s => s.upd l (fun L =>
    if !L.workshop then L.finish c St.LOCKED
    else if (L.othersOn c).any moves || !L.atRest c.actI then L.finish c St.NOT_IN_STATE
    else match L.median c.actI false with
      | none => L.finish c St.NOT_IN_STATE
      | some p =>
        let z := satS 32 (p - roundDiv (c.i32 0 * L.getS F.SAF_RATIO_RATIO) 65536)
        (L.putS F.SAF_ZERO_ZERO z).finish c St.DONE (bytesLE 4 (ofSigned 32 z)))) s

/-- A force set-point of the actuator is clamping it. -/
def Lane.clamped (L : Lane) (a : Nat) : Bool :=
  (L.act a).kind == .force || (L.act a).kind == .hold || (L.act a).kind == .brakeHold || ((L.act a).kind == .release && (L.act a).setpoint != 0)

/-- CALIPER_KISSPOINT: a search under armed SDI (R350) up to the force limit given. -/
def execCaliperKisspoint (l : LaneId) (tag : Half) (net : Bool) (s : State) : Out :=
  trellisM l tag net 0x22 (fun c s => s.upd l (fun L =>
    if (L.othersOn c).any moves || L.clamped c.actI || !L.atRest c.actI || (L.act c.actI).bridge != .enabled
    then L.finish c St.NOT_IN_STATE
    else L.unlessOvertaken c (L.startService c .kiss (c.u 0 4)))) s

/-- ENCODER_ALIGN: in COMMISSIONING and SERVICE, at rest, ENABLED; SDI active throughout (R350). A pruned channel or bridge cannot be
aligned (R168). -/
def execEncoderAlign (l : LaneId) (tag : Half) (net : Bool) (s : State) : Out :=
  trellisL l tag net 0x23 (fun c s =>
    let L := s.lane l
    if 3 < c.u 0 1 ∨ c.u 1 3 ≠ 0 then s.conclude l c St.BAD_PARAM
    else if !L.workshop then s.conclude l c St.LOCKED
    else if L.pruned (.pos (c.u 0 1)) || L.pruned (.drv c.actI) then s.conclude l c St.RESOURCE_PRUNED
    else if (L.othersOn c).any moves || !L.atRest c.actI || (L.act c.actI).bridge != .enabled then s.conclude l c St.NOT_IN_STATE
    else match L.overtaken c with
      | some st => s.conclude l c st
      | none => s.upd l (fun K => K.startService c .align (c.u 4 4))) s

/-- WEED_SLICE (R383, R388). A lane outside L2 and L3 tests nothing. -/
def execWeedSlice (l : LaneId) (tag : Half) (net : Bool) (s : State) : Out :=
  trellisL l tag net 0x30 (fun c s =>
    match elemAt (c.u 0 1) (c.u 1 1) with
    | none => s.conclude l c St.BAD_PARAM
    | some e =>
      if c.u 2 2 ≠ 0 then s.conclude l c St.BAD_PARAM
      else if (s.lane l).memberCount < 2 then s.conclude l c St.NOT_IN_STATE
      else s.startSlice l c e) s

/-- FALLOW_REQUEST (R95, R102). -/
def execFallowRequest (l : LaneId) (tag : Half) (net : Bool) (s : State) : Out :=
  trellis l tag net 0x31 (fun c s =>
    if !(s.lane l).active then s.upd l (fun L => L.finish c L.absentStatus)
    else if !(s.lane l).allActive then s.upd l (fun L => L.finish c St.NOT_IN_STATE) else s.startFallow l c) s

/-- OFFSTATE_DIAG (R279, R280): the bridges must be DISABLED. -/
def execOffstateDiag (l : LaneId) (tag : Half) (net : Bool) (vmMv : Nat) (s : State) : Out :=
  trellisL l tag net 0x32 (fun c s =>
    let L := s.lane l
    if L.odLive c = 0 then s.conclude l c St.RESOURCE_PRUNED
    else if [0, 1, 2, 3].any (fun b => bit (L.odLive c) b && (L.act b).bridge != .disabled) then s.conclude l c St.NOT_IN_STATE
    else if L.is F.PROT_ODIAG_BUSY then s.upd l (fun K => K.defer c)
    else s.upd l (fun K => (K.odRequest (K.odLive c) vmMv false).accept c)) s

/-- ICV_REFCHECK (R314). -/
def execIcvRefcheck (l : LaneId) (tag : Half) (net : Bool) (s : State) : Out :=
  trellisL l tag net 0x33 (fun c s =>
    if c.u 0 4 < 100 ∨ 20000 < c.u 0 4 ∨ c.u 5 3 ≠ 0 then s.conclude l c St.BAD_PARAM
    else if (s.lane l).pruned .icv || (c.u 4 1 != 0 && (convsOf (c.u 4 1)).all (fun n => (s.lane l).pruned (.cnv n))) then
      s.conclude l c St.RESOURCE_PRUNED
    else s.upd l (fun K => (K.refAsk (c.u 4 1) (c.u 0 4) (.cmd c.tag c.net)).accept c)) s

/-! ### Power -/

/-- POWER_VOTE (R472). -/
def execPowerVote (l : LaneId) (tag : Half) (net : Bool) (s : State) : Out :=
  trellisL l tag net 0x40 (fun c s =>
    let L := s.lane l
    let d := c.u 0 1
    let st := c.u 1 1
    if 20 < d ∨ (st ≠ 1 ∧ st ≠ 2) ∨ c.u 2 2 ≠ 0 then s.conclude l c St.BAD_PARAM
    else if d = 0 then s.conclude l c St.DONE [2]
    else if st = 1 ∧ L.retIgnored d then (s.upd l (fun K => K.busErr)).conclude l c St.NOT_IN_STATE
    else
      let s1 := s.upd l (fun K => K.vote 3 d st)
      let K := s1.lane l
      if K.domReached d st then s1.conclude l c St.DONE [BitVec.ofNat 8 (K.get F.PWR_D_STAT_STATE 0 d)]
      else if K.dropLate d then s1.upd l (fun M => M.defer c)
      else s1.upd l (fun M => M.accept c)) s

/-- POWER_UNVOTE (R472): a deferred POWER_VOTE for the domain ends SUPERSEDED. -/
def execPowerUnvote (l : LaneId) (tag : Half) (net : Bool) (s : State) : Out :=
  trellisL l tag net 0x41 (fun c s =>
    let d := c.u 0 1
    if (20 < d ∧ d ≠ 0x1F) ∨ c.u 1 3 ≠ 0 then s.conclude l c St.BAD_PARAM
    else
      let late := (s.lane l).cmdq.queue.filter (fun x => x.op == 0x40 && x.phase == .deferred && (d == 0x1F || x.u 0 1 == d))
      let s1 := late.foldl (fun t x => t.conclude l x St.SUPERSEDED) s
      (s1.upd l (fun K => if d = 0x1F then K.unvoteAll 3 else K.vote 3 d 0)).conclude l c St.DONE) s

/-- SLEEP_QUERY (R489). -/
def execSleepQuery (l : LaneId) (tag : Half) (net : Bool) (s : State) : Out :=
  trellisL l tag net 0x42 (fun c s =>
    let L := s.lane l
    let held := (List.range 21).filter (fun d => d != 0 && (L.is F.PWR_D_VOTES_IMPL 0 d || L.anyVote d 2))
    let who := match held with
      | d :: _ => L.lowClient d
      | [] => 0
    let mask := held.foldl (fun m d => m + 2 ^ d) 0
    s.conclude l c St.DONE ([BitVec.ofNat 8 (b2n held.isEmpty), BitVec.ofNat 8 who, 0, 0] ++ bytesLE 4 mask)) s

/-! ### Configuration, Seal and Almanac -/

/-- CFG_WRITE (R173, R367, R384). -/
def execCfgWrite (l : LaneId) (tag : Half) (net : Bool) (s : State) : Out :=
  trellisL l tag net 0x50 (fun c s =>
    if c.u 1 3 ≠ 0 then s.conclude l c St.BAD_PARAM
    else if (s.lane l).cfgWaits c then s.upd l (fun L => L.defer c)
    else s.cfgApply l c) s

/-- CFG_READ: registers and header offsets of the blocks; what cannot be read ends BAD_PARAM. -/
def execCfgRead (l : LaneId) (tag : Half) (net : Bool) (s : State) : Out :=
  trellis l tag net 0x51 (fun c s =>
    let as := c.cfgAddrs
    if c.u 1 3 ≠ 0 ∨ !as.all (fun a => cfgReadOk a && (s.lane l).cfgReach a && ((s.lane l).busRead a).isSome) then
      s.conclude l c St.BAD_PARAM
    else
      let r := s.loadAll l .trioM as
      r.2.upd l (fun L => L.finish c St.DONE (r.1.flatMap (fun v => bytesLE 4 (v.getD 0))))) s

/-- The entries of the parameter image as a lane holds them (R362). -/
def Lane.imageNow (L : Lane) : List (Nat × Word) :=
  (sealImage false ++ sealImage true).map (fun e => (e.1, L.rd e.1 &&& BitVec.ofNat 32 e.2))

/-- SEAL_CONFIRM at its admission boundary (R365, R367): both references written unless locked, both computations begun. -/
def execSealConfirm (l : LaneId) (tag : Half) (net : Bool) (s : State) : Out :=
  trellisM l tag net 0x52 (fun c s => s.upd l (fun L =>
    if L.get F.SYS_LC_STATE ≠ 1 ∨ L.memberCount ≠ 3 then L.finish c St.NOT_IN_STATE
    else
      let v := c.u 0 4
      let L1 := if L.is F.SAF_SEALCTL_LOCKED then L else L.setReg R.SAF_SEALREF v
      let L2 := if L1.is F.HSF_SEALCMD_LOCKED then L1 else L1.setReg R.HSF_SEALREF v
      let L3 := (L2.put F.SAF_SEALCTL_BUSY 1).onSaf (fun x => { x with run := some { endAt := L2.now + ms 2, val := L2.trioSeal } })
      let L4 := (L3.put F.HSF_SEALCMD_BUSY 1).onHsf (fun h => { h with run := some { endAt := L3.now + ms 1, val := L3.hedgeSeal } })
      L4.accept c)) s

/-- The six Seals of the module as the lanes hold them. -/
def State.seals (s : State) : List Nat := LaneId.all.flatMap (fun x => [(s.lane x).reg R.SAF_SEAL, (s.lane x).reg R.HSF_SEAL])

/-- The decision of SEAL_CONFIRM once every computation has ended (R174, R365). -/
def State.sealDecide (s : State) (l : LaneId) (c : TCmd) : State :=
  let v := c.u 0 4
  let all := s.seals
  let mask := (LaneId.all.filter (fun x => (s.lane x).reg R.HSF_SEAL == v)).foldl (fun m x => m + 2 ^ x.idx) 0
  s.upd l (fun L =>
    if all.any (fun x => x != all.headD 0) then L.finish c St.VOTE_FAIL
    else if L.reg R.SAF_SEAL ≠ v then L.finish c St.BAD_PARAM
    else
      let copy := sealRecord (BitVec.ofNat 32 v) L.imageNow
      let L1 := L.onAlm (fun a => { a with sealRec := [copy, copy] })
      (L1.hsealLock.sealLock).finish c St.DONE (bytesLE 4 v ++ [BitVec.ofNat 8 mask]))

/-- SEAL_READ: the six Seals, and the lanes whose trio and Hedge are locked. -/
def execSealRead (l : LaneId) (tag : Half) (net : Bool) (s : State) : Out :=
  trellis l tag net 0x53 (fun c s =>
    let mask := (LaneId.all.filter (fun x => (s.lane x).is F.SAF_SEALCTL_LOCKED && (s.lane x).is F.HSF_SEALCMD_LOCKED)).foldl
      (fun m x => m + 2 ^ x.idx) 0
    s.upd l (fun L => L.finish c St.DONE (s.seals.flatMap (bytesLE 4) ++ [BitVec.ofNat 8 mask]))) s

/-- ALM_READ (R523). -/
def execAlmRead (l : LaneId) (tag : Half) (net : Bool) (s : State) : Out :=
  trellis l tag net 0x60 (fun c s => s.upd l (fun L =>
    let off := c.u 0 4
    let n := c.u 4 1
    if n = 0 ∨ 48 < n ∨ c.u 5 3 ≠ 0 ∨ 0x800 < off + n then L.finish c St.BAD_PARAM
    else L.finish c St.DONE (bytesLE n (L.almGet off n)))) s

/-- ALM_MARK (R523): in FIELD and SERVICE; written to NVM at once in SERVICE. -/
def execAlmMark (l : LaneId) (tag : Half) (net : Bool) (s : State) : Out :=
  trellisM l tag net 0x61 (fun c s => s.upd l (fun L =>
    let st := L.get F.SYS_LC_STATE
    let code := c.u 0 1
    if code = 0 ∨ 0xEF < code ∨ c.u 1 3 ≠ 0 then L.finish c St.BAD_PARAM
    else if st ≠ 2 ∧ st ≠ 3 then L.finish c St.NOT_IN_STATE
    else
      let r := L.almMark code 0 ((c.params.drop 4).take 16)
      (if st = 3 then r.1.almBegin else r.1).finish c St.DONE (bytesLE 4 r.2))) s

/-! ### Lanes and trio -/

/-- A register of lane `x` as lane `l` sees it: its own live, a peer's from its status window. -/
def Lane.windowReg (L : Lane) (x : LaneId) (r : Reg) : Nat :=
  if x = L.strap then L.regView (r.addr 0 0) else (L.mirrorWord (windowBase x + (r.addr 0 0 - 0x40000000))).toNat

/-- LANE_STATUS: state, graft and fallow words of the three lanes, and their SCORE. -/
def execLaneStatus (l : LaneId) (tag : Half) (net : Bool) (s : State) : Out :=
  trellis l tag net 0x70 (fun c s => s.upd l (fun L =>
    L.finish c St.DONE
      (LaneId.all.flatMap (fun x =>
        bytesLE 4 (L.windowReg x R.OZL_LSTATE) ++ bytesLE 4 (L.windowReg x R.OZL_GRAFT) ++ bytesLE 4 (L.windowReg x R.OZL_FALLOW)) ++
      LaneId.all.flatMap (fun x => bytesLE 2 (L.windowReg x R.OZL_SCORE))))) s

/-- GRAFT (Tables 2.9 and 2.10); deferred too in an ACTIVE lane that its Hedge holds off on its way to EXCLUDED. -/
def execGraft (l : LaneId) (tag : Half) (net : Bool) (s : State) : Out :=
  trellis l tag net 0x71 (fun c s => s.upd l (fun L =>
    if L.own = 4 ∨ (L.own = 3 ∧ 3 ≤ L.get F.OZL_GRAFT_ATTEMPTS) then L.finish c St.RESOURCE_PRUNED
    else if L.active && (L.sdl.held || L.is F.GD_LSTOP_REMOVED || L.is F.GD_LSTOP_XINH) then L.defer c
    else if L.own ≠ 3 then L.finish c St.NOT_IN_STATE
    else if L.ozl.graftDue ≤ L.now then L.startGraft.accept c
    else L.defer c)) s

/-- An element that PRUNE may take: not the last cover of a bridge's measurement (Table 4.9). -/
def Lane.pruneAllowed (L : Lane) (e : Elem) : Bool :=
  match e with
  | .cnv n => !L.outOfService (.cnv (partner n))
  | _ => true

/-- PRUNE of an element: a slice of it that runs is aborted, its cover put in place; a bank without a spare takes the lane with it, or
ends SAFETY_LIMIT (R380, R400). -/
def State.pruneElem (s : State) (l : LaneId) (c : TCmd) (e : Elem) : State :=
  let L := s.lane l
  if L.pruned e then s.upd l (fun K => K.finish c St.DONE)
  else if !L.pruneAllowed e then s.upd l (fun K => K.finish c St.SAFETY_LIMIT)
  else
    let s1 := match L.test.slice with
      | some x => if x.elem = e then s.abortSlice l else s
      | none => s
    match e with
    | .sram k =>
      let r := (s1.lane l).bankOut none k
      if r.2 then
        let p := (s1.setLane l r.1).loseLane l
        if p.2 then s1.upd l (fun K => K.finish c St.SAFETY_LIMIT) else p.1.upd l (fun K => K.finish c St.DONE)
      else s1.setLane l (r.1.finish c St.DONE)
    | e => s1.upd l (fun K => (K.pruneAny e).finish c St.DONE)

/-- PRUNE (Tables 2.9, 2.10, 4.10): class 0 the lane, else an element. -/
def execPrune (l : LaneId) (tag : Half) (net : Bool) (s : State) : Out :=
  trellis l tag net 0x72 (fun c s =>
    if c.u 2 2 ≠ 0 then s.upd l (fun L => L.finish c St.BAD_PARAM)
    else if c.u 0 1 = 0 then
      if c.u 1 1 ≠ 0 then s.upd l (fun L => L.finish c St.BAD_PARAM)
      else
        let s1 := s.upd l (fun L => (L.cmdq.queue.filter (fun d => d.op == 0x71 && d.phase == .deferred)).foldl
          (fun K d => K.finish d St.SUPERSEDED) L)
        let p := s1.planPrune l
        p.1.upd l (fun L => L.finish c p.2)
    else match elemAt (c.u 0 1) (c.u 1 1) with
      | none => s.upd l (fun L => L.finish c St.BAD_PARAM)
      | some e => s.pruneElem l c e) s

/-- A trio request's end as the command's phase. -/
def Lane.trioTaken (r : Lane × ReqEnd) (c : TCmd) : Lane :=
  match r.2 with
  | .started => r.1.accept c
  | .deferred => r.1.defer c
  | .refused st => r.1.finish c st

/-- TRIO_SPLIT (Table 3.5): the free core starts at the address given. -/
def execTrioSplit (l : LaneId) (tag : Half) (net : Bool) (s : State) : Out :=
  trellis l tag net 0x73 (fun c s => s.upd l (fun L =>
    if 1 < c.u 0 1 ∨ c.u 1 3 ≠ 0 then L.finish c St.BAD_PARAM
    else
      let r := L.splitRequest (c.u 0 1 == 1)
      match r.2 with
      | .refused st => L.finish c st
      | _ => (Lane.trioTaken r c).setReg R.TRIO_FREE_PC (c.u 4 4))) s

/-- TRIO_JOIN (Table 3.5). -/
def execTrioJoin (l : LaneId) (tag : Half) (net : Bool) (s : State) : Out :=
  trellis l tag net 0x74 (fun c s => s.upd l (fun L => Lane.trioTaken L.joinRequest c)) s

/-! ### Deferred commands (R169) -/

/-- A deferred command starts when its target has reached the end state it waits for. -/
def State.startDeferred (s : State) (l : LaneId) (c : TCmd) : State :=
  let L := s.lane l
  let a := c.actI
  if moves c then
    if (L.act a).bridge == .enabled then (let lv := s.envLevel l a; s.upd l (fun K => K.startMotion lv c)) else s
  else if c.op = 0x15 then
    if (L.act a).bridge == .disabled then s.upd l (fun K => (K.enableBridge a).accept c) else s
  else if c.op = 0x30 then
    match elemAt (c.u 0 1) (c.u 1 1) with
    | some e => if sliceReady s l e then s.startSlice l c e else s
    | none => s
  else if c.op = 0x31 then if s.fallowOk l then s.startFallow l c else s
  else if c.op = 0x32 then if L.is F.PROT_ODIAG_BUSY then s else s.upd l (fun K => K.setCmd { c with phase := .admitted })
  else if c.op = 0x40 then if L.dropLate (c.u 0 1) then s else s.upd l (fun K => K.accept c)
  else if c.op = 0x50 then if L.cfgWaits c then s else s.cfgApply l c
  else if c.op = 0x71 then
    if L.own = 3 ∧ L.ozl.graftDue ≤ L.now ∧ L.get F.OZL_GRAFT_ATTEMPTS < 3 then s.upd l (fun K => K.startGraft.accept c)
    else if L.own = 0 ∧ L.get F.OZL_GRAFT_PHASE ≠ 0 then s.upd l (fun K => K.accept c)
    else s
  else if c.op = 0x73 ∨ c.op = 0x74 then if L.trio.deferred.isSome then s else s.upd l (fun K => K.accept c)
  else s

/-- DEFERRED_START (R169). -/
def execDeferredStart (l : LaneId) (tag : Half) (net : Bool) (s : State) : Out :=
  match (s.lane l).cmd tag net with
  | some c => .next (if (s.lane l).up && c.phase == .deferred then s.startDeferred l c else s)
  | none => .next s

/-- The limit of a deferral in ticks: 2 h for FALLOW_REQUEST, none for GRAFT, else 1 s (R169, R95). -/
def deferLimit (op : Nat) : Option Nat := if op = 0x71 then none else if op = 0x31 then some (sec 7200) else some (sec 1)

/-- A command ended in its own way: a lane- or single-scope one of an exchange of outcomes (R168), any other at once. -/
def State.endCmd (s : State) (l : LaneId) (c : TCmd) (status : Nat) (res : List Byte := []) : State :=
  match opRow c.op with
  | some r => if r.scope == .lanes then s.conclude l c status res else s.upd l (fun L => L.finish c status res)
  | none => s.upd l (fun L => L.finish c status res)

/-- DEFER_TIMEOUT (R169, R95). -/
def execDeferTimeout (l : LaneId) (tag : Half) (net : Bool) (s : State) : Out :=
  match (s.lane l).cmd tag net, ((s.lane l).cmd tag net).bind (fun c => deferLimit c.op) with
  | some c, some d =>
    .next (if (s.lane l).up && c.phase == .deferred && (s.lane l).since c.startAt d then
      (s.upd l (fun L =>
        let L1 := if c.op = 0x73 ∨ c.op = 0x74 then
          (L.onTrio (fun t => { t with deferred := none })).put F.TRIO_SPLIT_DEFER 0 else L
        L1.note Ev.CMDQ_DEFER_TIMEOUT)).endCmd l c St.TIMEOUT
      else s)
  | _, _ => .next s

/-! ### Completion (R171, R172) -/

/-- The final status of a motion or clamp command: SAFETY_LIMIT where a limit applied (R176). -/
def TCmd.motionStatus (c : TCmd) : Nat := if c.limited = 0 then St.DONE else St.SAFETY_LIMIT

/-- A service motion ended: SDI disarmed (R350). -/
def Lane.endService (L : Lane) (c : TCmd) : Lane := (L.armSdi c.actI false).onAct c.actI (fun t => { t with kind := .none })

/-- The outcome of the reference check a command asked for, taken. -/
def Lane.takeRef (L : Lane) (c : TCmd) : Option RefRes := L.icv.last.find? (fun r => r.by_ == .cmd c.tag c.net)

/-- A running command whose completion condition holds ends. `value` is what a service motion found, `ok` that the condition which lies
outside the module's state holds: the clearance of CLAMP_RELEASE, the detection of CALIPER_KISSPOINT, the offset of ENCODER_ALIGN. -/
def State.arrive (s : State) (l : LaneId) (c : TCmd) (value : Word) (ok : Bool) : State :=
  let L := s.lane l
  let a := c.actI
  let t := L.act a
  let done (cond : Bool) (status : Nat) (res : List Byte) : State := if cond then s.endCmd l c status res else s
  match c.op with
  | 0x03 => match L.alm.lc with
    | some r => if r.tag == c.tag && r.net == c.net && r.written && !L.lcMissing r then s.upd l (fun K => K.lcComplete r c) else s
    | none => s
  | 0x10 | 0x12 => done (decide (5 ≤ t.near)) c.motionStatus (L.endResult c)
  | 0x11 => done (decide (t.rampEnd ≤ L.now)) c.motionStatus (L.endResult c)
  | 0x13 => done (ok && decide (t.rampEnd ≤ L.now)) c.motionStatus (L.endResult c)
  | 0x15 => done (t.bridge == .enabled) St.DONE [BitVec.ofNat 8 (s.runMask l a)]
  | 0x16 => done (t.bridge == .disabled) St.DONE []
  | 0x17 => done (L.fbit F.GD_VCMD_ASC a) St.DONE []
  | 0x20 => done (L.calComplete c) St.DONE (L.calMasks c)
  | 0x22 =>
    if ok && decide (L.measured a ≤ t.service) then s.upd l (fun K =>
      ((K.endService c).onAct a (fun t => { t with kissPoint := value.toInt })).finish c St.DONE
        (bytesLE 4 value.toNat ++ bytesLE 4 (ofSigned 32 (K.measured a))))
    else s
  | 0x23 => if ok then s.upd l (fun K => (K.endService c).finish c St.DONE (bytesLE 4 value.toNat)) else s
  | 0x32 => done (!L.is F.PROT_ODIAG_BUSY) St.DONE (L.odBytes c)
  | 0x33 => match L.takeRef c with
    | some r =>
      (s.upd l (fun K => K.onIcv (fun i => { i with last := i.last.filter (fun x => x != r) }))).endCmd l c St.DONE
        ([BitVec.ofNat 8 r.pass, 0] ++ bytesLE 2 r.worst)
    | none => s
  | 0x40 => done (L.domReached (c.u 0 1) (c.u 1 1)) St.DONE [BitVec.ofNat 8 (L.get F.PWR_D_STAT_STATE 0 (c.u 0 1))]
  | 0x52 =>
    if LaneId.all.all (fun x => !(s.lane x).is F.SAF_SEALCTL_BUSY && !(s.lane x).is F.HSF_SEALCMD_BUSY) then s.sealDecide l c else s
  | _ => s

/-- COMMAND_ARRIVAL (R172). -/
def execCommandArrival (l : LaneId) (tag : Half) (net : Bool) (value : Word) (ok : Bool) (s : State) : Out :=
  match (s.lane l).cmd tag net with
  | some c => .next (if (s.lane l).up && c.phase == .running then s.arrive l c value ok else s)
  | none => .next s

/-- The execution limits of Table 4.9 that end a command TIMEOUT, as the instant they pass. -/
def TCmd.limitAt (c : TCmd) : Option Nat :=
  match c.op with
  | 0x10 | 0x12 => some (c.planned + ms 500)
  | 0x15 => some (c.startAt + ms 20)
  | 0x22 => some (c.startAt + ms 1500)
  | 0x23 => some (c.startAt + ms 500)
  | 0x52 => some (c.startAt + ms 20)
  | _ => none

/-- COMMAND_TIMEOUT (R172): the command ends TIMEOUT, the target set-point stays. -/
def execCommandTimeout (l : LaneId) (tag : Half) (net : Bool) (s : State) : Out :=
  s.on l (fun L => L.up && (match L.cmd tag net with
      | some c => c.phase == .running && (match c.limitAt with
        | some t => decide (t ≤ L.now)
        | none => false)
      | none => false)) (fun L =>
    match L.cmd tag net with
    | some c => (if serves c then L.endService c else L).finish c St.TIMEOUT (L.endResult c)
    | none => L)

end Sys2Proof.Machine
end

