-- ==== Sys2Proof/Machine/Dispatch.lean ====
section
/-!
DEFINITION. Machine/Dispatch.lean: one arm per command, each a direct call of its meaning.
-/

namespace Sys2Proof.Machine

def exec (i : Instr) (s : State) : Host.Outcome State Fault Refusal :=
  match i with
  | .registerWrite l m addr val => Sys2Proof.Machine.execRegisterWrite l m addr val s
  | .leg l hdr beat0 beat1 crc => Sys2Proof.Machine.execLeg l hdr beat0 beat1 crc s
  | .legPeriodic l => Sys2Proof.Machine.execLegPeriodic l s
  | .legTimeout l => Sys2Proof.Machine.execLegTimeout l s
  | .vref l flags hdr crc => Sys2Proof.Machine.execVref l flags hdr crc s
  | .vcell l cell hdr crc => Sys2Proof.Machine.execVcell l cell hdr crc s
  | .timeSend l => Sys2Proof.Machine.execTimeSend l s
  | .time l hdr crc => Sys2Proof.Machine.execTime l hdr crc s
  | .timeLost l => Sys2Proof.Machine.execTimeLost l s
  | .irq l hdr crc => Sys2Proof.Machine.execIrq l hdr crc s
  | .irqRefresh l => Sys2Proof.Machine.execIrqRefresh l s
  | .wr l off data hdr crc => Sys2Proof.Machine.execWr l off data hdr crc s
  | .rd l off hdr crc => Sys2Proof.Machine.execRd l off hdr crc s
  | .rsp l hdr crc => Sys2Proof.Machine.execRsp l hdr crc s
  | .rspTimeout l => Sys2Proof.Machine.execRspTimeout l s
  | .xtalLoss l => Sys2Proof.Machine.execXtalLoss l s
  | .pllUnlock l => Sys2Proof.Machine.execPllUnlock l s
  | .clkmon l => Sys2Proof.Machine.execClkmon l s
  | .aonXtalLost l => Sys2Proof.Machine.execAonXtalLost l s
  | .aonXtalClear l ran => Sys2Proof.Machine.execAonXtalClear l ran s
  | .clkLevelReq l req => Sys2Proof.Machine.execClkLevelReq l req s
  | .clkSwitch l => Sys2Proof.Machine.execClkSwitch l s
  | .timeSteer l => Sys2Proof.Machine.execTimeSteer l s
  | .timeDrift l => Sys2Proof.Machine.execTimeDrift l s
  | .solo l => Sys2Proof.Machine.execSolo l s
  | .clkMtLoRead l m => Sys2Proof.Machine.execClkMtLoRead l m s
  | .hedgePowerOn l => Sys2Proof.Machine.execHedgePowerOn l s
  | .vbatLow l => Sys2Proof.Machine.execVbatLow l s
  | .laneReset l src => Sys2Proof.Machine.execLaneReset l src s
  | .sysRstreq l val => Sys2Proof.Machine.execSysRstreq l val s
  | .resetRelease l src => Sys2Proof.Machine.execResetRelease l src s
  | .crystalValid l => Sys2Proof.Machine.execCrystalValid l s
  | .hedgeLinkTrained l up => Sys2Proof.Machine.execHedgeLinkTrained l up s
  | .kernelRelease l imageOk app => Sys2Proof.Machine.execKernelRelease l imageOk app s
  | .srst l b n => Sys2Proof.Machine.execSrst l b n s
  | .evqClr l b n => Sys2Proof.Machine.execEvqClr l b n s
  | .evqRead l m b n e => Sys2Proof.Machine.execEvqRead l m b n e s
  | .lbTokenExpire l b n => Sys2Proof.Machine.execLbTokenExpire l b n s
  | .claim l ctx also => Sys2Proof.Machine.execClaim l ctx also s
  | .complete l ctx src => Sys2Proof.Machine.execComplete l ctx src s
  | .mirrorStale l peer => Sys2Proof.Machine.execMirrorStale l peer s
  | .linkCycle l link => Sys2Proof.Machine.execLinkCycle l link s
  | .vote l link ns cell => Sys2Proof.Machine.execVote l link ns cell s
  | .relayVote l link ns cell => Sys2Proof.Machine.execRelayVote l link ns cell s
  | .heart l link ns cell => Sys2Proof.Machine.execHeart l link ns cell s
  | .stream l link ns cell item => Sys2Proof.Machine.execStream l link ns cell item s
  | .linkHeartLoss l link => Sys2Proof.Machine.execLinkHeartLoss l link s
  | .linkRetrain l link => Sys2Proof.Machine.execLinkRetrain l link s
  | .linkTrained l link delayNs => Sys2Proof.Machine.execLinkTrained l link delayNs s
  | .cellBuild l => Sys2Proof.Machine.execCellBuild l s
  | .cellSend l => Sys2Proof.Machine.execCellSend l s
  | .saddleDecision l => Sys2Proof.Machine.execSaddleDecision l s
  | .xinhAssert l peer => Sys2Proof.Machine.execXinhAssert l peer s
  | .xinhStopped l => Sys2Proof.Machine.execXinhStopped l s
  | .xinhRelease l => Sys2Proof.Machine.execXinhRelease l s
  | .xinhSingle l => Sys2Proof.Machine.execXinhSingle l s
  | .xinhReadback l peer level => Sys2Proof.Machine.execXinhReadback l peer level s
  | .sdlXinhStoppedClear l => Sys2Proof.Machine.execSdlXinhStoppedClear l s
  | .voteBoundary l => Sys2Proof.Machine.execVoteBoundary l s
  | .mark10ms l writes => Sys2Proof.Machine.execMark10ms l writes s
  | .graftHoldoff l => Sys2Proof.Machine.execGraftHoldoff l s
  | .graftPhaseDone l => Sys2Proof.Machine.execGraftPhaseDone l s
  | .graftPhaseTimeout l => Sys2Proof.Machine.execGraftPhaseTimeout l s
  | .formation l => Sys2Proof.Machine.execFormation l s
  | .formAlone l => Sys2Proof.Machine.execFormAlone l s
  | .fallowOverdue l => Sys2Proof.Machine.execFallowOverdue l s
  | .fallowStepEnd l parts found pass => Sys2Proof.Machine.execFallowStepEnd l parts found pass s
  | .fallowRestart l => Sys2Proof.Machine.execFallowRestart l s
  | .fallowAbort l => Sys2Proof.Machine.execFallowAbort l s
  | .extLinkCycle l => Sys2Proof.Machine.execExtLinkCycle l s
  | .extHeart l ns cell hb => Sys2Proof.Machine.execExtHeart l ns cell hb s
  | .pairSwitchover l => Sys2Proof.Machine.execPairSwitchover l s
  | .coreMismatch l o0 o1 o2 => Sys2Proof.Machine.execCoreMismatch l o0 o1 o2 s
  | .handOverPoint l => Sys2Proof.Machine.execHandOverPoint l s
  | .resyncDone l => Sys2Proof.Machine.execResyncDone l s
  | .injection l out => Sys2Proof.Machine.execInjection l out s
  | .svcInjection l caught => Sys2Proof.Machine.execSvcInjection l caught s
  | .svcMismatch l => Sys2Proof.Machine.execSvcMismatch l s
  | .cstComplete l passed => Sys2Proof.Machine.execCstComplete l passed s
  | .cstTimeout l core => Sys2Proof.Machine.execCstTimeout l core s
  | .trioSplitReq l => Sys2Proof.Machine.execTrioSplitReq l s
  | .trioSplitAll l => Sys2Proof.Machine.execTrioSplitAll l s
  | .trioSplitJoin l => Sys2Proof.Machine.execTrioSplitJoin l s
  | .debugHalt l core => Sys2Proof.Machine.execDebugHalt l core s
  | .debugResume l => Sys2Proof.Machine.execDebugResume l s
  | .svcHalt l core => Sys2Proof.Machine.execSvcHalt l core s
  | .alloc l m ring => Sys2Proof.Machine.execAlloc l m ring s
  | .post l m ring slot => Sys2Proof.Machine.execPost l m ring slot s
  | .allocLapse l ring slot => Sys2Proof.Machine.execAllocLapse l ring slot s
  | .intake l src => Sys2Proof.Machine.execIntake l src s
  | .cplHeadWrite l head => Sys2Proof.Machine.execCplHeadWrite l head s
  | .replyPost l => Sys2Proof.Machine.execReplyPost l s
  | .deferredStart l tag net => Sys2Proof.Machine.execDeferredStart l tag net s
  | .deferTimeout l tag net => Sys2Proof.Machine.execDeferTimeout l tag net s
  | .commandArrival l tag net value ok => Sys2Proof.Machine.execCommandArrival l tag net value ok s
  | .commandTimeout l tag net => Sys2Proof.Machine.execCommandTimeout l tag net s
  | .ident l tag net => Sys2Proof.Machine.execIdent l tag net s
  | .status l tag net => Sys2Proof.Machine.execStatus l tag net s
  | .lifecycle l tag net => Sys2Proof.Machine.execLifecycle l tag net s
  | .steerAngle l tag net => Sys2Proof.Machine.execSteerAngle l tag net s
  | .steerTorque l tag net => Sys2Proof.Machine.execSteerTorque l tag net s
  | .clampForce l tag net => Sys2Proof.Machine.execClampForce l tag net s
  | .clampRelease l tag net => Sys2Proof.Machine.execClampRelease l tag net s
  | .hold l tag net => Sys2Proof.Machine.execHold l tag net s
  | .bridgeEnable l tag net => Sys2Proof.Machine.execBridgeEnable l tag net s
  | .bridgeDisable l tag net => Sys2Proof.Machine.execBridgeDisable l tag net s
  | .ascBrake l tag net => Sys2Proof.Machine.execAscBrake l tag net s
  | .cnvSelfcal l tag net => Sys2Proof.Machine.execCnvSelfcal l tag net s
  | .angleZero l tag net => Sys2Proof.Machine.execAngleZero l tag net s
  | .caliperKisspoint l tag net => Sys2Proof.Machine.execCaliperKisspoint l tag net s
  | .encoderAlign l tag net => Sys2Proof.Machine.execEncoderAlign l tag net s
  | .weedSlice l tag net => Sys2Proof.Machine.execWeedSlice l tag net s
  | .fallowRequest l tag net => Sys2Proof.Machine.execFallowRequest l tag net s
  | .offstateDiag l tag net vmMv => Sys2Proof.Machine.execOffstateDiag l tag net vmMv s
  | .icvRefcheck l tag net => Sys2Proof.Machine.execIcvRefcheck l tag net s
  | .powerVote l tag net => Sys2Proof.Machine.execPowerVote l tag net s
  | .powerUnvote l tag net => Sys2Proof.Machine.execPowerUnvote l tag net s
  | .sleepQuery l tag net => Sys2Proof.Machine.execSleepQuery l tag net s
  | .cfgWrite l tag net => Sys2Proof.Machine.execCfgWrite l tag net s
  | .cfgRead l tag net => Sys2Proof.Machine.execCfgRead l tag net s
  | .sealConfirm l tag net => Sys2Proof.Machine.execSealConfirm l tag net s
  | .sealRead l tag net => Sys2Proof.Machine.execSealRead l tag net s
  | .almRead l tag net => Sys2Proof.Machine.execAlmRead l tag net s
  | .almMark l tag net => Sys2Proof.Machine.execAlmMark l tag net s
  | .laneStatus l tag net => Sys2Proof.Machine.execLaneStatus l tag net s
  | .graft l tag net => Sys2Proof.Machine.execGraft l tag net s
  | .prune l tag net => Sys2Proof.Machine.execPrune l tag net s
  | .trioSplit l tag net => Sys2Proof.Machine.execTrioSplit l tag net s
  | .trioJoin l tag net => Sys2Proof.Machine.execTrioJoin l tag net s
  | .overrun l n => Sys2Proof.Machine.execOverrun l n s
  | .resel l n m => Sys2Proof.Machine.execResel l n m s
  | .wbufWrite l n addr val => Sys2Proof.Machine.execWbufWrite l n addr val s
  | .wbufDrain l n => Sys2Proof.Machine.execWbufDrain l n s
  | .ld l n a ea => Sys2Proof.Machine.execLd l n a ea s
  | .st l n a ea => Sys2Proof.Machine.execSt l n a ea s
  | .add l n a ea => Sys2Proof.Machine.execAdd l n a ea s
  | .sub l n a ea => Sys2Proof.Machine.execSub l n a ea s
  | .ldk l n ea => Sys2Proof.Machine.execLdk l n ea s
  | .mpy l n a ea => Sys2Proof.Machine.execMpy l n a ea s
  | .mac l n a ea => Sys2Proof.Machine.execMac l n a ea s
  | .msu l n a ea => Sys2Proof.Machine.execMsu l n a ea s
  | .cmp l n a ea => Sys2Proof.Machine.execCmp l n a ea s
  | .lim l n a ea => Sys2Proof.Machine.execLim l n a ea s
  | .ldx l n x addr => Sys2Proof.Machine.execLdx l n x addr s
  | .stx l n x addr => Sys2Proof.Machine.execStx l n x addr s
  | .lut l n a ea => Sys2Proof.Machine.execLut l n a ea s
  | .divA l n a ea => Sys2Proof.Machine.execDivA l n a ea s
  | .mpyp l n a p q => Sys2Proof.Machine.execMpyp l n a p q s
  | .macp l n a p q => Sys2Proof.Machine.execMacp l n a p q s
  | .msbp l n a p q => Sys2Proof.Machine.execMsbp l n a p q s
  | .movA l n a b => Sys2Proof.Machine.execMovA l n a b s
  | .adda l n a b => Sys2Proof.Machine.execAdda l n a b s
  | .suba l n a b => Sys2Proof.Machine.execSuba l n a b s
  | .neg l n a => Sys2Proof.Machine.execNeg l n a s
  | .absA l n a => Sys2Proof.Machine.execAbsA l n a s
  | .clr l n a => Sys2Proof.Machine.execClr l n a s
  | .sha l n a k => Sys2Proof.Machine.execSha l n a k s
  | .sat l n a => Sys2Proof.Machine.execSat l n a s
  | .maxA l n a b => Sys2Proof.Machine.execMaxA l n a b s
  | .minA l n a b => Sys2Proof.Machine.execMinA l n a b s
  | .mulk l n a b => Sys2Proof.Machine.execMulk l n a b s
  | .cmpa l n a b => Sys2Proof.Machine.execCmpa l n a b s
  | .movk l n a => Sys2Proof.Machine.execMovk l n a s
  | .ldi l n a imm => Sys2Proof.Machine.execLdi l n a imm s
  | .addi l n a imm => Sys2Proof.Machine.execAddi l n a imm s
  | .lki l n imm => Sys2Proof.Machine.execLki l n imm s
  | .lxi l n x imm => Sys2Proof.Machine.execLxi l n x imm s
  | .axi l n x imm => Sys2Proof.Machine.execAxi l n x imm s
  | .rep l n imm => Sys2Proof.Machine.execRep l n imm s
  | .get l n a item => Sys2Proof.Machine.execGet l n a item s
  | .outP l n a port share => Sys2Proof.Machine.execOutP l n a port share s
  | .jmp l n cond target => Sys2Proof.Machine.execJmp l n cond target s
  | .call l n target => Sys2Proof.Machine.execCall l n target s
  | .ret l n => Sys2Proof.Machine.execRet l n s
  | .endAct l n => Sys2Proof.Machine.execEndAct l n s
  | .nop l n => Sys2Proof.Machine.execNop l n s
  | .driveFrame l k iu iv iw vm chk => Sys2Proof.Machine.execDriveFrame l k iu iv iw vm chk s
  | .decision l k => Sys2Proof.Machine.execDecision l k s
  | .sampleLost l k => Sys2Proof.Machine.execSampleLost l k s
  | .isum l k => Sys2Proof.Machine.execIsum l k s
  | .magnetised l k => Sys2Proof.Machine.execMagnetised l k s
  | .sixEnter l k => Sys2Proof.Machine.execSixEnter l k s
  | .takeover l k => Sys2Proof.Machine.execTakeover l k s
  | .rearm l k => Sys2Proof.Machine.execRearm l k s
  | .rearmRefused l k => Sys2Proof.Machine.execRearmRefused l k s
  | .obsLost l k => Sys2Proof.Machine.execObsLost l k s
  | .catchWindow l k => Sys2Proof.Machine.execCatchWindow l k s
  | .catchDone l k => Sys2Proof.Machine.execCatchDone l k s
  | .catchFail l k => Sys2Proof.Machine.execCatchFail l k s
  | .prechargeTimeout l k => Sys2Proof.Machine.execPrechargeTimeout l k s
  | .magnetiseTimeout l k => Sys2Proof.Machine.execMagnetiseTimeout l k s
  | .rampdownTimeout l k => Sys2Proof.Machine.execRampdownTimeout l k s
  | .noregClear l k => Sys2Proof.Machine.execNoregClear l k s
  | .clim l k => Sys2Proof.Machine.execClim l k s
  | .swcntRead l m k => Sys2Proof.Machine.execSwcntRead l m k s
  | .uvloHs l leg => Sys2Proof.Machine.execUvloHs l leg s
  | .uvloLs l b => Sys2Proof.Machine.execUvloLs l b s
  | .uvloCp l => Sys2Proof.Machine.execUvloCp l s
  | .uvloRelease l supply => Sys2Proof.Machine.execUvloRelease l supply s
  | .grdy l b => Sys2Proof.Machine.execGrdy l b s
  | .offCmd l b => Sys2Proof.Machine.execOffCmd l b s
  | .deadTime l => Sys2Proof.Machine.execDeadTime l s
  | .dtFuse l m val vbatMv => Sys2Proof.Machine.execDtFuse l m val vbatMv s
  | .dtFuseDone l readback => Sys2Proof.Machine.execDtFuseDone l readback s
  | .ilkRelease l mask => Sys2Proof.Machine.execIlkRelease l mask s
  | .scDetect l sw drainSource => Sys2Proof.Machine.execScDetect l sw drainSource s
  | .scTrip l b => Sys2Proof.Machine.execScTrip l b s
  | .scHoldEnd l b => Sys2Proof.Machine.execScHoldEnd l b s
  | .latchRelease l mask => Sys2Proof.Machine.execLatchRelease l mask s
  | .lstopClr l => Sys2Proof.Machine.execLstopClr l s
  | .ov1 l => Sys2Proof.Machine.execOv1 l s
  | .brkOff l => Sys2Proof.Machine.execBrkOff l s
  | .chopFault l => Sys2Proof.Machine.execChopFault l s
  | .ov2 l => Sys2Proof.Machine.execOv2 l s
  | .hwAsc l => Sys2Proof.Machine.execHwAsc l s
  | .hwAscEnd l => Sys2Proof.Machine.execHwAscEnd l s
  | .ov3 l => Sys2Proof.Machine.execOv3 l s
  | .ov3Clear l => Sys2Proof.Machine.execOv3Clear l s
  | .chopStuck l => Sys2Proof.Machine.execChopStuck l s
  | .vmUv l => Sys2Proof.Machine.execVmUv l s
  | .vmuvClear l => Sys2Proof.Machine.execVmuvClear l s
  | .odiagStart l bridges vmMv => Sys2Proof.Machine.execOdiagStart l bridges vmMv s
  | .odiagStepEnd l found vmMv => Sys2Proof.Machine.execOdiagStepEnd l found vmMv s
  | .chopTest l vmMv => Sys2Proof.Machine.execChopTest l vmMv s
  | .chopTestEnd l pass => Sys2Proof.Machine.execChopTestEnd l pass s
  | .sopTest l sw => Sys2Proof.Machine.execSopTest l sw s
  | .sopTestEnd l pass => Sys2Proof.Machine.execSopTestEnd l pass s
  | .sopTestDue l sw => Sys2Proof.Machine.execSopTestDue l sw s
  | .stoPin l => Sys2Proof.Machine.execStoPin l s
  | .stoRelease l => Sys2Proof.Machine.execStoRelease l s
  | .aliveToggle l => Sys2Proof.Machine.execAliveToggle l s
  | .aliveKick l key => Sys2Proof.Machine.execAliveKick l key s
  | .kickLapse l => Sys2Proof.Machine.execKickLapse l s
  | .sequenceTrigger l n inj => Sys2Proof.Machine.execSequenceTrigger l n inj s
  | .rseqGo l n => Sys2Proof.Machine.execRseqGo l n s
  | .iseqGo l n => Sys2Proof.Machine.execIseqGo l n s
  | .entryStart l n half => Sys2Proof.Machine.execEntryStart l n half s
  | .conversionEnd l n code => Sys2Proof.Machine.execConversionEnd l n code s
  | .resRead l m n inj i_ => Sys2Proof.Machine.execResRead l m n inj i_ s
  | .calGo l n => Sys2Proof.Machine.execCalGo l n s
  | .calDone l n m => Sys2Proof.Machine.execCalDone l n m s
  | .icvWindowEnd l counts ovl => Sys2Proof.Machine.execIcvWindowEnd l counts ovl s
  | .crossCheck l => Sys2Proof.Machine.execCrossCheck l s
  | .suspectFallback l n => Sys2Proof.Machine.execSuspectFallback l n s
  | .suspectCheckDone l n => Sys2Proof.Machine.execSuspectCheckDone l n s
  | .refchkGo l => Sys2Proof.Machine.execRefchkGo l s
  | .refcheckStart l => Sys2Proof.Machine.execRefcheckStart l s
  | .refcheckEnd l meas => Sys2Proof.Machine.execRefcheckEnd l meas s
  | .quadEdge l hedge n a b => Sys2Proof.Machine.execQuadEdge l hedge n a b s
  | .indexEvent l n rising => Sys2Proof.Machine.execIndexEvent l n rising s
  | .hallStep l hedge n uvw => Sys2Proof.Machine.execHallStep l hedge n uvw s
  | .rpeak l r => Sys2Proof.Machine.execRpeak l r s
  | .resSamplePair l r => Sys2Proof.Machine.execResSamplePair l r s
  | .resLos l r => Sys2Proof.Machine.execResLos l r s
  | .resTrackStep l r => Sys2Proof.Machine.execResTrackStep l r s
  | .sentFrame l hedge n f => Sys2Proof.Machine.execSentFrame l hedge n f s
  | .sentTimeout l n => Sys2Proof.Machine.execSentTimeout l n s
  | .sentTrigger l n => Sys2Proof.Machine.execSentTrigger l n s
  | .probeEdge l p rising => Sys2Proof.Machine.execProbeEdge l p rising s
  | .prbValRead l m p => Sys2Proof.Machine.execPrbValRead l m p s
  | .prbTRead l m p => Sys2Proof.Machine.execPrbTRead l m p s
  | .qValRead l m q => Sys2Proof.Machine.execQValRead l m q s
  | .cmpTgtWrite l q u ctl val => Sys2Proof.Machine.execCmpTgtWrite l q u ctl val s
  | .speedUpdate l => Sys2Proof.Machine.execSpeedUpdate l s
  | .speedZero l n => Sys2Proof.Machine.execSpeedZero l n s
  | .violationConfirm l fn act => Sys2Proof.Machine.execViolationConfirm l fn act s
  | .safSto l act => Sys2Proof.Machine.execSafSto l act s
  | .hsfStop l fn => Sys2Proof.Machine.execHsfStop l fn s
  | .hsfStoReq l req => Sys2Proof.Machine.execHsfStoReq l req s
  | .hsfStoRel l req rel => Sys2Proof.Machine.execHsfStoRel l req rel s
  | .slrLimitChange l hedge => Sys2Proof.Machine.execSlrLimitChange l hedge s
  | .l1Late l => Sys2Proof.Machine.execL1Late l s
  | .hunavail l inp => Sys2Proof.Machine.execHunavail l inp s
  | .sbhCheckEnd l act => Sys2Proof.Machine.execSbhCheckEnd l act s
  | .sealChk l => Sys2Proof.Machine.execSealChk l s
  | .sealLock l key => Sys2Proof.Machine.execSealLock l key s
  | .hsealChk l => Sys2Proof.Machine.execHsealChk l s
  | .hsealLock l => Sys2Proof.Machine.execHsealLock l s
  | .sealDone l hedge => Sys2Proof.Machine.execSealDone l hedge s
  | .sealRecheck l hedge => Sys2Proof.Machine.execSealRecheck l hedge s
  | .sliceSchedule l => Sys2Proof.Machine.execSliceSchedule l s
  | .sliceGo l cls idx => Sys2Proof.Machine.execSliceGo l cls idx s
  | .sliceStart l => Sys2Proof.Machine.execSliceStart l s
  | .sliceEnd l pass => Sys2Proof.Machine.execSliceEnd l pass s
  | .sliceAbort l odNotRun => Sys2Proof.Machine.execSliceAbort l odNotRun s
  | .scrubPass l => Sys2Proof.Machine.execScrubPass l s
  | .remapDone l => Sys2Proof.Machine.execRemapDone l s
  | .nvmSpared l => Sys2Proof.Machine.execNvmSpared l s
  | .decoderTest l bad => Sys2Proof.Machine.execDecoderTest l bad s
  | .canRxFrame l n f err => Sys2Proof.Machine.execCanRxFrame l n f err s
  | .objLockRead l n m by_ => Sys2Proof.Machine.execObjLockRead l n m by_ s
  | .objUnlockRead l n m by_ => Sys2Proof.Machine.execObjUnlockRead l n m by_ s
  | .lockLapse l n m => Sys2Proof.Machine.execLockLapse l n m s
  | .txrq l n k mask => Sys2Proof.Machine.execTxrq l n k mask s
  | .txcan l n k mask => Sys2Proof.Machine.execTxcan l n k mask s
  | .arbitration l n memErr => Sys2Proof.Machine.execArbitration l n memErr s
  | .canTxEnd l n res ts tdcv => Sys2Proof.Machine.execCanTxEnd l n res ts tdcv s
  | .recover l n => Sys2Proof.Machine.execRecover l n s
  | .busOffRecovery l n => Sys2Proof.Machine.execBusOffRecovery l n s
  | .canWakeEdge l n => Sys2Proof.Machine.execCanWakeEdge l n s
  | .canWakeFrame l n w => Sys2Proof.Machine.execCanWakeFrame l n w s
  | .listenTimeout l => Sys2Proof.Machine.execListenTimeout l s
  | .integration l cycle => Sys2Proof.Machine.execIntegration l cycle s
  | .cycleStart l syncA syncB => Sys2Proof.Machine.execCycleStart l syncA syncB s
  | .cpi l k => Sys2Proof.Machine.execCpi l k s
  | .flxRxFrame l f => Sys2Proof.Machine.execFlxRxFrame l f s
  | .flxLockRead l m by_ => Sys2Proof.Machine.execFlxLockRead l m by_ s
  | .flxUnlockRead l m by_ => Sys2Proof.Machine.execFlxUnlockRead l m by_ s
  | .flxTxrq l k mask => Sys2Proof.Machine.execFlxTxrq l k mask s
  | .payloadTake l m minislot memErr => Sys2Proof.Machine.execPayloadTake l m minislot memErr s
  | .clockCorrection l ofs rate syncA syncB missing => Sys2Proof.Machine.execClockCorrection l ofs rate syncA syncB missing s
  | .waketx l => Sys2Proof.Machine.execWaketx l s
  | .flxWake l => Sys2Proof.Machine.execFlxWake l s
  | .twpTxreq l entry payload => Sys2Proof.Machine.execTwpTxreq l entry payload s
  | .copy l car frame => Sys2Proof.Machine.execCopy l car frame s
  | .comparisonEnd l i_ => Sys2Proof.Machine.execComparisonEnd l i_ s
  | .rxqPop l => Sys2Proof.Machine.execRxqPop l s
  | .pairSilent l => Sys2Proof.Machine.execPairSilent l s
  | .sync l p t => Sys2Proof.Machine.execSync l p t s
  | .qbvSwap l p => Sys2Proof.Machine.execQbvSwap l p s
  | .gclTakeover l p => Sys2Proof.Machine.execGclTakeover l p s
  | .plcaLost l => Sys2Proof.Machine.execPlcaLost l s
  | .plcaBeacon l => Sys2Proof.Machine.execPlcaBeacon l s
  | .t1sWake l => Sys2Proof.Machine.execT1sWake l s
  | .pwrVote l m val => Sys2Proof.Machine.execPwrVote l m val s
  | .domainDrop l d => Sys2Proof.Machine.execDomainDrop l d s
  | .domainStepReady l d flips chain => Sys2Proof.Machine.execDomainStepReady l d flips chain s
  | .stepFail l d => Sys2Proof.Machine.execStepFail l d s
  | .sleepReq l wake => Sys2Proof.Machine.execSleepReq l wake s
  | .wakePin l high => Sys2Proof.Machine.execWakePin l high s
  | .bemfSample l mv => Sys2Proof.Machine.execBemfSample l mv s
  | .preqExchange l => Sys2Proof.Machine.execPreqExchange l s
  | .preqRead l echo => Sys2Proof.Machine.execPreqRead l echo s
  | .preqTimeout l => Sys2Proof.Machine.execPreqTimeout l s
  | .setRail l rail value => Sys2Proof.Machine.execSetRail l rail value s
  | .preqEnable l rail value => Sys2Proof.Machine.execPreqEnable l rail value s
  | .preqDisable l rail value => Sys2Proof.Machine.execPreqDisable l rail value s
  | .preqStatus l rail value => Sys2Proof.Machine.execPreqStatus l rail value s
  | .preqSleep l rail value => Sys2Proof.Machine.execPreqSleep l rail value s
  | .wakeCfg l rail value => Sys2Proof.Machine.execWakeCfg l rail value s
  | .pmicStatusPoll l => Sys2Proof.Machine.execPmicStatusPoll l s
  | .tlSample l t0 t1 => Sys2Proof.Machine.execTlSample l t0 t1 s
  | .furrowRound l => Sys2Proof.Machine.execFurrowRound l s
  | .furrowSlot l raw => Sys2Proof.Machine.execFurrowSlot l raw s
  | .roundEnd l => Sys2Proof.Machine.execRoundEnd l s
  | .dieSd l hot => Sys2Proof.Machine.execDieSd l hot s
  | .thsRestart l warm => Sys2Proof.Machine.execThsRestart l warm s
  | .tdFuse l m val vbatMv => Sys2Proof.Machine.execTdFuse l m val vbatMv s
  | .tdFuseDone l kind val => Sys2Proof.Machine.execTdFuseDone l kind val s
  | .almanacAlarm l => Sys2Proof.Machine.execAlmanacAlarm l s
  | .snap l => Sys2Proof.Machine.execSnap l s
  | .almWrite l => Sys2Proof.Machine.execAlmWrite l s
  | .almanacWriteDone l ok => Sys2Proof.Machine.execAlmanacWriteDone l ok s
  | .calset l val => Sys2Proof.Machine.execCalset l val s
  | .lcConfirmTimeout l => Sys2Proof.Machine.execLcConfirmTimeout l s
  | .svcRestartDone l => Sys2Proof.Machine.execSvcRestartDone l s
  | .svcResume l => Sys2Proof.Machine.execSvcResume l s
  | .criticalPathMargin l => Sys2Proof.Machine.execCriticalPathMargin l s
  | .digestRecheckDone l ok => Sys2Proof.Machine.execDigestRecheckDone l ok s
  | .chargePumpStop l => Sys2Proof.Machine.execChargePumpStop l s
  | .vmBelowOv1 l => Sys2Proof.Machine.execVmBelowOv1 l s
  | .regenerationChange l b regen => Sys2Proof.Machine.execRegenerationChange l b regen s
  | .sequenceEnable l n inj en => Sys2Proof.Machine.execSequenceEnable l n inj en s
  | .posChannelEnable l c en => Sys2Proof.Machine.execPosChannelEnable l c en s
  | .canEnable l n en => Sys2Proof.Machine.execCanEnable l n en s
  | .canIntegration l n => Sys2Proof.Machine.execCanIntegration l n s
  | .canVoteLapse l n => Sys2Proof.Machine.execCanVoteLapse l n s
  | .flxEnable l en => Sys2Proof.Machine.execFlxEnable l en s
  | .didEnable l i_ en => Sys2Proof.Machine.execDidEnable l i_ en s
  | .portLinkChange l p up => Sys2Proof.Machine.execPortLinkChange l p up s
  | .ethVoteLapse l => Sys2Proof.Machine.execEthVoteLapse l s
  | .gptpAnnounce l domV best => Sys2Proof.Machine.execGptpAnnounce l domV best s
  | .gateControlEvent l p => Sys2Proof.Machine.execGateControlEvent l p s
  | .scrubPassEnd l found => Sys2Proof.Machine.execScrubPassEnd l found s
  | .retentionSigned l d => Sys2Proof.Machine.execRetentionSigned l d s
  | .coldForm l => Sys2Proof.Machine.execColdForm l s
  | .calendarSecond l => Sys2Proof.Machine.execCalendarSecond l s

end Sys2Proof.Machine
end

