-- ==== Sys2Proof/Safety.lean ====
section
/-!
DEFINITION. Safety.lean: what a sound state is: its sparse stores in canonical form, its lanes in their sockets.
-/

namespace Sys2Proof.Machine

/-- The canonical form of a memory: addresses strictly rising, no byte listed that reads as an unlisted one does (log 5). -/
def Memory.wf (m : List Host.Cell) : Bool := swf (fun _ => (0 : Byte)) m

/-- The canonical form of a lane's registers: no register listed that holds its reset value. -/
def Lane.regsWf (L : Lane) : Bool := swf (resetWord L.strap) L.regs

/-- A lane's stores are in canonical form. -/
def Lane.storesWf (L : Lane) : Bool := L.regsWf && Memory.wf L.mem

/-- Every lane's stores are in canonical form. -/
def State.storesWf (s : State) : Bool := s.laneA.storesWf && s.laneB.storesWf && s.laneC.storesWf

/-- Each lane stands in its own socket (R64). -/
def State.strapped (s : State) : Prop := ∀ l : LaneId, (s.lane l).strap = l

/-- A step that went on. -/
def wentOn (o : Out) : Prop := ∃ t, o = .next t

/-! ### What statements are stated with -/

/-- Registers outside `K` read as before, and so does every byte of memory; the lane keeps its socket. -/
def Lane.only (L : Lane) (K : List Nat) (M : Lane) : Prop :=
  M.strap = L.strap ∧ (∀ a, M.byte a = L.byte a) ∧ ∀ a, a ∉ K → M.rd a = L.rd a

/-- Every byte of memory reads as before. -/
def Lane.memKept (L M : Lane) : Prop := M.strap = L.strap ∧ ∀ a, M.byte a = L.byte a

/-- The registers that an event of a block instance may change (R55, R376), with ALM_STAT, which counts what ALM drops (R521). -/
def evRegs (b : Blk) (n : Nat) : List Nat :=
  [(H.ESTAT b).addr n 0, evqA b n 0, evqA b n 1, evqA b n 2, evqA b n 3, R.ALM_STAT.addr 0 0]

/-- The same of a TRANSIENT event: LBCFG shows its bucket's COUNT as well (R378). -/
def tokRegs (b : Blk) (n : Nat) : List Nat := (H.LBCFG b).addr n 0 :: evRegs b n

/-- The registers in which the Hedge shows its lane stops, gate modes and STO (Tables 7.5, 7.6). -/
def gateRegs : List Nat := [R.GD_LSTOP.addr 0 0, R.GD_GMODE.addr 0 0, R.GD_STO.addr 0 0]

/-- Entry 0 of the history queue holds the event, and ESTAT its class (R55). -/
def Lane.shows (M : Lane) (e : Event) (n : Nat := 0) : Bool :=
  bit (M.reg (H.ESTAT e.blk) n) e.cls.num && bit (M.reg (H.EVQ e.blk) n 0) 16 &&
    bits (M.reg (H.EVQ e.blk) n 0) 0 8 == e.code && bits (M.reg (H.EVQ e.blk) n 0) 8 2 == e.cls.num

/-- ESTAT holds the event's class (R55). -/
def Lane.flagged (M : Lane) (e : Event) (n : Nat := 0) : Bool := bit (M.reg (H.ESTAT e.blk) n) e.cls.num

/-- A field set, the register's other bits as before. -/
def Lane.sets (L : Lane) (f : Fld) (v : Nat) (M : Lane) (n : Nat := 0) (i : Nat := 0) : Prop :=
  M.reg f.reg n i = putBits (L.reg f.reg n i) f.lo f.w v

/-- The TRANSIENT event does not fill its element's bucket (R378). -/
def Lane.calm (L : Lane) (e : Event) (n : Nat := 0) (sub : Nat := 0) : Bool := !(L.transientRaw e n sub).2

/-- A master's read of a register reaches it: the master runs, and neither PMP nor firewall refuses the access (R145, R146). -/
def Lane.mayRead (L : Lane) (m : Master) (a : Nat) : Bool := L.masterRuns m && L.pmpOk m false a && permits m false a

/-- A pulse of a source: it pends, unless its gateway waits for a completion (R57, R58). -/
def Lane.pulsed (L M : Lane) (src : Nat) : Prop := L.inService src = false → src ∈ M.ip

/-- The payload of the response on its way: its status, and the data of a read (Table 1.2). -/
def Lane.rspBeats (L : Lane) : List Half :=
  match L.link.rsp, L.link.accesses with
  | some (st, d), h :: _ => BitVec.ofNat 16 st :: (if h.write then [] else wordBeats d)
  | _, _ => []

/-- The register at an address of the lane map is a plain one of a powered logic-die block: no field of it has a command of its own, and
its block ignores no bit of it now. -/
def Lane.plainReg (L : Lane) (a : Nat) (b : Blk) (n : Nat) (r : RegRow) : Prop :=
  ∃ o, blockAt a = some (b, n, o) ∧ findRow b o = some r ∧ r.fields.all (fun f => !f.own) = true ∧ o ≠ 4 ∧ b.isHedge = false ∧
    b ≠ .saf ∧ b ≠ .eth ∧ b ≠ .ozl ∧ a % 4 = 0 ∧ inMemory a = false ∧ a < 0x4C000000 ∧ L.blkPowered b = true ∧ L.blkIsolated b n = false ∧
    inBlkMem b n a = false ∧ L.frozen b n o = (0, none) ∧ L.loopLate a = none

/-- Header and payload of a received cell after decoding. -/
def cellBody (cell : List Byte) : List Byte := (decodeCell cell).2

/-- Payload of a received cell after decoding. -/
def cellPay (cell : List Byte) : List Byte := (cellBody cell).drop 8

/-- A cell that arrives `ns` after the present tick lies in its guard window, decodes, and is a cell of this slot, kind, port and lane
(R66 to R69, R110, Table 2.2). -/
def Lane.cellTaken (L : Lane) (link ns : Nat) (cell : List Byte) (kind : Nat) : Prop :=
  (L.cellOff link ns).2.natAbs ≤ (if link = 2 then 40 else 20) ∧ (decodeCell cell).1 ≠ .failed ∧
    (cellHdr (cellBody cell)).slot = (L.cellOff link ns).1 ∧ (cellHdr (cellBody cell)).kind = kind ∧
    (cellHdr (cellBody cell)).src = (portPeer L.strap link).idx ∧ (cellHdr (cellBody cell)).dst = L.strap.idx ∧
    (cellHdr (cellBody cell)).ext = (link == 2)

/-- The registers a received cell may change. -/
def linkRegs (link : Nat) : List Nat := R.OZL_LSTATE.addr 0 0 :: R.OZL_LINK.addr 0 link :: tokRegs .ozl 0

/-- The outstanding command with the tag acts now: its own opcode, admitted, its turn (R159, R175). -/
def Lane.acts (L : Lane) (tag : Half) (net : Bool) (op : Nat) : Bool :=
  match L.cmd tag net with
  | some c => L.up && c.op == op && c.phase == .admitted && L.turnOf c
  | none => false

/-- The outstanding command with the tag stands in a phase. -/
def Lane.cmdIn (L : Lane) (tag : Half) (net : Bool) (ph : CmdPhase) : Bool :=
  match L.cmd tag net with
  | some c => L.up && c.phase == ph
  | none => false

/-- The registers that a reply may change (R156, R157): the tail of the completion ring, the counts, the events of CMDQ. -/
def replyRegs : List Nat :=
  [R.CMDQ_CPL_TAIL.addr 0 0, R.CMDQ_CNT.addr 0 0, F.CMDQ_CNT_CPL_DROP.reg.addr 0 0, R.CMDQ_OUTST.addr 0 0] ++ evRegs .cmdq 0

/-- Registers outside `K` and the reply's own, and memory outside the completion ring (Table 4.4), read as before. -/
def Lane.onlyReply (L : Lane) (K : List Nat) (M : Lane) : Prop :=
  M.strap = L.strap ∧ (∀ a, a ∉ K ++ replyRegs → M.rd a = L.rd a) ∧ ∀ a, a < 0x4004C000 ∨ 0x40050000 ≤ a → M.byte a = L.byte a

/-- Engine `n` issues instruction `i` of `cyc` cycles now: it stands at the pc of the activation, inside the code window and before the
deadline cycle (R186, R188, R191). -/
def Lane.issues (L : Lane) (n : Nat) (i : MIns) (cyc : Nat) : Bool :=
  match (L.eng n).act with
  | some A => L.up && decide (n < L.loops.length) && decide (A.startAt + A.cycles < L.deadline) && decide (L.inPeriod < L.deadline) &&
      L.inCode n A.prog A.pc && L.fetchM n A.pc == some i && decide (A.startAt + A.cycles + cyc ≤ L.deadline)
  | none => false

/-- The activation goes on behind an instruction of `cyc` cycles; REP holds it while executions are left (R186, Table 5.4). -/
def LoopAct.past (A : LoopAct) (cyc : Nat) : LoopAct :=
  { A with pc := if 1 < A.rep then A.pc else A.pc + 1, rep := A.rep - 1, cycles := A.cycles + cyc }

/-- Memory but for one data word of a loop engine, and every register, read as before. -/
def Lane.onlyWord (L : Lane) (n a : Nat) (M : Lane) : Prop :=
  M.strap = L.strap ∧ (∀ x, M.rd x = L.rd x) ∧ ∀ x, x ≠ dmemA n a → x ≠ dmemA n a + 1 → M.byte x = L.byte x

/-- Engine `k` in FAULT with every leg OFF and pruned, the event recorded (R235, R379, R555). -/
def Lane.drvGone (M : Lane) (e : Event) (k : Nat) : Prop :=
  M.drvState k = 8 ∧ (M.drv k).legs = [0, 0, 0] ∧ M.pruned (.drv k) = true ∧ M.shows e k = true

/-- The leg state that the gate mode of leg `leg`'s bridge commands now (Table 7.5, R262, R268). -/
def Lane.wants (L : Lane) (leg : Nat) : BitVec 2 :=
  legWanted (L.modeOf (leg / 3)) (L.gate.kept.getD leg 0) (nthB L.gate.scOff leg)

/-- Low and high side switches of leg `leg` are commanded off. -/
def Lane.lowOff (M : Lane) (leg : Nat) : Prop := nthB M.gate.on (2 * leg) = false
def Lane.highOff (M : Lane) (leg : Nat) : Prop := nthB M.gate.on (2 * leg + 1) = false

/-- Every switch of bridge `b` is commanded off. -/
def Lane.bridgeOff (M : Lane) (b : Nat) : Prop := ∀ j, j < 3 → M.lowOff (3 * b + j) ∧ M.highOff (3 * b + j)

/-- Every gate of the lane is commanded off (R264). -/
def Lane.gatesOff (M : Lane) : Prop := ∀ leg, leg < 12 → M.lowOff leg ∧ M.highOff leg

/-- The channels of converter `n` are kept; a converter's list has its eight entries. -/
def Lane.cnvHas (L : Lane) (n : Nat) : Bool := decide (n < L.cnvs.length)

/-- The lists of POS have their lengths. -/
def Lane.posHas (L : Lane) : Bool :=
  decide (L.pos.q.length = 14) && decide (L.pos.enc.length = 4) && decide (L.pos.res.length = 2) && decide (L.pos.sent.length = 4) &&
    decide (L.pos.hcnt.length = 2) && decide (L.pos.henc.length = 2) && decide (L.pos.prbT.length = 2)

/-- The registers of the hard-wired safe torque off (Table 10.3), with those of the gates it commands. -/
def stoRegs : List Nat := R.HSF_STO.addr 0 0 :: gateRegs

/-- Registers of blocks outside `K` read as before. -/
def Lane.outside (L : Lane) (K : List Blk) (M : Lane) : Prop := ∀ a b n o, blockAt a = some (b, n, o) → b ∉ K → M.rd a = L.rd a

/-- Memory outside the bytes `[lo, hi)` reads as before. -/
def Lane.memOutside (L M : Lane) (lo hi : Nat) : Prop := ∀ a, a < lo ∨ hi ≤ a → M.byte a = L.byte a

/-- Memory outside message object `m` of controller `n` reads as before. -/
def Lane.objKept (L M : Lane) (n m : Nat) : Prop := L.memOutside M (objAddr n m 0) (objAddr n m 0x80)

/-- The four controllers are kept. -/
def Lane.canHas (L : Lane) : Bool := decide (L.can.length = 4)

/-- What a command of CAN may change beside memory: its own block's registers, its votes on its domain, the count of poisoned words. -/
def canBlks : List Blk := [.can, .pwr, .alm, .msup]

/-- What a command of the switch or of TWP may change beside memory: its own block's registers, its vote on its domain, the count of
poisoned words. -/
def ethBlks : List Blk := [.eth, .twp, .pwr, .alm, .msup]

/-- The frame's SEQ, and whether the copy came on path B (Table 14.3). -/
def seqOf (f : List Byte) : Word := BitVec.ofNat 32 (fieldBE f 4 4)
def onPathB (f : List Byte) : Bool := fieldBE f 15 1 % 16 == 2

/-- What a wake of cause `c` does (R491, R492, R497): from parked sleep it is latched with its cause and the start begins; during the start it is
kept pending; while the request is held it waits for the check cycle; before the SLEEP frame it aborts the entry, and waits for the entry's end
from then on. -/
def Lane.woken (L M : Lane) (c src : Nat) : Prop :=
  (L.pwr.sleep = .parked → M.reg R.PWR_WAKE = c + 0x10 * src + 0x80 ∧ M.shows Ev.PWR_WAKE ∧ M.pwr.sleep = .waking) ∧
  (L.pwr.sleep = .waking → M.fbit F.PWR_WAKE_PEND (c - 1) = true) ∧
  (L.pwr.sleep = .held → M.pwr.sleep = .held ∧ (L.pwr.wakeDue = none → M.pwr.wakeDue = some (c, src))) ∧
  (L.pwr.sleep = .sign ∨ (L.pwr.sleep = .frames ∧ L.sleepSent = false) → M.get F.PWR_SLEEP_RESULT = 3 ∧
    M.get F.PWR_SLEEP_CODE = 0x80 + c ∧ M.flagged Ev.PWR_SLEEP_ABORTED ∧ M.pwr.sleep = .awake) ∧
  (L.pwr.sleep = .frames → L.sleepSent = true → L.pwr.wakeDue = none → M.pwr.wakeDue = some (c, src) ∧ M.pwr.sleep = .frames)

/-- The request stands in the queue behind every one of its rank or a higher one (R487), and nothing else has changed. -/
def Lane.queued (L M : Lane) (r : PreqReq) : Prop :=
  L.only [] M ∧ M.pwr = { L.pwr with
    queue := L.pwr.queue.filter (fun x => decide (x.rank ≤ r.rank)) ++ [r] ++ L.pwr.queue.filter (fun x => !decide (x.rank ≤ r.rank)) }

/-- The request frame of `x` on the wire again after a fault, or PMIC_FAULT after the third retry (R486). -/
def Lane.resent (L M : Lane) (x : PreqRun) : Prop :=
  (x.tries < 3 → M.pwr.run = some ⟨x.req, x.seq, x.tries + 1, L.now + 680, L.now + 1760, false⟩ ∧ M.get F.PREQ_STAT_RETRY = x.tries + 1 ∧ M.get F.PREQ_STAT_FAULT = L.get F.PREQ_STAT_FAULT) ∧
  (3 ≤ x.tries → M.pwr.run = none ∧ M.get F.PREQ_STAT_FAULT = 1 ∧ M.get F.PREQ_STAT_BUSY = 0 ∧ L.pulsed M 113)

/-- No leg of the lane has both its switches commanded on (R259, R260). -/
def Lane.noShoot (L : Lane) : Prop := ∀ leg, leg < 12 → ¬ (nthB L.gate.on (2 * leg) = true ∧ nthB L.gate.on (2 * leg + 1) = true)

/-- A command keeps what holds of every lane, wherever it goes on to. -/
def Keeps (inv : Lane → Prop) (i : Instr) : Prop :=
  ∀ s t : State, (∀ l, inv (s.lane l)) → exec i s = .next t → ∀ l, inv (t.lane l)

end Sys2Proof.Machine

namespace Sys2Proof

open Machine

/-- The condition on its lane under which the statements about a command hold: what the spec asks for before the command or event
happens, and the lengths of the lane's lists. -/
def Instr.ready (i : Instr) (L : Lane) : Bool :=
  match i with
  -- Registers and the Hedge link
  | .legPeriodic _ => L.logicOn && L.since L.link.lastLegSent (us 1)
  | .timeSend _ => L.logicOn && L.mtN % 200 == 0
  | .time _ _ _ => L.linkOn && L.link.timePend
  | .timeLost _ => L.hedgeUp && L.since L.link.lastTime (us 10) && !L.link.timeLost
  | .irqRefresh _ => L.hedgeUp && L.since L.link.lastIrq (us 10)
  | .leg _ _ _ _ _ => L.linkOn
  | .legTimeout _ => L.hedgeUp && L.since L.link.lastLeg (us 2) && !L.is F.GD_LSTOP_LEGTO
  | .vref _ _ _ _ => L.linkOn && L.sdl.vrefOut.isSome
  | .vcell _ _ _ _ => L.linkOn
  | .irq _ _ _ => L.linkOn
  -- a write of any register but those with commands of their own below
  | .registerWrite _ m a _ => L.up && L.masterRuns m && L.pmpOk m true a.toNat
  | .wr _ _ _ _ _ => L.linkOn && L.link.accesses.isEmpty
  | .rd _ _ _ _ => L.linkOn && L.link.accesses.isEmpty
  | .rsp _ _ _ => L.linkOn && L.link.rsp.isSome && !L.link.accesses.isEmpty
  | .rspTimeout _ => L.linkOn && (match L.link.accesses with
      | h :: _ => L.since h.sentAt 300
      | [] => false)
  | .clkmon _ => L.hedgeUp
  | .aonXtalLost _ => L.clk.aonLostAt.isNone
  | .aonXtalClear _ ran => match L.clk.aonLostAt with
      | some t => decide (sec 1 ≤ ran) && L.since t ran
      | none => false
  | .clkLevelReq _ req => L.up && req != 3
  | .clkSwitch _ => L.up && L.clk.nextLevel.isNone && L.pwr.sleep == .awake && (match L.clk.phase with
      | .raiseSettle t a => L.since a (us 50) && decide (t < 3)
      | _ => false)
  | .criticalPathMargin _ => L.up && L.get F.CLK_LEVEL_CUR == 0 && decide (L.get F.CLK_LEVEL_VSTEP < 4)
  | .timeSteer _ => L.up && L.since L.clk.lastSteer (us 1) && L.timeOfs.isSome
  | .timeDrift _ => L.up && (match L.clk.driftSince with
      | some t => L.since t (us 100)
      | none => false)
  | .solo _ => L.up && (L.peerCopy 0).isNone && (L.peerCopy 1).isNone
  | .clkMtLoRead _ m => L.up && L.mayRead m (R.CLK_MT_LO.addr 0 0)
  | .hedgePowerOn _ => !L.hedgeUp
  | .vbatLow _ => L.hedgeUp
  | .laneReset _ src => L.hedgeUp && src != .por && (src != .debug || L.is F.SYS_LC_DBGOPEN)
  | .sysRstreq _ _ => L.up
  | .xtalLoss _ => L.logicOn && L.clk.xtalOk
  | .pllUnlock _ => L.logicOn && L.clk.pllOn
  | .resetRelease _ src => L.hedgeUp && L.rst.phase == .held && L.rst.sources.contains src && (src != .por || L.since 0 (us 100))
  | .crystalValid _ => (L.rst.phase == .wiping && L.since L.rst.phaseAt 144000) || (L.rst.phase == .parked && L.rising)
  | .hedgeLinkTrained _ _ => L.rst.phase == .clocked || (L.rst.phase == .running && !L.link.trained)
  | .kernelRelease _ imageOk _ => L.rst.phase == .linked && imageOk && (L.pwr.sleep != .waking || (match L.domPhase 1 with
      | .rise step _ _ => step == 4
      | _ => L.domOn 1))
  | .srst _ b n => (if b.isHedge then L.hedgeUp else L.up) && decide (n < b.count)
  | .lstopClr _ => L.hedgeUp
  | .evqClr _ b _ => if b.isHedge then L.hedgeUp else L.up
  | .evqRead _ m b n e => (if b.isHedge then L.hedgeUp else L.up) && L.mayRead m (evqA b n e.val)
  | .lbTokenExpire _ b _ => if b.isHedge then L.hedgeUp else L.up
  | .claim _ ctx also => L.up && L.ctxRuns ctx.val && (also.map (fun c => L.ctxRuns c.val)).getD true
  | .complete _ _ _ => L.up
  | .mirrorStale l peer => L.up && decide (peer ≠ l) && L.since (nthN L.ozl.mirrorAt peer.idx) (us 50)
  -- Three lanes, one authority
  | .linkCycle _ link => L.up && L.linkUp link.val && L.mtN % 200 == 0
  | .vote _ link _ _ => L.up && L.linkUp link.val
  | .relayVote _ link _ _ => L.up && L.linkUp link.val
  | .heart _ link _ _ => L.up && L.linkUp link.val
  | .stream l link _ _ _ => L.up && L.linkUp link.val && decide (L.strap = l)
  | .linkHeartLoss _ link => L.up && L.linkUp link.val && L.since (nthN L.ozl.lastHeart link.val) (us (if link.val = 2 then 6 else 3))
  | .linkRetrain _ link => L.up && !L.linkUp link.val && (link.val != 2 || L.is F.OZL_PAIR_PAIRED) &&
      L.since (nthN L.ozl.lastTrain link.val) (ms 1)
  | .linkTrained _ link _ => L.up && nthB L.ozl.training link.val
  | .cellBuild _ => L.up && (L.active || (L.own == 0 && decide (4 ≤ L.get F.OZL_GRAFT_PHASE))) && decide (L.periodT - 1000 ≤ L.inPeriod)
  | .cellSend _ => L.up && L.ozl.cellOut.isSome && !L.ozl.cellSent && decide (L.periodT - 800 ≤ L.inPeriod)
  | .saddleDecision _ => L.hedgeUp && !L.sdl.decided && decide (L.periodT - 800 ≤ L.inPeriod) && decide (L.inPeriod ≤ L.periodT - 400) &&
      (L.cellsIn || decide (L.periodT - 440 ≤ L.inPeriod))
  | .xinhAssert l peer => L.hedgeUp && decide (L.strap = l) && decide (peer ≠ l) && (match L.sdl.xDecide.getD (peerIdx l peer) none with
      | some t => L.since t (us 10)
      | none => false)
  | .xinhStopped _ => L.hedgeUp && !L.is F.GD_LSTOP_XINH && (match L.sdl.bothSince with
      | some t => L.since t 20
      | none => false)
  | .xinhRelease _ => L.hedgeUp && !L.is F.SDL_XINH_IN_NX && !L.is F.SDL_XINH_IN_PV
  | .xinhSingle _ => L.hedgeUp && !L.sdl.singleDone && (match L.sdl.oneSince with
      | some t => L.since t (ms 1)
      | none => false)
  | .xinhReadback l peer _ => L.hedgeUp && decide (L.strap = l) && decide (peer ≠ l)
  | .sdlXinhStoppedClear _ => L.hedgeUp && !L.is F.SDL_XINH_IN_NX && !L.is F.SDL_XINH_IN_PV
  | .voteBoundary _ => L.hedgeUp && L.atBoundary && L.ozl.lastBound != some L.mtN
  | .mark10ms _ _ => L.up && L.atBoundary && L.ozl.lastBound == some L.mtN && decide (L.trio.markDue ≤ L.mtN)
  | .graftHoldoff _ => L.up && L.own == 3 && decide (L.get F.OZL_GRAFT_ATTEMPTS < 3) && decide (L.ozl.graftDue ≤ L.now) && L.hostHeard
  | .graftPhaseDone _ => L.up && L.own == 0 && decide (1 ≤ L.get F.OZL_GRAFT_PHASE) &&
      !L.since L.ozl.graftAt (ms (phaseLimitMs (L.get F.OZL_GRAFT_PHASE)) + 1)
  | .graftPhaseTimeout _ => L.up && L.own == 0 && decide (1 ≤ L.get F.OZL_GRAFT_PHASE) &&
      L.since L.ozl.graftAt (ms (phaseLimitMs (L.get F.OZL_GRAFT_PHASE)))
  | .formation _ => L.up && L.own == 0 && L.get F.OZL_GRAFT_PHASE == 0 && L.ozl.readyAt.isSome
  | .formAlone _ => L.up && L.own == 0 && L.get F.OZL_GRAFT_PHASE == 0 && !L.hostHeard && L.reg R.PWR_RETLOST == 0 && (match L.ozl.readyAt with
      | some t => L.since t (ms 100)
      | none => false)
  | .fallowOverdue _ => L.up && decide (120 ≤ L.get F.OZL_FALLOW_AGE) && !L.is F.OZL_FALLOW_OVERDUE
  | .fallowStepEnd _ _ _ _ => L.up && L.own == 2 && decide (1 ≤ L.test.fstep) && decide (L.test.fstep ≤ 4) && (match L.test.fallowAt with
      | some t => L.since t (fallowEnd L.test.fstep)
      | none => false)
  | .fallowRestart _ => L.up && L.own == 2 && L.test.fstep == 5 && !L.test.fbad
  | .fallowAbort _ => L.up && L.own == 2
  | .extLinkCycle _ => L.up && L.linkUp 2 && L.mtN % 400 == 0
  | .extHeart _ _ _ _ => L.up && L.linkUp 2
  | .pairSwitchover _ => L.up && L.standby
  -- The trio and the service pair
  | .coreMismatch _ _ _ _ => L.up && L.lockStep != 0
  | .handOverPoint _ => L.up && L.trio.drain.isSome
  | .resyncDone _ => L.up && L.trioMode == 1 && L.since L.trio.copyAt L.copyTicks && (match L.trio.copying with
      | some (.resync _ _) => true
      | _ => false)
  | .injection _ out => if out = .checker then L.up && L.lockStep != 0
      else L.up && (L.trioMode == 0 || L.trioMode == 2 || L.trioMode == 4) && (match L.trio.injDefer with
        | some t => L.since t (us 1)
        | none => L.since L.trio.injAt (us 990))
  | .svcInjection _ _ => L.up && L.svcRuns && L.since L.trio.svcInjAt (ms 1)
  | .svcMismatch _ => L.up && L.svcRuns
  | .svcRestartDone _ => L.up && L.is F.TRIO_SVC_RESTART
  | .cstComplete _ _ => L.up && L.trioMode == 6 && L.soundCores != 0 && L.since L.trio.stopAt (us 1500)
  | .cstTimeout _ core => L.up && L.trioMode == 6 && bit L.soundCores core.val && L.since L.trio.stopAt (ms 2)
  | .trioSplitReq _ => L.up
  | .trioSplitAll _ => L.up
  | .trioSplitJoin _ => L.up
  | .debugHalt _ core => L.up && L.is F.SYS_LC_DBGOPEN && (bit L.soundCores core.val || L.trioMode == 6)
  | .debugResume _ => L.up && L.trio.halted != 0
  | .svcHalt _ _ => L.up && L.is F.SYS_LC_DBGOPEN && L.is F.TRIO_SVC_LIVE
  | .svcResume _ => L.up
  -- Rings and Trellis opcodes
  | .alloc _ m ring => L.up && L.mayRead m (R.CMDQ_RING_ALLOC.addr 0 ring.val)
  | .post _ m _ _ => L.up && L.masterRuns m
  | .allocLapse _ ring slot => L.up &&
      L.cmdq.slots.any (fun r => r.ring == ring.val && r.slot == slot && !r.posted && L.since r.since (ms 1))
  | .intake _ _ => L.up
  | .cplHeadWrite _ _ => L.up
  | .replyPost _ => L.up && !L.cplFull && !L.cmdq.waiting.isEmpty
  | .deferredStart _ tag net => L.cmdIn tag net .deferred
  | .deferTimeout _ tag net => match L.cmd tag net with
      | some c => L.up && c.phase == .deferred && (match deferLimit c.op with
        | some d => L.since c.startAt d
        | none => false)
      | none => false
  | .commandArrival _ tag net _ _ => L.cmdIn tag net .running
  | .commandTimeout _ tag net => match L.cmd tag net with
      | some c => L.up && c.phase == .running && (match c.limitAt with
        | some t => decide (t ≤ L.now)
        | none => false)
      | none => false
  | .ident _ tag net => L.acts tag net 0x01
  | .status _ tag net => L.acts tag net 0x02
  | .lifecycle _ tag net => L.acts tag net 0x03
  | .steerAngle _ tag net => L.active && L.acts tag net 0x10
  | .steerTorque _ tag net => L.active && L.acts tag net 0x11
  | .clampForce _ tag net => L.active && L.acts tag net 0x12
  | .clampRelease _ tag net => L.active && L.acts tag net 0x13
  | .hold _ tag net => L.active && L.acts tag net 0x14
  | .bridgeEnable _ tag net => L.active && L.acts tag net 0x15
  | .bridgeDisable _ tag net => L.active && L.acts tag net 0x16
  | .ascBrake _ tag net => L.active && L.acts tag net 0x17
  | .cnvSelfcal _ tag net => L.active && L.acts tag net 0x20
  | .angleZero _ tag net => L.active && L.acts tag net 0x21
  | .caliperKisspoint _ tag net => L.active && L.acts tag net 0x22
  | .encoderAlign _ tag net => L.active && L.acts tag net 0x23
  | .weedSlice _ tag net => L.active && L.acts tag net 0x30
  | .fallowRequest _ tag net => L.acts tag net 0x31
  | .offstateDiag _ tag net _ => L.active && L.acts tag net 0x32
  | .icvRefcheck _ tag net => L.active && L.acts tag net 0x33
  | .powerVote _ tag net => L.active && L.acts tag net 0x40
  | .powerUnvote _ tag net => L.active && L.acts tag net 0x41
  | .sleepQuery _ tag net => L.active && L.acts tag net 0x42
  | .cfgWrite _ tag net => L.active && L.acts tag net 0x50
  | .cfgRead _ tag net => L.acts tag net 0x51
  | .sealConfirm _ tag net => L.active && L.acts tag net 0x52
  | .sealRead _ tag net => L.acts tag net 0x53
  | .almRead _ tag net => L.acts tag net 0x60
  | .almMark _ tag net => L.active && L.acts tag net 0x61
  | .laneStatus _ tag net => L.acts tag net 0x70
  | .graft _ tag net => L.acts tag net 0x71
  | .prune _ tag net => L.acts tag net 0x72
  | .trioSplit _ tag net => L.acts tag net 0x73
  | .trioJoin _ tag net => L.acts tag net 0x74
  -- Loop engines and Miokin
  | .overrun _ n => L.up && (L.eng n.val).act.isSome && decide (L.deadline ≤ L.inPeriod) && decide (n.val < L.loops.length)
  | .resel _ _ _ => L.up
  | .wbufWrite _ n _ _ => L.up && decide (n.val < L.loops.length)
  | .wbufDrain _ n => L.up && (L.eng n.val).act.isNone && !(L.eng n.val).hold && !(L.eng n.val).wbuf.isEmpty && decide (n.val < L.loops.length)
  | .ld _ n a ea => L.issues n.val (.ld a ea) 1
  | .st _ n a ea => L.issues n.val (.st a ea) 1
  | .add _ n a ea => L.issues n.val (.add a ea) 1
  | .sub _ n a ea => L.issues n.val (.sub a ea) 1
  | .ldk _ n ea => L.issues n.val (.ldk ea) 1
  | .mpy _ n a ea => L.issues n.val (.mpy a ea) 1
  | .mac _ n a ea => L.issues n.val (.mac a ea) 1
  | .msu _ n a ea => L.issues n.val (.msu a ea) 1
  | .cmp _ n a ea => L.issues n.val (.cmp a ea) 1
  | .lim _ n a ea => L.issues n.val (.lim a ea) 1
  | .ldx _ n x addr => L.issues n.val (.ldx x addr) 1
  | .stx _ n x addr => L.issues n.val (.stx x addr) 1
  | .lut _ n a ea => L.issues n.val (.lut a ea) 4
  | .divA _ n a ea => L.issues n.val (.div a ea) 18
  | .mpyp _ n a p q => L.issues n.val (.mpyp a p q) 1
  | .macp _ n a p q => L.issues n.val (.macp a p q) 1
  | .msbp _ n a p q => L.issues n.val (.msbp a p q) 1
  | .movA _ n a b => L.issues n.val (.mov a b) 1
  | .adda _ n a b => L.issues n.val (.adda a b) 1
  | .suba _ n a b => L.issues n.val (.suba a b) 1
  | .neg _ n a => L.issues n.val (.neg a) 1
  | .absA _ n a => L.issues n.val (.abs a) 1
  | .clr _ n a => L.issues n.val (.clr a) 1
  | .sha _ n a k => L.issues n.val (.sha a k) 1
  | .sat _ n a => L.issues n.val (.sat a) 1
  | .maxA _ n a b => L.issues n.val (.max a b) 1
  | .minA _ n a b => L.issues n.val (.min a b) 1
  | .mulk _ n a b => L.issues n.val (.mulk a b) 1
  | .cmpa _ n a b => L.issues n.val (.cmpa a b) 1
  | .movk _ n a => L.issues n.val (.movk a) 1
  | .ldi _ n a imm => L.issues n.val (.ldi a imm) 1
  | .addi _ n a imm => L.issues n.val (.addi a imm) 1
  | .lki _ n imm => L.issues n.val (.lki imm) 1
  | .lxi _ n x imm => L.issues n.val (.lxi x imm) 1
  | .axi _ n x imm => L.issues n.val (.axi x imm) 1
  | .rep _ n imm => L.issues n.val (.rep imm) 1
  | .get _ n a item => L.issues n.val (.get a item) 1
  | .outP _ n a port share => L.issues n.val (.out a port share) 1
  | .jmp _ n cond target => L.issues n.val (.jmp cond target) 2
  | .call _ n target => L.issues n.val (.call target) 2
  | .ret _ n => L.issues n.val .ret 2
  | .endAct _ n => L.issues n.val .endI 1
  | .nop _ n => L.issues n.val .nop 1
  -- The drive engine
  | .driveFrame _ k _ _ _ _ _ => L.up && !L.drvIdle k.val && decide (L.toDecision k.val ≤ 82) && decide (k.val < L.drive.eng.length)
  | .decision _ k => L.up && L.atDecision k.val && decide (k.val < L.drive.eng.length)
  | .sampleLost _ k => L.up && !L.drvIdle k.val && decide (4 ≤ (L.drv k.val).lateRun) && decide (k.val < L.drive.eng.length)
  | .isum _ k => L.up && decide (8 ≤ (L.drv k.val).isumOver) && (L.drv k.val).isumArmed && decide (k.val < L.drive.eng.length)
  | .magnetised _ k => L.up && L.drvState k.val == 2 && decide (32 ≤ (L.drv k.val).magRun) && L.angleIn k.val &&
      decide (k.val < L.drive.eng.length)
  | .sixEnter _ k => L.up && !L.drvIdle k.val && L.dis F.DRV_MODE_OVMEN k.val && !L.is F.DRV_STATE_SIX k.val &&
      decide (ofQ15 (L.dget F.DRV_OVM_OVMW k.val) ≤ (L.drv k.val).wc.natAbs) && decide (32 ≤ (L.drv k.val).sixRun) &&
      decide (k.val < L.drive.eng.length)
  | .takeover _ k => L.up && L.takeoverDue k.val
  | .rearm _ k => L.up && decide (k.val < L.drive.eng.length)
  | .rearmRefused _ k => L.up && decide (k.val < L.drive.eng.length) && (match (L.drv k.val).rearmAt with
      | some t => L.since t (ms 1)
      | none => false)
  | .obsLost _ k => L.up && !L.drvIdle k.val && !(L.drv k.val).lost &&
      decide (us 200 ≤ (L.drv k.val).confLow * L.drvPeriod k.val) && decide (k.val < L.drive.eng.length)
  | .catchWindow _ k => L.up && (L.drvState k.val == 6 || L.drvState k.val == 2) && (L.drv k.val).caught.isNone &&
      L.since (L.drv k.val).winAt (ms 2) && decide (k.val < L.drive.eng.length)
  | .catchDone _ k => L.up && (L.drvState k.val == 6 || L.drvState k.val == 2) && (L.drv k.val).caught.isSome &&
      decide (k.val < L.drive.eng.length)
  | .catchFail _ k => L.up && L.drvState k.val == 6 && (L.drv k.val).caught.isNone && L.since (L.drv k.val).lossAt (ms 20) &&
      decide (k.val < L.drive.eng.length)
  | .prechargeTimeout _ k => L.up && L.drvState k.val == 1 && L.since (L.drv k.val).stAt (ms 5) && decide (k.val < L.drive.eng.length)
  | .magnetiseTimeout _ k => L.up && L.drvState k.val == 2 && L.since (L.drv k.val).stAt (ms 15) && decide (k.val < L.drive.eng.length)
  | .rampdownTimeout _ k => L.up && L.drvState k.val == 4 && L.since (L.drv k.val).stAt (us 100) && decide (k.val < L.drive.eng.length)
  | .noregClear _ k => L.up && L.is F.DRV_STATE_NOREG k.val && !L.ovReported && L.since (L.drv k.val).noregAt (ms 1)
  | .clim _ k => L.up && !(L.drv k.val).climDone && decide (k.val < L.drive.eng.length) && (match (L.drv k.val).climSince with
      | some t => L.since t (ms 1)
      | none => false)
  | .swcntRead _ m k => L.up && L.mayRead m (R.DRV_SWCNT_LO.addr k.val 0)
  -- Gate drive and protection
  | .uvloHs _ _ => L.hedgeUp
  | .uvloLs _ _ => L.hedgeUp
  | .uvloCp _ => L.hedgeUp
  | .uvloRelease _ _ => L.hedgeUp
  | .grdy _ b => L.hedgeUp && nthB L.gate.precharge b.val && L.suppliesUp b.val
  | .offCmd _ b => L.hedgeUp && !L.fbit F.GD_VCMD_ENA b.val && !L.fbit F.GD_VCMD_ASC b.val && !nthB L.gate.offCmd b.val &&
      L.since (nthN L.gate.bothOffAt b.val) (us 101) && decide (b.val < L.gate.offCmd.length)
  | .chargePumpStop _ => L.hedgeUp && L.gate.cpRun && L.get F.GD_VCMD_ENA == 0 && L.get F.GD_VCMD_ASC == 0 && L.since L.gate.cpIdleAt (ms 10)
  | .deadTime _ => L.hedgeUp
  | .dtFuse _ _ val _ => L.hedgeUp && bits val.toNat 0 16 == 0x7D0F
  | .dtFuseDone _ _ => L.hedgeUp && L.since L.gate.dtAt (ms 2) && (match L.gate.dtFuse with
      | some (b, code) => decide (b < 4) && decide (code < 4)
      | none => false)
  | .ilkRelease _ _ => L.hedgeUp
  | .scDetect _ sw ds => L.hedgeUp && L.canTrip sw.val ds && decide (L.gate.scOff.length = 12) && decide (L.gate.scFirst.length = 4)
  | .scTrip _ b => L.hedgeUp && decide (L.gate.scFirst.length = 4) && decide (L.gate.holdEnd.length = 4) &&
      (match L.gate.scFirst.getD b.val none with
      | some (_, t0) => L.since t0 (us 1)
      | none => false)
  | .scHoldEnd _ b => L.hedgeUp && (match L.gate.holdEnd.getD b.val none with
      | some t => decide (t ≤ L.now)
      | none => false)
  | .latchRelease _ _ => L.hedgeUp
  | .ov1 _ => L.hedgeUp && !L.is F.PROT_VM_OVR1
  | .vmBelowOv1 _ => L.hedgeUp
  | .brkOff _ => L.hedgeUp && !L.is F.PROT_VM_OVR1 && !L.gate.chopRun
  | .chopFault _ => L.hedgeUp && L.is F.PROT_VM_BRK_ON
  | .ov2 _ => L.hedgeUp
  | .hwAsc _ => L.hedgeUp && L.chopBad
  | .regenerationChange _ _ _ => L.hedgeUp
  | .hwAscEnd _ => L.hedgeUp && !L.is F.PROT_VM_OVR1 && (L.gate.hwAsc || L.get F.GD_GMODE_HASC != 0)
  | .ov3 _ => L.hedgeUp && !L.is F.GD_LSTOP_OV3
  | .ov3Clear _ => L.hedgeUp
  | .chopStuck _ => L.hedgeUp && !L.is F.PROT_VM_BRK_ON
  | .vmUv _ => L.hedgeUp && !L.is F.PROT_VM_VMUV && !L.is F.GD_LSTOP_VMUV
  | .vmuvClear _ => L.hedgeUp
  | .odiagStart _ bridges _ => L.hedgeUp && bridges != 0
  | .odiagStepEnd _ _ _ => L.hedgeUp && (match L.gate.odRun with
      | some (_, step, _) => L.since L.gate.odAt (odTicks step)
      | none => false)
  | .chopTest _ _ => L.hedgeUp
  | .chopTestEnd _ _ => L.hedgeUp && L.gate.chopRun && L.since L.gate.odAt (us 3)
  | .sopTest _ sw => L.hedgeUp && L.is F.GD_SOPT_EN && L.gate.sopRun.isNone && !nthB L.gate.sopPassed sw.val && L.offFor1us sw.val
  | .sopTestEnd _ pass => L.hedgeUp && (!pass || L.since L.gate.sopAt 100) && decide (L.gate.sopPassed.length = 25) && (match L.gate.sopRun with
      | some k => decide (k < 25)
      | none => false)
  | .sopTestDue _ sw => L.hedgeUp && L.is F.GD_SOPT_EN && L.since (nthN L.gate.sopDueAt sw.val) L.sopInt &&
      decide (L.gate.sopDueAt.length = 25) && decide (L.gate.sopPassed.length = 25)
  | .stoPin _ => L.hedgeUp && !L.is F.GD_LSTOP_STOPIN
  | .stoRelease _ => L.hedgeUp
  | .aliveToggle _ => L.hedgeUp && L.since L.gate.aliveAt (us 100)
  | .aliveKick _ _ => L.hedgeUp
  | .kickLapse _ => L.hedgeUp && L.is F.GD_ALIVE_KICK && L.since L.gate.kickAt (us 250)
  -- Conversion
  | .sequenceEnable _ n _ _ => L.up && L.cnvHas n.val
  | .sequenceTrigger _ n inj => L.up && L.seqSourceNow n.val inj && L.seqOn n.val inj && L.cnvHas n.val
  | .rseqGo _ n => L.up && L.seqOn n.val false && L.cnvHas n.val
  | .iseqGo _ n => L.up && L.seqOn n.val true && L.cnvHas n.val
  | .entryStart _ n _ => L.up && !L.cnvAway n.val && (L.cnv n.val).conv.isNone && (L.nextUse n.val).isSome && L.cnvHas n.val
  | .conversionEnd _ n _ => L.up && L.cnvHas n.val && (match (L.cnv n.val).conv with
      | some c => decide (c.start + 80 ≤ 2 * L.mtN)
      | none => false)
  | .resRead _ m n inj i => L.up && (!inj || decide (i.val < 4)) &&
      L.mayRead m ((if inj then F.CNV_IRES_VALID else F.CNV_RES_VALID).reg.addr n.val i.val)
  | .calGo _ n => L.up && L.cnvHas n.val
  | .calDone _ n _ => L.up && L.cnvHas n.val && (match (L.cnv n.val).calAt with
      | some t => L.since t (us 410)
      | none => false)
  | .icvWindowEnd _ _ _ => L.hedgeUp && !L.outOfService .icv && L.icv.due.isSome
  | .crossCheck _ => L.up && L.icv.results && !L.pruned .icv
  | .suspectFallback _ n => L.up && decide ((L.cnv n.val).checks.length < 3) && L.cnvHas n.val && (match (L.cnv n.val).suspectAt with
      | some t => L.since t (us 10)
      | none => false)
  | .suspectCheckDone _ n => L.up && (L.cnv n.val).suspectAt.isSome && decide (3 ≤ (L.cnv n.val).checks.length) && L.cnvHas n.val
  | .refchkGo _ => L.up && !L.is F.CNV_SQ_REFCHK_BUSY
  | .refcheckStart _ => L.up && L.hedgeUp && L.atBoundary && L.icv.refReady L.mtN
  | .refcheckEnd _ _ => L.up && (match L.icv.run with
      | some r => decide (r.endAt ≤ L.mtN)
      | none => false)
  -- Position and speed feedback
  | .quadEdge _ hedge n _ _ => L.posHas && (if hedge then L.hedgeUp && decide (n.val < 2) && L.hdecMode n.val == 1
      else L.chanRuns n.val && L.get F.POS_ENC_CFG_MODE 0 n.val == 0)
  | .hallStep _ hedge n _ => L.posHas && (if hedge then L.hedgeUp && decide (n.val < 2) && L.hdecMode n.val == 2
      else L.chanRuns n.val && L.get F.POS_ENC_CFG_MODE 0 n.val == 1)
  | .indexEvent _ n rising => L.posHas && L.chanRuns n.val && L.get F.POS_ENC_CFG_MODE 0 n.val == 0 && L.is F.POS_ENC_CFG_ZEN 0 n.val &&
      rising != (L.enc n.val).dirn
  | .posChannelEnable _ _ _ => L.up && L.posHas
  | .rpeak _ r => L.posHas && L.chanRuns (4 + r.val) && (L.mtN % 20000 == (5000 + L.get F.POS_RES_CFG_RDLY 0 r.val) % 20000 ||
      (L.is F.POS_RES_CFG_BOTH 0 r.val && L.mtN % 20000 == (15000 + L.get F.POS_RES_CFG_RDLY 0 r.val) % 20000))
  | .resSamplePair _ r => L.posHas && L.chanRuns (4 + r.val) && (match (L.resl r.val).trigAt with
      | some t => decide (afterTrig (L.reg R.CNV_ITS (2 * L.get F.POS_RES_CFG_PAIR 0 r.val) (L.get F.POS_RES_CFG_ENT 0 r.val)) t < 20000) &&
          decide (afterTrig (L.reg R.CNV_ITS (2 * L.get F.POS_RES_CFG_PAIR 0 r.val + 1) (L.get F.POS_RES_CFG_ENT 0 r.val)) t < 20000)
      | none => false)
  | .resLos _ r => L.posHas && L.chanRuns (4 + r.val) && decide (8 ≤ (L.resl r.val).bad) && (L.quant (4 + r.val)).valid
  | .resTrackStep _ r => L.posHas && L.chanRuns (4 + r.val) && decide ((L.resl r.val).stepAt + 200 ≤ L.mtN) &&
      (match (L.resl r.val).pairAt with
      | some t => decide (L.mtN ≤ t + us 200)
      | none => false)
  | .sentFrame _ hedge n _ => L.posHas && (if hedge then L.hedgeUp && n.val == 0 && L.is F.HSF_DEC_CFG_S0EN else L.chanRuns (6 + n.val))
  | .sentTimeout _ n => L.posHas && L.chanRuns (6 + n.val) && !(L.sent n.val).lost && L.sentDue n.val
  | .sentTrigger _ n => L.posHas && L.chanRuns (6 + n.val) && L.is F.POS_SENT_CFG_SPCEN 0 n.val && L.atBoundary &&
      L.voteK % max 1 (L.get F.POS_SENT_SPC_TPER 0 n.val) == 0
  | .probeEdge _ p rising => L.up && L.posHas && L.is F.POS_PRB_CFG_EN 0 p.val && (match L.get F.POS_PRB_CFG_EDGE 0 p.val with
      | 0 => rising
      | 1 => !rising
      | _ => true)
  | .prbValRead _ m p => L.up && L.mayRead m (R.POS_PRB_VAL.addr 0 p.val)
  | .prbTRead _ m p => L.up && L.mayRead m (R.POS_PRB_T.addr 0 p.val)
  | .qValRead _ m q => L.up && L.mayRead m (R.POS_Q_VAL.addr 0 q.val)
  | .cmpTgtWrite _ _ _ _ _ => L.up
  | .speedUpdate _ => L.up && L.posHas && L.mtN % (200 * max 1 (min 1000 (L.get F.POS_SPD_SPER))) == 0
  | .speedZero _ n => L.posHas && L.chanRuns n.val && (match (L.enc n.val).edge with
      | some (t, _) => decide (t + ms (max 1 (L.get F.POS_SPD_SZERO)) ≤ L.mtN)
      | none => false)
  -- Safety functions
  | .violationConfirm _ fn act => L.up && (L.saf.conf.getD (safIdx fn.val act.val) none).isNone && decide (L.saf.conf.length = 12) &&
      decide (L.safNv ≤ nthN L.saf.cnt (safIdx fn.val act.val))
  | .safSto _ act => L.up && !L.fbit F.SAF_VIOL_STO act.val && L.stoDue act.val && decide (L.cmdq.acts.length = 4)
  | .hsfStop _ fn => L.hedgeUp && decide (max 1 (L.get F.HSF_TOL_N) ≤ nthN L.hsf.cnt fn.val) && !nthB L.hsf.done fn.val &&
      decide (L.hsf.done.length = 4)
  | .hsfStoReq _ _ => L.hedgeUp
  | .hsfStoRel _ _ _ => L.hedgeUp
  | .slrLimitChange _ hedge => if hedge then L.hedgeUp && L.fallDue L.hsf.lim else L.up && L.fallDue L.saf.lim
  | .l1Late _ => L.up && !L.saf.l1Done && !L.is F.SAF_VIOL_L1IN && (match L.saf.l1From with
      | some t => L.since t (sec (max 1 (L.get F.SAF_RESP_TL1)))
      | none => false)
  | .hunavail _ inp => L.hedgeUp && (match L.hsf.unavAt.getD inp.val none with
      | some t => L.since t (ms 100)
      | none => false) &&
      !L.is (if inp.val = 0 then F.HSF_VIOL_UNAV_S0 else if inp.val = 1 then F.HSF_VIOL_UNAV_E0 else F.HSF_VIOL_UNAV_E1)
  | .sbhCheckEnd _ act => L.up && decide ((L.saf.sbh.getD act.val {}).phase = .check) && decide (L.saf.sbh.length = 4) &&
      ((L.saf.sbh.getD act.val {}).failed || decide ((L.saf.sbh.getD act.val {}).at_ ≤ L.now))
  | .sealChk _ => L.up
  | .sealLock _ key => L.up && key == 0x3C96
  | .hsealChk _ => L.hedgeUp
  | .hsealLock _ => L.hedgeUp
  | .sealDone _ hedge => if hedge then L.hedgeUp && L.hsf.run.isSome else L.up && L.saf.run.isSome
  | .sealRecheck _ hedge => if hedge then L.hedgeUp && L.is F.HSF_SEALCMD_LOCKED && L.since L.hsf.recheckAt (ms 100)
      else L.up && L.is F.SAF_SEALCTL_LOCKED && L.since L.saf.recheckAt (ms 100)
  -- Weeding slices and memory protection
  | .sliceSchedule _ => L.up && L.is F.BIST_SCHED_EN && L.svcRuns && L.since L.test.schedAt (ms 100 * max 1 (L.get F.BIST_SCHED_INT)) &&
      L.memberCount == 3
  | .sliceGo _ _ _ => L.up && !L.is F.BIST_SLICE_BUSY
  | .sliceStart _ => L.up && L.atBoundary && (match L.test.slice with
      | some x => x.startAt.isNone
      | none => false)
  | .sliceEnd _ _ => L.up && (match L.test.slice with
      | some x => x.startAt.isSome
      | none => false)
  | .sliceAbort _ _ => L.up && (match L.test.slice with
      | some x => x.startAt.isSome
      | none => false)
  | .scrubPass _ => L.up && L.mtN % 50000000 == 0
  | .scrubPassEnd _ _ => L.up && L.test.scrubAt.isSome
  | .remapDone _ => L.up && L.test.remap.isSome
  | .nvmSpared _ => L.up
  | .decoderTest _ _ => L.up && L.since L.test.decAt (us 990)
  -- CAN
  | .canRxFrame _ n _ _ => L.canLive n.val && !L.is F.CAN_MODE_LBACK n.val && L.canHas
  | .objLockRead _ _ _ _ => L.up && L.domOn 10 && L.canHas
  | .objUnlockRead _ _ _ _ => L.up && L.domOn 10 && L.canHas
  | .lockLapse _ n m => L.up && L.canHas && (match (if n.val = 4 then L.flx.lockOf m.val else (L.canSt n.val).lockOf m.val) with
      | some k => L.since k.at_ (us 20)
      | none => false)
  | .txrq _ _ _ _ => L.up && L.domOn 10
  | .txcan _ _ _ _ => L.up && L.domOn 10 && L.canHas
  | .arbitration _ n _ => L.canLive n.val && !L.is F.CAN_MODE_LISTEN n.val && (L.canSt n.val).tx.isNone && L.canHas
  | .canTxEnd _ n _ _ _ => L.canLive n.val && (L.canSt n.val).tx.isSome && L.canHas
  | .recover _ n => L.up && L.domOn 10 && L.is F.CAN_ERR_BO n.val && !L.is F.CAN_MODE_BOAUTO n.val && L.canHas
  | .busOffRecovery _ n => L.up && L.domOn 10 && L.is F.CAN_MODE_EN n.val && L.is F.CAN_ERR_BO n.val && L.canHas &&
      (L.is F.CAN_MODE_BOAUTO n.val || (L.canSt n.val).recovering)
  | .canWakeEdge _ n => L.hedgeUp && L.asleep && L.get F.CAN_WAKE_WMODE n.val == 1 && L.canHas
  | .canWakeFrame _ n _ => L.hedgeUp && L.asleep && L.get F.CAN_WAKE_WMODE n.val == 2 && L.canHas
  | .canEnable _ n en => L.up && L.domOn 10 && L.is F.CAN_MODE_EN n.val != en && L.canHas
  | .canIntegration _ n => L.up && L.domOn 10 && L.is F.CAN_MODE_EN n.val && !L.outOfService (.can n.val) && L.canHas
  | .canVoteLapse _ n => L.up && !L.canPending n.val && L.since (L.canSt n.val).lastFrame (sec 1)
  -- FlexRay
  | .flxEnable _ en => L.up && L.domOn 9 && L.is F.FLX_CTL_EN != en
  | .listenTimeout _ => L.flxLive && L.get F.FLX_CTL_ROLE == 2 && !L.is F.FLX_POC_COLDINH && !L.flx.cautNext &&
      (L.poc == 1 || L.poc == 3) && !L.is F.FLX_POC_CAUTHOLD && L.since L.flx.listenAt L.listenT
  | .integration _ _ => L.flxLive && (L.poc == 1 || L.poc == 3) && !L.is F.FLX_POC_CAUTHOLD
  | .cycleStart _ _ _ => L.flxLive && L.flxRuns
  | .cpi _ k => L.flxLive && (L.poc == 4 || L.poc == 5) && bit (L.flx.cpiEff.getD k.val 0) 23 &&
      decide (bits (L.flx.cpiEff.getD k.val 0) 0 14 < L.get F.FLX_CYC_MPC) &&
      cycMatch (L.get F.FLX_POC_CYCLE) (bits (L.flx.cpiEff.getD k.val 0) 14 6) (bits (L.flx.cpiEff.getD k.val 0) 20 3) &&
      !L.flx.cpiDone.getD k.val false && decide (L.flx.cpiDone.length = 4)
  | .flxRxFrame _ f => L.flxLive && decide (1 ≤ L.poc) && decide (L.poc ≤ 5) && L.fbit F.FLX_CTL_CHEN (if f.chB then 1 else 0)
  | .flxLockRead _ _ _ => L.up && L.domOn 9
  | .flxUnlockRead _ _ _ => L.up && L.domOn 9
  | .flxTxrq _ _ _ => L.up && L.domOn 9
  | .payloadTake _ m _ _ => L.flxLive && L.poc == 4 && L.flx.started && !L.is F.FLX_POC_TXINH && !L.flx.txNow.contains m.val &&
      L.bg m.val 0 0 2 == 2 &&
      cycMatch (L.get F.FLX_POC_CYCLE) (L.bg m.val 0 15 6) (L.bg m.val 0 21 3)
  | .clockCorrection _ _ _ _ _ _ => L.flxLive && L.flxRuns && L.get F.FLX_POC_CYCLE % 2 == 1
  | .waketx _ => L.up && L.domOn 9
  | .flxWake _ => L.hedgeUp && L.asleep && L.is F.PWR_WAKEEN_FLX
  -- Ethernet, twin-path frames
  | .twpTxreq _ e _ => L.ethUp && L.svcRuns && L.didTx e.val && decide (L.twp.txSeq.length = 64)
  | .copy _ _ _ => L.ethUp
  | .comparisonEnd _ _ => L.ethUp
  | .rxqPop _ => L.ethUp && L.svcRuns
  | .pairSilent _ => L.ethUp && L.standby && !L.is F.TWP_PAIROFS_SILENT &&
      !((List.range 64).filter (fun i => L.didRx i && L.dg i 0 20 1 == 1)).isEmpty &&
      ((List.range 64).filter (fun i => L.didRx i && L.dg i 0 20 1 == 1)).all (fun i => L.since (L.twp.watchAt.getD i 0) (L.winT i))
  | .sync _ _ _ => L.ethUp && decide (L.eth.rxTs.length = 3)
  | .qbvSwap _ _ => L.ethUp && decide (L.eth.admin.length = 3)
  | .gclTakeover _ p => L.ethUp && L.is F.ETH_QBV_PEND 0 p.val && L.gclDue p.val && decide (L.eth.admin.length = 3) &&
      decide (L.eth.oper.length = 3)
  | .plcaLost _ => L.ethUp && L.is F.ETH_PORT_CFG_PLCA 0 2 && !L.is F.ETH_T1S_FALLBK
  | .plcaBeacon _ => L.ethUp && L.is F.ETH_T1S_FALLBK
  | .t1sWake _ => L.hedgeUp && L.asleep && L.is F.PWR_WAKEEN_T1S
  | .didEnable _ _ _ => L.ethUp
  | .portLinkChange _ p up => L.ethUp && L.is F.ETH_PORT_STAT_LINK 0 p.val != up && !(up && L.outOfService (.eth p.val))
  | .ethVoteLapse _ => L.up && [0, 1, 2].all (fun p => !L.is F.ETH_PORT_STAT_LINK 0 p) && L.since L.eth.lastFrame (sec 1)
  | .gptpAnnounce _ domV _ => L.ethUp && (domV || L.get F.ETH_PTP_DOMMT != L.get F.ETH_PTP_DOMV) && decide (L.eth.gm.length = 2)
  | .gateControlEvent _ p => L.ethUp && L.is F.ETH_QBV_EN 0 p.val && (L.gatesDue p.val).isSome && decide (L.eth.gates.length = 3)
  -- Power domains, sleep, PREQ
  | .pwrVote _ m _ => L.up && L.masterRuns m
  | .domainDrop _ d => L.logicOn && (L.pwr.sleep == .awake || L.pwr.sleep == .held) && decide (L.pwr.dom.length = 21) && (match L.domPhase d.val with
      | .drop step dst _ => !(step == 2 && dst == 1)
      | _ => false)
  | .retentionSigned _ d => L.logicOn && decide (L.pwr.dom.length = 21) && (match L.domPhase d.val with
      | .drop step dst _ => step == 2 && dst == 1
      | _ => false)
  | .domainStepReady _ d _ _ => L.hedgeUp && decide (L.pwr.dom.length = 21) && (match L.domPhase d.val with
      | .rise _ _ _ => true
      | _ => false)
  | .stepFail _ d => L.hedgeUp && decide (L.pwr.dom.length = 21) && (match L.domPhase d.val with
      | .rise _ t _ => L.since t (ms 1)
      | _ => false)
  | .sleepReq _ _ => L.up && L.pwr.sleep == .awake
  | .wakePin _ high => L.hedgeUp && L.is F.PWR_WAKEEN_PIN && high != L.is F.PWR_WAKEEN_PINPOL
  | .bemfSample _ _ => L.hedgeUp && L.pwr.sleep == .parked && L.since L.pwr.bemfAt (ms 1)
  | .coldForm _ => L.up && L.reg R.PWR_RETLOST != 0 && (match L.ozl.readyAt with
      | some t => L.since t (ms 100)
      | none => false)
  | .preqExchange _ => L.hedgeUp && L.pwr.run.isNone && !L.pwr.queue.isEmpty
  | .preqRead _ _ => L.hedgeUp && (match L.pwr.run with
      | some x => decide (x.nextAt ≤ L.now)
      | none => false)
  | .preqTimeout _ => L.hedgeUp && (match L.pwr.run with
      | some x => L.since x.t0 (us 100)
      | none => false)
  | .pmicStatusPoll _ => L.hedgeUp && L.is F.PREQ_STAT_FAULT && L.since L.pwr.pollAt (ms 100)
  | .setRail _ _ _ => L.up
  | .preqEnable _ _ _ => L.up
  | .preqDisable _ _ _ => L.up
  | .preqStatus _ _ _ => L.up
  | .preqSleep _ _ _ => L.up
  | .wakeCfg _ _ _ => L.up
  -- Temperature
  | .dieSd _ _ => L.hedgeUp
  | .thsRestart _ _ => L.hedgeUp
  | .tdFuse _ _ val _ => L.hedgeUp && bits val.toNat 0 16 == 0x7D1E
  | .tdFuseDone _ _ _ => L.hedgeUp && (match L.ths.fuse with
      | some f => L.since f.at_ (ms 2) && decide (f.input < 4) && decide (f.kind < 4)
      | none => false)
  | .furrowRound _ => L.hedgeUp && L.rst.phase != .parked && L.link.hedgeMt.toNat % 1200000 == 0
  | .furrowSlot _ _ => L.hedgeUp && (match L.ths.round with
      | some r => L.since r.startAt (50000 * (r.slot + 1)) && !r.endDue && decide (r.slot < 24)
      | none => false) && decide (L.hk.own.length = 8) && decide (L.ths.past.length = 4)
  | .roundEnd _ => L.hedgeUp && (match L.ths.round with
      | some r => r.endDue
      | none => false)
  | .tlSample _ _ _ => L.up && decide (L.hk.own.length = 8)
  -- The Almanac and the life cycle
  | .almanacAlarm _ => L.alarmDue
  | .snap _ => L.up && decide (L.alm.snapEnd ≤ L.now)
  | .almWrite _ => L.up
  | .almanacWriteDone _ _ => L.is F.ALM_STAT_BUSY && L.svcRuns && decide (L.alm.snapEnd ≤ L.now) && decide (L.alm.slots.length = 32)
  | .calset _ _ => L.up
  | .calendarSecond _ => L.hedgeUp
  | .lcConfirmTimeout _ => L.up && (match L.alm.lc with
      | some r => r.written && L.since r.startAt (ms 5) && L.lcMissing r
      | none => false)
  | .digestRecheckDone _ _ => L.up && L.sdl.resolving && L.sdl.recheckAt.isSome

end Sys2Proof

namespace Sys2Proof.Machine

/-- A command of lane `l` goes on: wherever `ready` holds in its lane, the lane alone changes, as `p` says of it before and after; the
other lanes, the waiting commands and the free values drawn stay. -/
def Does (l : LaneId) (i : Instr) (p : Lane → Lane → Prop) : Prop :=
  ∀ s : State, i.ready (s.lane l) = true → ∃ M, exec i s = .next (s.setLane l M) ∧ p (s.lane l) M

/-- The same where the condition `c` on the lane, which may speak of the command's operands, holds as well. -/
def DoesWhen (l : LaneId) (i : Instr) (c : Lane → Prop) (p : Lane → Lane → Prop) : Prop :=
  ∀ s : State, i.ready (s.lane l) = true → c (s.lane l) → ∃ M, exec i s = .next (s.setLane l M) ∧ p (s.lane l) M

/-- A command of lane `l` that draws free values or touches other lanes goes on: the waiting commands stay, its lane changes as `p`
says. -/
def DoesAny (l : LaneId) (i : Instr) (p : Lane → Lane → Prop) : Prop :=
  ∀ s : State, i.ready (s.lane l) = true → ∃ t, exec i s = .next t ∧ t.pending = s.pending ∧ p (s.lane l) (t.lane l)

/-- The same where the condition `c` on the whole module holds as well. -/
def DoesIn (l : LaneId) (i : Instr) (c : State → Prop) (p : State → State → Prop) : Prop :=
  ∀ s : State, i.ready (s.lane l) = true → c s → ∃ t, exec i s = .next t ∧ t.pending = s.pending ∧ p s t

/-- Where an opcode's command with the tag acts and `c` holds, its lane alone changes, as `p` says. -/
def Acts (l : LaneId) (tag : Half) (net : Bool) (i : Instr) (c : State → TCmd → Prop) (p : State → TCmd → Lane → Prop) : Prop :=
  ∀ s d, i.ready (s.lane l) = true → (s.lane l).cmd tag net = some d → c s d → ∃ M, exec i s = .next (s.setLane l M) ∧ p s d M

/-- Where it acts and `c` holds, it ends with a reply: status and result. -/
def Replies (l : LaneId) (tag : Half) (net : Bool) (i : Instr) (c : State → TCmd → Prop) (st : Nat) (res : State → TCmd → List Byte) : Prop :=
  ∀ s d, i.ready (s.lane l) = true → (s.lane l).cmd tag net = some d → c s d →
    exec i s = .next (s.setLane l ((s.lane l).finish d st (res s d)))

/-- Where it acts and `c` holds, this lane's outcome is noted, and the named lanes exchange theirs (R168). -/
def Concludes (l : LaneId) (tag : Half) (net : Bool) (i : Instr) (c : State → TCmd → Prop) (st : Nat) (res : State → TCmd → List Byte) : Prop :=
  ∀ s d, i.ready (s.lane l) = true → (s.lane l).cmd tag net = some d → c s d → exec i s = .next (s.conclude l d st (res s d))

/-- Where it acts and `c` holds, it goes on to `f`. -/
def GoesOn (l : LaneId) (tag : Half) (net : Bool) (i : Instr) (c : State → TCmd → Prop) (f : State → TCmd → State) : Prop :=
  ∀ s d, i.ready (s.lane l) = true → (s.lane l).cmd tag net = some d → c s d → exec i s = .next (f s d)

/-- Where a Miokin instruction issues and `c` holds, the engine's activation becomes `f` of the one before, one word on, and nothing else
changes. -/
def Miokin (l : LaneId) (n : Nat) (i : Instr) (cyc : Nat) (c : Lane → LoopAct → Prop) (f : Lane → LoopAct → LoopAct) : Prop :=
  ∀ s A, i.ready (s.lane l) = true → ((s.lane l).eng n).act = some A → c (s.lane l) A →
    exec i s = .next (s.setLane l ((s.lane l).onEng n (fun e => { e with act := some ((f (s.lane l) A).past cyc) })))

/-- Where it issues and `c` holds, it is a program fault with a code (R188). -/
def MiokinFault (l : LaneId) (n : Nat) (i : Instr) (code : Nat) (c : Lane → LoopAct → Prop) : Prop :=
  ∀ s A, i.ready (s.lane l) = true → ((s.lane l).eng n).act = some A → c (s.lane l) A →
    exec i s = .next (s.setLane l ((s.lane l).progFault n A code A.pc))

end Sys2Proof.Machine
end

