-- ==== Sys2Proof/Certificates/Slice0/Obligations.lean ====
section
/-! DEFINITION. The statements for the provers. `Does`, `Replies`, `Concludes`, `Miokin` and their like (Sys2Proof/Safety.lean) say
that a command whose condition `Instr.ready` holds answers a next state, and what that state is. -/

section Statements

open Sys2Proof Sys2Proof.Machine

/-- A step takes the command at the front of the queue and carries it out with the queue's rest waiting. The queue is the model's (log 111). -/
def Obligations.StepRunsFront : Prop :=
  ∀ (c : Instr) (rest : List Instr) (s : State), s.pending = c :: rest → step s = exec c { s with pending := rest }

/-- With no command waiting a step is one tick of 5 ns (the model's own choice, log 1): every lane's clock counts, its copy of module time
where its PLL runs and no tick is to be omitted (R34), the Hedge's copy at each cycle of its RC clock, by the increment per cycle from the
value last loaded (R39); every register and every byte of memory reads as before. The tick in place of idling is the model's choice (log
1). -/
def Obligations.StepIdles : Prop :=
  ∀ s : State, s.pending = [] → ∃ t, step s = .next t ∧ t.pending = [] ∧ t.free = s.free ∧
    ∀ l, (t.lane l).now = (s.lane l).now + 1 ∧
      (t.lane l).mt = (if (s.lane l).clk.pllOn = true ∧ (s.lane l).clk.skipTick = false then (s.lane l).mt + 1 else (s.lane l).mt) ∧
      (t.lane l).link.hedgeMt = (if (s.lane l).hedgeUp = true ∧ ((s.lane l).now + 1) % 5 = 0 then (s.lane l).link.rcLoad.1 +
        BitVec.ofNat 32 ((((s.lane l).now + 1) / 5 - (s.lane l).link.rcLoad.2) * (s.lane l).link.inc.1 / (s.lane l).link.inc.2)
        else (s.lane l).link.hedgeMt) ∧
      (s.lane l).only [] (t.lane l)

/-- Every command is carried out in every state: no fault, no refusal; the commands waiting behind it stay as they are, and the free values
drawn before it are not drawn again (log 2, log 4). That a command whose condition does not hold changes nothing, in place of stopping, is
the model's choice (log 2). -/
def Obligations.EveryCommandAnswers : Prop :=
  ∀ (c : Instr) (s : State), ∃ t, exec c s = .next t ∧ t.pending = s.pending ∧ s.free ≤ t.free

/-- The module after reset: each lane in its socket, its logic die held by the Hedge power-on reset alone, every gate off, module time 0, POR
the one cause in SYS_RSTCAUSE (R45, Table 1.8), its stores in canonical form, no command waiting. Stores that nothing has written read 0
(log 5); the hidden state starts as log 110 says. -/
def Obligations.ResetLeaves : Prop :=
  State.reset.pending = [] ∧ State.reset.strapped ∧ State.reset.storesWf = true ∧
  ∀ l, (State.reset.lane l).rst.phase = .held ∧ (State.reset.lane l).rst.sources = [.por] ∧ (State.reset.lane l).up = false ∧
    (State.reset.lane l).mt = 0 ∧ (State.reset.lane l).reg R.SYS_RSTCAUSE = 1 ∧ (State.reset.lane l).reg R.SYS_LANE = l.idx ∧
    (∀ k, k < 24 → nthB (State.reset.lane l).gate.on k = false) ∧ (State.reset.lane l).noShoot ∧ (State.reset.lane l).claimed = [] ∧
    (State.reset.lane l).cmdq.queue = [] ∧ (∀ a, (State.reset.lane l).byte a = 0)

/-- No shoot-through (R259, R260): whatever commands the gates, from a state in which no leg has both its switches on, no leg has both on
afterwards, in any lane. -/
def Obligations.NoShootThrough : Prop :=
  (∀ l hdr b0 b1 crc, Keeps Lane.noShoot (.leg l hdr b0 b1 crc)) ∧ (∀ l, Keeps Lane.noShoot (.legTimeout l)) ∧ (∀ l, Keeps Lane.noShoot (.clkmon l)) ∧
  (∀ l, Keeps Lane.noShoot (.deadTime l)) ∧ (∀ l leg, Keeps Lane.noShoot (.uvloHs l leg)) ∧ (∀ l b, Keeps Lane.noShoot (.uvloLs l b)) ∧
  (∀ l, Keeps Lane.noShoot (.uvloCp l)) ∧ (∀ l i, Keeps Lane.noShoot (.uvloRelease l i)) ∧ (∀ l b, Keeps Lane.noShoot (.grdy l b)) ∧
  (∀ l b, Keeps Lane.noShoot (.offCmd l b)) ∧ (∀ l m, Keeps Lane.noShoot (.ilkRelease l m)) ∧
  (∀ l sw ds, Keeps Lane.noShoot (.scDetect l sw ds)) ∧ (∀ l b, Keeps Lane.noShoot (.scTrip l b)) ∧
  (∀ l b, Keeps Lane.noShoot (.scHoldEnd l b)) ∧ (∀ l m, Keeps Lane.noShoot (.latchRelease l m)) ∧ (∀ l, Keeps Lane.noShoot (.lstopClr l)) ∧
  (∀ l, Keeps Lane.noShoot (.ov2 l)) ∧ (∀ l, Keeps Lane.noShoot (.hwAsc l)) ∧ (∀ l, Keeps Lane.noShoot (.hwAscEnd l)) ∧
  (∀ l b r, Keeps Lane.noShoot (.regenerationChange l b r)) ∧ (∀ l, Keeps Lane.noShoot (.ov3 l)) ∧ (∀ l, Keeps Lane.noShoot (.ov3Clear l)) ∧
  (∀ l, Keeps Lane.noShoot (.vmUv l)) ∧ (∀ l, Keeps Lane.noShoot (.vmuvClear l)) ∧ (∀ l bs vm, Keeps Lane.noShoot (.odiagStart l bs vm)) ∧
  (∀ l f vm, Keeps Lane.noShoot (.odiagStepEnd l f vm)) ∧ (∀ l sw, Keeps Lane.noShoot (.sopTest l sw)) ∧
  (∀ l p, Keeps Lane.noShoot (.sopTestEnd l p)) ∧ (∀ l sw, Keeps Lane.noShoot (.sopTestDue l sw)) ∧ (∀ l, Keeps Lane.noShoot (.stoPin l)) ∧
  (∀ l, Keeps Lane.noShoot (.stoRelease l)) ∧ (∀ l key, Keeps Lane.noShoot (.aliveKick l key)) ∧ (∀ l, Keeps Lane.noShoot (.kickLapse l)) ∧
  (∀ l fn, Keeps Lane.noShoot (.hsfStop l fn)) ∧ (∀ l req, Keeps Lane.noShoot (.hsfStoReq l req)) ∧
  (∀ l req rel, Keeps Lane.noShoot (.hsfStoRel l req rel)) ∧ (∀ l, Keeps Lane.noShoot (.xinhStopped l)) ∧
  (∀ l, Keeps Lane.noShoot (.xinhRelease l))

/-- Decode of encode is the instruction, for every Miokin instruction with every operand its encoding admits (Tables 5.2 to 5.4): no bit of an
encoding is dropped; and opcodes Table 5.4 does not list decode to none (R186). Bits that a format does not use are don't care (log 105). -/
def Obligations.MiokinRoundTrip : Prop :=
  (∀ i : MIns, MIns.wf i = true → decodeM (encodeM i) = some i) ∧
  (∀ w : Word, bits w.toNat 26 6 ∈ [0x00, 0x0F, 0x13, 0x14, 0x15, 0x16, 0x17, 0x25, 0x26, 0x27, 0x2E, 0x2F, 0x32, 0x33, 0x34, 0x35, 0x36, 0x37,
    0x3D, 0x3E, 0x3F] → decodeM w = none)

/-- One lane cannot sway a vote of three (R78): whatever one lane's references are, each voted torque and flux reference lies between those of
the two others, and a discrete field on which the two others agree takes their value. -/
def Obligations.OneLaneCannotSway : Prop :=
  ∀ (bt bf : Nat) (a b c x y z : Refs), [x, y, z] ∈ [[a, b, c], [a, c, b], [b, c, a]] → x.tq.length = 4 → y.tq.length = 4 → z.tq.length = 4 →
    x.fx.length = 4 → y.fx.length = 4 → z.fx.length = 4 →
    let r := (refs3 bt bf a b c).1
    (∀ k, k < 4 →
      min (q15 (x.tq.getD k 0)) (q15 (y.tq.getD k 0)) ≤ q15 (r.tq.getD k 0) ∧
      q15 (r.tq.getD k 0) ≤ max (q15 (x.tq.getD k 0)) (q15 (y.tq.getD k 0)) ∧
      min (q15 (x.fx.getD k 0)) (q15 (y.fx.getD k 0)) ≤ q15 (r.fx.getD k 0) ∧
      q15 (r.fx.getD k 0) ≤ max (q15 (x.fx.getD k 0)) (q15 (y.fx.getD k 0))) ∧
    ∀ k, k < 7 → nthN (discretes x) k = nthN (discretes y) k → nthN (discretes r) k = nthN (discretes x) k

/-- What crosses the Hedge link of a lane with header beat and CRC right (R16, R17): LEG (R19, R22, R258; a code 0b11 is kept as OFF, R260),
TIME with the fixed receive latency of two ticks (R40), VREF (R215), vote cells (R74), IRQ (R265); and what either end does when they stop
(R19, R23, R40, R265). An IRQ transfer carries the lines as they stand when it arrives (log 40); the flags beat of VREF is an operand (log
123). -/
def Obligations.HedgeLinkTransfers : Prop :=
  (∀ l, Does l (.legPeriodic l) fun L M => M.link = { L.link with lastLegSent := L.now, legOut := L.legsNow } ∧ L.only [] M) ∧
  (∀ l, Does l (.timeSend l) fun L M => M.link = { L.link with lastTimeSent := L.now, timePend := true } ∧ L.only [] M) ∧
  (∀ l hdr crc, DoesWhen l (.time l hdr crc) (fun L => xferOk 4 (wordBeats L.timePayload) hdr crc = true) fun L M =>
    M.link.hedgeMt = L.timePayload + 2 ∧ M.link.lastTime = L.now ∧ M.link.timeLost = false ∧ M.link.timePend = false ∧ L.only [] M) ∧
  (∀ l, Does l (.timeLost l) fun L M =>
    M.link = { L.link with timeLost := true } ∧ M.flagged Ev.HLNK_TIME_LOST ∧ L.only (tokRegs .hlnk 0) M) ∧
  (∀ l, Does l (.irqRefresh l) fun L M => M.link = { L.link with lastIrq := L.now } ∧ L.only [] M) ∧
  (∀ l hdr b0 b1 crc, DoesWhen l (.leg l hdr b0 b1 crc) (fun _ => xferOk 1 [b0, b1] hdr crc = true) fun L M => M.link.lastLeg = L.now ∧
    (L.gate.kept.length = 12 → M.gate.kept = (legCodes b0 b1).map (fun c => if c = 3 then 0 else c)) ∧
    L.only (R.GD_ILK.addr 0 0 :: gateRegs ++ evRegs .gd 0) M) ∧
  (∀ l, Does l (.legTimeout l) fun L M => M.get F.GD_LSTOP_LEGTO = 1 ∧ M.shows Ev.HLNK_LEG_TIMEOUT ∧ M.sdl = { L.sdl with held := true } ∧
    M.get F.SDL_VSTAT_NOVOTE = 1 ∧ L.only (R.SDL_VSTAT.addr 0 0 :: gateRegs ++ evRegs .gd 0 ++ evRegs .hlnk 0) M) ∧
  (∀ l flags hdr crc, DoesWhen l (.vref l flags hdr crc)
    (fun L => xferOk 2 (vrefBeats (L.sdl.vrefOut.getD noRefs) flags) hdr crc = true) fun L M =>
      M.drive = { L.drive with vref := L.sdl.vrefOut } ∧ L.only [] M) ∧
  (∀ l (cell : List Byte) hdr crc, DoesWhen l (.vcell l cell hdr crc)
    (fun L => xferOk 3 (byteBeats cell) hdr crc = true ∧ cell.length = 72 ∧ (voteOf (cell.drop 8)).origin.toNat < 3 ∧
      (voteOf (cell.drop 8)).vseq = L.nextSeq ∧ e2eOk (voteOf (cell.drop 8)).origin.toNat L.nextSeq.toNat (cell.drop 8) = true ∧
      L.sdl.cells.length = 3) fun L M =>
      M.sdl.cells = L.sdl.cells.set (voteOf (cell.drop 8)).origin.toNat (some (voteOf (cell.drop 8))) ∧ L.only [] M) ∧
  (∀ l (cell : List Byte) hdr crc, DoesWhen l (.vcell l cell hdr crc)
    (fun L => xferOk 3 (byteBeats cell) hdr crc = true ∧ cell.length = 72 ∧ ((voteOf (cell.drop 8)).vseq ≠ L.nextSeq ∨
      e2eOk (voteOf (cell.drop 8)).origin.toNat L.nextSeq.toNat (cell.drop 8) = false)) fun L M =>
      M.sdl.cells = L.sdl.cells ∧ M.sdl.cellAt = L.sdl.cellAt ∧ M.sdl.lateMask = L.sdl.lateMask ∧ L.only [] M) ∧
  (∀ l hdr crc, DoesWhen l (.irq l hdr crc)
    (fun L => xferOk 5 [BitVec.ofNat 16 L.irqBeat0, BitVec.ofNat 16 L.gateState] hdr crc = true) fun L M =>
      M.link.irqLines = L.hedgeLines ∧ M.link.gateWord = BitVec.ofNat 32 L.gateState ∧ M.link.lastIrq = L.now ∧ M.alm.hedgeQ = [] ∧
        L.memKept M)

/-- A transfer whose header beat or CRC is not right is discarded: nothing it carries is taken, and HLNK records CRC_ERR (R20). WR, RD and RSP
with no access in flight before them: a header beat or CRC that is not right is answered NAK_CRC, an offset outside the Hedge's registers
BAD_ADDR, any other OK, a read with the register's value (R20, R24); the answer ends the access, or has it sent again (R20, R21). Which
offsets answer BAD_ADDR is read as log 39 says. -/
def Obligations.HedgeLinkIntegrity : Prop :=
  (
  (∀ l hdr crc, DoesWhen l (.time l hdr crc) (fun L => xferOk 4 (wordBeats L.timePayload) hdr crc = false) fun L M =>
    M.flagged Ev.HLNK_CRC_ERR ∧ M.link = { L.link with timePend := false } ∧ L.only (tokRegs .hlnk 0) M) ∧
  (∀ l hdr b0 b1 crc, DoesWhen l (.leg l hdr b0 b1 crc) (fun _ => xferOk 1 [b0, b1] hdr crc = false) fun L M =>
    M.flagged Ev.HLNK_CRC_ERR ∧ M.gate = L.gate ∧ M.link = L.link ∧ L.only (tokRegs .hlnk 0) M) ∧
  (∀ l flags hdr crc, DoesWhen l (.vref l flags hdr crc)
    (fun L => xferOk 2 (vrefBeats (L.sdl.vrefOut.getD noRefs) flags) hdr crc = false) fun L M =>
      M.flagged Ev.HLNK_CRC_ERR ∧ M.drive = L.drive ∧ L.only (tokRegs .hlnk 0) M) ∧
  (∀ l (cell : List Byte) hdr crc, DoesWhen l (.vcell l cell hdr crc) (fun _ => xferOk 3 (byteBeats cell) hdr crc = false) fun L M =>
    M.flagged Ev.HLNK_CRC_ERR ∧ M.sdl = L.sdl ∧ L.only (tokRegs .hlnk 0) M) ∧
  (∀ l hdr crc, DoesWhen l (.irq l hdr crc)
    (fun L => xferOk 5 [BitVec.ofNat 16 L.irqBeat0, BitVec.ofNat 16 L.gateState] hdr crc = false) fun L M =>
      M.flagged Ev.HLNK_CRC_ERR ∧ M.link.irqLines = L.link.irqLines ∧ M.link.gateWord = L.link.gateWord ∧ L.only (tokRegs .hlnk 0) M))
  ∧
  (
  (∀ l off d hdr crc, xferOk 6 (off :: wordBeats d) hdr crc = false → DoesAny l (.wr l off d hdr crc) fun _ M =>
    M.link.rsp = some (1, 0) ∧ M.flagged Ev.HLNK_CRC_ERR) ∧
  (∀ l off d hdr crc, xferOk 6 (off :: wordBeats d) hdr crc = true → hedgeOff off.toNat = false → DoesAny l (.wr l off d hdr crc) fun L M =>
    M.link.rsp = some (2, 0) ∧ L.only [] M) ∧
  (∀ l (off : Half) d hdr crc b n o r, xferOk 6 (off :: wordBeats d) hdr crc = true → blockAt (0x50000000 + off.toNat) = some (b, n, o) →
    findRow b o = some r → (b = .icv ∨ b = .ths ∨ b = .hlnk) → r.reg ≠ R.THS_TDFUSE → o ≠ 4 → o % 4 = 0 →
      DoesIn l (.wr l off d hdr crc) (fun s => (s.lane l).blkIsolated b n = false) fun s t => (t.lane l).link.rsp = some (0, 0) ∧
        (t.lane l).rd (0x50000000 + off.toNat) = BitVec.ofNat 32
          ((s.lane l).written b n r ((s.lane l).rd (0x50000000 + off.toNat)).toNat d.toNat |||
            (((s.lane l).rd (0x50000000 + off.toNat)).toNat &&& (sget 0 (0x50000000 + off.toNat) (s.lane l).cyc.set).toNat)) ∧
        (s.lane l).only [0x50000000 + off.toNat] (t.lane l)) ∧
  (∀ l off hdr crc, xferOk 7 [off] hdr crc = false → Does l (.rd l off hdr crc) fun _ M =>
    M.link.rsp = some (1, 0) ∧ M.flagged Ev.HLNK_CRC_ERR) ∧
  (∀ l off hdr crc, xferOk 7 [off] hdr crc = true → hedgeOff off.toNat = false → Does l (.rd l off hdr crc) fun L M =>
    M.link.rsp = some (2, 0) ∧ L.only [] M) ∧
  (∀ l (off : Half) hdr crc, xferOk 7 [off] hdr crc = true → hedgeOff off.toNat = true → Does l (.rd l off hdr crc) fun L M =>
    M.link.rsp = some (0, BitVec.ofNat 32 (L.regView (0x50000000 + off.toNat))) ∧
    (¬ (0x20 ≤ off.toNat % 0x1000 ∧ off.toNat % 0x1000 < 0x30) → L.only [] M)) ∧
  (∀ l hdr crc, DoesWhen l (.rsp l hdr crc) (fun L => xferOk 8 L.rspBeats hdr crc = true ∧ (L.link.rsp.map (·.1)).getD 1 = 0) fun L M =>
    M.link.rsp = none ∧ M.link.accesses.length = L.link.accesses.length - 1 ∧
    ((L.link.accesses.head?.map (·.write)).getD true = false → M.cmdq.busData = (L.link.rsp.map (·.2)).getD 0) ∧ L.only [] M) ∧
  (∀ l hdr crc, DoesWhen l (.rsp l hdr crc) (fun L => xferOk 8 L.rspBeats hdr crc = true ∧ (L.link.rsp.map (·.1)).getD 1 = 2) fun L M =>
    M.link.rsp = none ∧ M.link.accesses.length = L.link.accesses.length - 1 ∧ M.shows (Ev.BUS_ERR .sys) ∧ L.only (evRegs .sys 0) M) ∧
  (∀ l hdr crc, DoesWhen l (.rsp l hdr crc) (fun L => xferOk 8 L.rspBeats hdr crc = false) fun L M =>
    M.link = { L.link with rsp := none } ∧ M.flagged Ev.HLNK_CRC_ERR ∧ L.only (tokRegs .hlnk 0) M) ∧
  (∀ l, DoesWhen l (.rspTimeout l) (fun L => (L.link.accesses.head?.map (·.tries)).getD 0 < 2) fun L M =>
    M.link.accesses.tail = L.link.accesses.tail ∧ M.link.rsp = none ∧ L.only [] M ∧
    M.link.accesses.head? = L.link.accesses.head?.map (fun h => { h with tries := h.tries + 1, sentAt := L.now })) ∧
  (∀ l, DoesWhen l (.rspTimeout l) (fun L => 2 ≤ (L.link.accesses.head?.map (·.tries)).getD 0) fun _ M =>
    M.link.accesses = [] ∧ M.link.trained = false ∧ M.link.downLine = true ∧ M.flagged Ev.HLNK_HLNK_DOWN ∧ M.flagged (Ev.BUS_ERR .sys)))

/-- REGISTER_WRITE of a master that runs and whose PMP lets it through: an unaligned address or one the firewall keeps from the master is a
bus error (R46, R146); a word of RAM takes the value; a register of a powered logic-die block takes it field by field by the access codes
of Table 0.5, where the block ignores no bit of it now and none of its fields has a command of its own (R11, R46), a flag that an event
sets in the same cycle staying (R54); a store to the Hedge window waits in the link master (R24). -/
def Obligations.RegisterWriteReaches : Prop :=
  (∀ l m a v, DoesWhen l (.registerWrite l m a v) (fun _ => a.toNat % 4 ≠ 0 ∨ permits m true a.toNat = false) fun L M =>
    M.shows (Ev.BUS_ERR .sys) ∧ L.only (evRegs .sys 0) M) ∧
  (∀ l m a v, DoesWhen l (.registerWrite l m a v)
    (fun L => a.toNat % 4 = 0 ∧ permits m true a.toNat = true ∧ inMemory a.toNat = true ∧ L.domOn (memDom a.toNat) = true ∧
      L.poisoned a.toNat = false ∧ ¬ (0x30000000 ≤ a.toNat ∧ a.toNat < 0x30040000)) fun L M =>
        M.memWord a.toNat = v ∧ (∀ b, b < a.toNat ∨ a.toNat + 4 ≤ b → M.byte b = L.byte b) ∧ ∀ r, M.rd r = L.rd r) ∧
  (∀ l m a v b n r, DoesWhen l (.registerWrite l m a v) (fun L => permits m true a.toNat = true ∧ L.plainReg a.toNat b n r) fun L M =>
    M.rd a.toNat = BitVec.ofNat 32
      (L.written b n r (L.rd a.toNat).toNat v.toNat ||| ((L.rd a.toNat).toNat &&& (sget 0 a.toNat L.cyc.set).toNat)) ∧ L.only [a.toNat] M) ∧
  (∀ l m a v b n o, DoesWhen l (.registerWrite l m a v)
    (fun L => blockAt a.toNat = some (b, n, o) ∧ b.isHedge = true ∧ a.toNat % 4 = 0 ∧ permits m true a.toNat = true ∧
      L.link.trained = true) fun L M =>
        M.link.accesses = L.link.accesses ++ [⟨true, a.toNat - 0x50000000, v, 0, L.now⟩] ∧ L.only [] M)

/-- Clock monitors (R28, R29) and the frequency levels: a raise asks for the voltage and waits, a drop switches first, a level written during
a change waits (R31, R33), the clocks switch 50 us after the acknowledge, and the critical-path monitor adds 20 mV (Table 1.7). Module
time: steering by one tick toward the reference at most once per us (R34), an ACTIVE lane more than 100 ns off put out of the vote, drift
reported (R37), a lane without peer time (R38), and a read of CLK_MT_LO (R41). -/
def Obligations.ClocksAndModuleTime : Prop :=
  (
  (∀ l, Does l (.clkmon l) fun L M => M.get F.GD_LSTOP_CLKMON = 1 ∧ M.link.clkBadAt = L.now ∧ M.sdl.held = true ∧
    M.get F.SDL_VSTAT_NOVOTE = 1 ∧ L.only (R.SDL_VSTAT.addr 0 0 :: gateRegs ++ evRegs .gd 0) M) ∧
  (∀ l, Does l (.aonXtalLost l) fun L M => M.clk = { L.clk with aonLostAt := some L.now } ∧ L.sets aonFlag 1 M ∧
    M.flagged Ev.CLK_AON_XTAL_LOST ∧ L.only (aonFlag.reg.addr 0 0 :: tokRegs .clk 0) M) ∧
  (∀ l ran, Does l (.aonXtalClear l ran) fun L M => M.clk = { L.clk with aonLostAt := none } ∧ L.sets aonFlag 0 M ∧ L.only [aonFlag.reg.addr 0 0] M) ∧
  (∀ l req, Does l (.clkLevelReq l req) fun L M => M.get F.CLK_LEVEL_REQ = req.toNat ∧ L.only [R.CLK_LEVEL.addr 0 0] M ∧
    (L.is F.CLK_LEVEL_BUSY = true → M.clk = { L.clk with nextLevel := some req.toNat } ∧ M.get F.CLK_LEVEL_CUR = L.get F.CLK_LEVEL_CUR) ∧
    (L.is F.CLK_LEVEL_BUSY = false → req.toNat < L.get F.CLK_LEVEL_CUR → M.clk = { L.clk with phase := .raiseAck req.toNat } ∧
      M.get F.CLK_LEVEL_CUR = L.get F.CLK_LEVEL_CUR ∧ M.get F.CLK_LEVEL_BUSY = 1) ∧
    (L.is F.CLK_LEVEL_BUSY = false → L.get F.CLK_LEVEL_CUR < req.toNat → M.clk = { L.clk with phase := .lowerAck req.toNat } ∧
      M.get F.CLK_LEVEL_CUR = req.toNat ∧ M.get F.CLK_LEVEL_BUSY = 1) ∧
    (L.is F.CLK_LEVEL_BUSY = false → L.get F.CLK_LEVEL_CUR = req.toNat → M.clk = L.clk)) ∧
  (∀ l, Does l (.clkSwitch l) fun L M => (∀ t a, L.clk.phase = .raiseSettle t a → M.get F.CLK_LEVEL_CUR = t) ∧
    M.get F.CLK_LEVEL_BUSY = 0 ∧ M.get F.CLK_LEVEL_VSTEP = 0 ∧ M.clk.phase = .idle ∧ L.only [R.CLK_LEVEL.addr 0 0] M) ∧
  (∀ l, Does l (.criticalPathMargin l) fun L M => L.sets F.CLK_LEVEL_VSTEP (L.get F.CLK_LEVEL_VSTEP + 1) M ∧
    (⟨2, 1, 0, 820 + 20 * L.get F.CLK_LEVEL_VSTEP⟩ : PreqReq) ∈ M.pwr.queue ∧ L.only [R.CLK_LEVEL.addr 0 0] M))
  ∧
  (
  (∀ l, Does l (.timeSteer l) fun L M => M.clk.lastSteer = L.now ∧ (∀ d, L.timeOfs = some d →
      (d < 0 → M.mt = L.mt + 1 ∧ M.clk.skipTick = L.clk.skipTick) ∧ (0 < d → M.mt = L.mt ∧ M.clk.skipTick = true) ∧
      (d = 0 → M.mt = L.mt ∧ M.clk.skipTick = L.clk.skipTick) ∧
      (20 < d.natAbs - 1 → L.active = true → M.flagged Ev.CLK_TIME_FAULT ∧ M.own ≠ 1)) ∧ (L.own ≠ 0 → L.own ≠ 1 → L.only [] M)) ∧
  (∀ l, Does l (.timeDrift l) fun L M => M.flagged Ev.CLK_TIME_DRIFT ∧ M.clk = { L.clk with driftSince := some L.now } ∧ M.mt = L.mt ∧
    (L.own ≠ 0 → L.own ≠ 1 → L.only (tokRegs .clk 0) M)) ∧
  (∀ l, Does l (.solo l) fun L M => L.sets F.CLK_MT_SYNC_SOLO 1 M ∧ L.only [R.CLK_MT_SYNC.addr 0 0] M) ∧
  (∀ l m, Does l (.clkMtLoRead l m) fun L M => M.cmdq.busData = BitVec.ofNat 32 L.mt.toNat ∧
    M.get F.CLK_MT_HI_MT_HI = L.mt.toNat / 2 ^ 32 ∧ L.sets F.CLK_MT_SYNC_ADOPTED 0 M ∧
    L.only [R.CLK_MT_HI.addr 0 0, R.CLK_MT_SYNC.addr 0 0] M))

/-- A lane reset by any of its sources: its cause bit added to SYS_RSTCAUSE, the logic die held, module time and the memories gone, LEGTO
standing and the lane out of the vote (Table 1.8, R23, R42, R43); SYS_RSTREQ acts on its key alone. SRST resets a block instance and
records SRST_DONE; where the block must not be reset now it is ignored and SRST_REFUSED recorded (R51, R52, R307); in a domain without
power a bus error. What R51 does not keep reads as after reset, and other blocks' registers stay. The supplies and the lane reset order:
VBAT_x falling and rising (R45, R542), a source released (R43), the wipe over and the clocks running (Table 1.9), the Hedge link trained
with the Hedge's identity copied, or its training failed and the identity 0 (R62, R65), the kernel released (Table 1.9). The peers'
cross-inhibit inputs follow the supply (R45, R83). What a lane reset and an element reset keep is read as logs 21 and 26 say; memory after
the wipe reads 0 (log 5). -/
def Obligations.ResetsAndTheirOrder : Prop :=
  (
  let after (src : RstSrc) (L M : Lane) : Prop := M.rst.phase = .held ∧ src ∈ M.rst.sources ∧ bit (M.reg R.SYS_RSTCAUSE) (causeBit src) = true ∧
    M.mt = 0 ∧ M.get F.GD_LSTOP_LEGTO = 1 ∧ M.sdl.held = true ∧ M.get F.SDL_VSTAT_NOVOTE = 1 ∧ M.strap = L.strap ∧
    (∀ a, 0x10000000 ≤ a → a < 0x50000000 → M.byte a = 0) ∧ (∀ a, a < 0x01000000 → M.byte a = L.byte a)
  (∀ l src, Does l (.laneReset l src) (after src)) ∧
  (∀ l (v : Word), v.toNat % 0x10000 = 0xA5C3 → bit v.toNat 16 = true → Does l (.sysRstreq l v) (after .soft)) ∧
  (∀ l (v : Word), v.toNat % 0x10000 ≠ 0xA5C3 → Does l (.sysRstreq l v) fun L M => M.shows (Ev.BUS_ERR .sys) ∧ L.only (evRegs .sys 0) M) ∧
  (∀ l, Does l (.xtalLoss l) (after .clkLoss)) ∧
  (∀ l, Does l (.pllUnlock l) (after .clkLoss)))
  ∧
  (
  ∀ l b n, Does l (.srst l b n) fun L M =>
    (L.blkPowered b = false → M.shows (Ev.BUS_ERR .sys) ∧ L.only (evRegs .sys 0) M) ∧
    (L.blkPowered b = true → b = .bist → L.bistBusy = true → M = L) ∧
    (L.blkPowered b = true → ¬ (b = .bist ∧ L.bistBusy = true) → L.srstRefused b n = true →
      M.shows (Ev.SRST_REFUSED b) n ∧ L.only (evRegs b n) M) ∧
    (L.blkPowered b = true → ¬ (b = .bist ∧ L.bistBusy = true) → L.srstRefused b n = false → M.shows (Ev.SRST_DONE b) n ∧ M.strap = L.strap ∧
      (b ≠ .drv → b ≠ .pos → b ≠ .trio →
        (∀ a, inBlk b n a = true → keepMask a = 0 → M.rd a = resetWord L.strap a) ∧
        ∀ a, inBlk b n a = false → a ≠ R.ALM_STAT.addr 0 0 → M.rd a = L.rd a)))
  ∧
  (
  (∀ l, DoesAny l (.vbatLow l) fun L M => M.rst.vbatOk = false ∧ M.rst.phase = .held ∧ M.rst.sources = [.por] ∧
    M.gate.on = List.replicate 24 false ∧ M.get F.PROT_VM_BRK_ON = 0 ∧ M.sdl.held = true ∧ M.mt = 0 ∧ M.strap = L.strap) ∧
  (∀ l, DoesIn l (.vbatLow l) (fun s => (s.lane l).sdl.lineStuck = [none, none]) fun _ t =>
    (t.lane l.next).get F.SDL_XINH_IN_PV = 0 ∧ (t.lane l.prev).get F.SDL_XINH_IN_NX = 0) ∧
  (∀ l, DoesAny l (.hedgePowerOn l) fun L M => M.hedgeUp = true ∧ M.rst.phase = .held ∧ M.rst.sources = [.por] ∧ M.now = 0 ∧
    M.link.ident = L.link.ident ∧ M.alm.slots = L.alm.slots ∧ M.strap = L.strap ∧ (∀ a, 0x01000000 ≤ a → M.byte a = 0) ∧
    (M.get F.SDL_XINH_OUT_NX = 0 ∧ M.get F.SDL_XINH_OUT_PV = 0) ∧ ∀ a, a < 0x01000000 → M.byte a = L.byte a) ∧
  (∀ l src, Does l (.resetRelease l src) fun L M => M.rst.sources = L.rst.sources.filter (fun x => x != src) ∧
    (M.rst.sources = [] → M.rst.phase = .wiping ∧ M.rst.phaseAt = L.now) ∧ (M.rst.sources ≠ [] → M.rst.phase = .held) ∧ L.only [] M) ∧
  (∀ l, Does l (.crystalValid l) fun L M => M.rst.phase = .clocked ∧ M.clk.pllOn = true ∧ M.clk.xtalOk = true ∧
    L.sets F.CLK_LEVEL_CUR 0 M ∧ L.only [R.CLK_LEVEL.addr 0 0] M) ∧
  (∀ l, Does l (.hedgeLinkTrained l true) fun L M => M.link.trained = true ∧ M.link.accesses = [] ∧ M.link.downLine = false ∧
    (L.rst.phase = .clocked → M.rst.phase = .linked) ∧ M.rd (R.SYS_HD_LOT_0.addr 0 0) = L.link.ident.getD 0 0 ∧
    M.rd (R.SYS_HD_LOT_1.addr 0 0) = L.link.ident.getD 1 0 ∧ M.rd (R.SYS_HD_POS.addr 0 0) = L.link.ident.getD 2 0 ∧
    M.rd (R.SYS_HD_STEP.addr 0 0) = L.link.ident.getD 3 0 ∧
    L.only [R.SYS_HD_LOT_0.addr 0 0, R.SYS_HD_LOT_1.addr 0 0, R.SYS_HD_POS.addr 0 0, R.SYS_HD_STEP.addr 0 0] M) ∧
  (∀ l, DoesWhen l (.hedgeLinkTrained l false) (fun L => L.rst.phase = .clocked) fun L M => M.rst = L.rst ∧ M.link.downLine = true ∧
    M.rd (R.SYS_HD_LOT_0.addr 0 0) = 0 ∧ M.rd (R.SYS_HD_LOT_1.addr 0 0) = 0 ∧ M.rd (R.SYS_HD_POS.addr 0 0) = 0 ∧
    M.rd (R.SYS_HD_STEP.addr 0 0) = 0 ∧ (L.link.downLine = false → M.flagged Ev.HLNK_HLNK_DOWN)) ∧
  (∀ l app, Does l (.kernelRelease l true app) fun _ M => M.rst.phase = .running ∧ (M.own = 0 ∨ M.own = 4) ∧ M.icv.queue ≠ []) ∧
  (∀ l, Does l (.lstopClr l) fun L M => M.get F.GD_LSTOP_REMOVED = 0 ∧
    (L.now < L.link.lastLeg + us 2 → L.since L.link.legsSince (us 10) = true → M.get F.GD_LSTOP_LEGTO = 0) ∧
    (L.since L.link.clkBadAt (ms 1) = true → M.get F.GD_LSTOP_CLKMON = 0) ∧
    L.only (R.SDL_VSTAT.addr 0 0 :: gateRegs) M))

/-- Event history and leaky buckets: EVQ_CLR empties queue and shadows (R53), a read of an entry copies its time word into the shadow (R56),
tokens older than WINDOW leave (R378). Claim and completion: a claim returns the pending, enabled source of the highest priority above 0,
the lowest number among equals, or 0, and holds it for the context (R57, R60); a completion of a source the context has enabled ends the
claim, any other number nothing (R57). Of two contexts that claim the same source in one cycle one gets it, the other 0 (R60). Which
sources are pending, and that any context with the source enabled completes it, are readings (logs 9 to 11). -/
def Obligations.EventsAndInterrupts : Prop :=
  (
  (∀ l b n, DoesWhen l (.evqClr l b n) (fun L => L.cyc.ev = []) fun L M => (∀ k, k < 4 → M.rd (evqA b n k) = 0 ∧ M.rd (evqT b n k) = 0) ∧
    L.only ([0, 1, 2, 3].flatMap fun k => [evqA b n k, evqT b n k]) M) ∧
  (∀ l m b n e, Does l (.evqRead l m b n e) fun L M => M.cmdq.busData = L.rd (evqA b n e.val) ∧ M.rd (evqT b n e.val) = L.evqTimeOf b n e.val ∧
    evqA b n e.val ∈ M.evqRead ∧ L.only [evqT b n e.val] M) ∧
  (∀ l b n, Does l (.lbTokenExpire l b n) fun L M =>
    M.tokens = L.tokens.filter (fun t => !(t.blk == b && t.inst == n && decide (t.time + L.lbWindow b n < L.mtN))) ∧
    L.only ((H.LBCFG b).addr n 0 :: if b = .trio then [R.TRIO_TCNT.addr 0 0] else []) M))
  ∧
  (
  (∀ l ctx, Does l (.claim l ctx none) fun L M => M.cmdq.busData = BitVec.ofNat 32 (L.claimOf ctx.val) ∧ L.only [] M ∧
    (L.claimOf ctx.val = 0 → M.claimed = L.claimed ∧ M.ip = L.ip ∧
      ∀ k, 0 < k → k < 128 → L.irqPending k = true → L.srcEnabled ctx.val k = true → L.priority k = 0) ∧
    (L.claimOf ctx.val ≠ 0 → M.claimed = (L.claimOf ctx.val, ctx.val) :: L.claimed ∧ L.claimOf ctx.val ∉ M.ip ∧
      L.irqPending (L.claimOf ctx.val) = true ∧ L.srcEnabled ctx.val (L.claimOf ctx.val) = true ∧
      ∀ k, 0 < k → k < 128 → L.irqPending k = true → L.srcEnabled ctx.val k = true →
        L.priority k < L.priority (L.claimOf ctx.val) ∨
          (L.priority k = L.priority (L.claimOf ctx.val) ∧ L.claimOf ctx.val ≤ k))) ∧
  (∀ l ctx c, DoesWhen l (.claim l ctx (some c)) (fun L => c ≠ ctx ∧ L.claimOf ctx.val = L.claimOf c.val ∧ L.claimOf ctx.val ≠ 0 ∧
      L.claimData.length = 3) fun L M =>
    M.claimed = (L.claimOf ctx.val, ctx.val) :: L.claimed ∧ nthN M.claimData ctx.val = L.claimOf ctx.val ∧ nthN M.claimData c.val = 0 ∧
      L.only [] M) ∧
  (∀ l ctx src, Does l (.complete l ctx src) fun L M => L.only [] M ∧
    (src < 128 → L.srcEnabled ctx.val src = true → M.claimed = L.claimed.filter (fun c => c.1 != src)) ∧
    (L.srcEnabled ctx.val src = false → M = L)) ∧
  (∀ l peer, Does l (.mirrorStale l peer) fun L M => M.mirrorWord (windowBase peer + 0x00F00004) = 1 ∧
    (∀ a, a ≠ windowBase peer + 0x00F00004 → M.mirrorWord a = L.mirrorWord a) ∧ L.only [] M))

/-- A cell is taken only inside its guard window of 20 ns (R69) and if its code word decodes (R68); otherwise it is discarded with its event
and count. A vote cell taken replaces the sender's (R72), a relayed one its originator's (R71); a stream cell brings what Table 2.3 lists.
A heartbeat counts only with its guard window, code word, header and E2E right; it then keeps the link and brings the peer's state and
flags (R70, R73, R81). Three link cycles without one take the link down and forget the peer's state, on the external port three of its own
cycles (R110); training brings the link up with its delay, a third failure in succession is recorded (R70). The link cycle (R66, Table
2.3) and the own vote cell: built with the sequence number of the next boundary and its E2E (R72, R73), sent from 4 us before the boundary
(R93). A cell's sequence number is read as log 117 says, a cell that is not for its receiver as log 119. -/
def Obligations.OztinLinks : Prop :=
  (
  (∀ l link ns cell item, ∀ i, i ∈ ([.vote l link ns cell, .relayVote l link ns cell, .heart l link ns cell, .stream l link ns cell item] : List Instr) →
    DoesWhen l i (fun L => 20 < (L.cellOff link.val ns.val).2.natAbs) fun L M => M.flagged Ev.OZL_GUARD_MISS ∧ M.ozl = { L.ozl with scoreAt := M.ozl.scoreAt } ∧
      M.get F.OZL_LINK_GMISS 0 link.val = min (L.get F.OZL_LINK_GMISS 0 link.val + 1) (2 ^ F.OZL_LINK_GMISS.w - 1) ∧
      L.only (linkRegs link.val) M) ∧
  (∀ l link ns cell item, (decodeCell cell).1 = .failed →
    ∀ i, i ∈ ([.vote l link ns cell, .relayVote l link ns cell, .heart l link ns cell, .stream l link ns cell item] : List Instr) →
    DoesWhen l i (fun L => (L.cellOff link.val ns.val).2.natAbs ≤ 20) fun L M => M.flagged Ev.OZL_RS_FAIL ∧ M.ozl = { L.ozl with scoreAt := M.ozl.scoreAt } ∧
      M.get F.OZL_LINK_RSFAIL 0 link.val = min (L.get F.OZL_LINK_RSFAIL 0 link.val + 1) (2 ^ F.OZL_LINK_RSFAIL.w - 1) ∧
      L.only (linkRegs link.val) M) ∧
  (∀ l link ns cell, DoesWhen l (.vote l link ns cell) (fun L => L.cellTaken link.val ns.val cell 1) fun L M =>
    M.ozl.peerCells = L.ozl.peerCells.set link.val (some (voteOf (cellPay cell))) ∧ L.only (linkRegs link.val) M) ∧
  (∀ l link ns cell, DoesWhen l (.relayVote l link ns cell)
    (fun L => L.cellTaken link.val ns.val cell 4 ∧ (voteOf (cellPay cell)).origin.toNat = l.next.idx) fun L M =>
      M.ozl.peerCells = L.ozl.peerCells.set 0 (some (voteOf (cellPay cell))) ∧ L.only (linkRegs link.val) M) ∧
  (∀ l link ns cell, DoesWhen l (.relayVote l link ns cell)
    (fun L => L.cellTaken link.val ns.val cell 4 ∧ (voteOf (cellPay cell)).origin.toNat = l.prev.idx) fun L M =>
      M.ozl.peerCells = L.ozl.peerCells.set 1 (some (voteOf (cellPay cell))) ∧ L.only (linkRegs link.val) M) ∧
  (∀ l link ns cell, DoesWhen l (.relayVote l link ns cell)
    (fun L => L.cellTaken link.val ns.val cell 4 ∧ (voteOf (cellPay cell)).origin.toNat = l.idx) fun L M =>
      M.ozl = L.ozl ∧ L.only (linkRegs link.val) M) ∧
  (∀ l link ns cell code v, DoesWhen l (.stream l link ns cell (.sensor code v)) (fun L => L.cellTaken link.val ns.val cell 3) fun L M =>
    M.ozl.sensors = L.ozl.sensors.set (32 * link.val + code.val) (some v) ∧ L.only (linkRegs link.val) M) ∧
  (∀ l link ns cell c d, DoesWhen l (.stream l link ns cell (.digests c d)) (fun L => L.cellTaken link.val ns.val cell 3) fun L M =>
    M.ozl.peerCdig = L.ozl.peerCdig.set link.val (some c) ∧ M.ozl.peerSdig = L.ozl.peerSdig.set link.val (some d) ∧
    L.only (linkRegs link.val) M) ∧
  (∀ l link ns cell bs, DoesWhen l (.stream l link ns cell (.packet bs)) (fun L => L.cellTaken link.val ns.val cell 3) fun L M =>
    M.cmdq.fwdIn = L.cmdq.fwdIn ++ [bs] ∧ L.only (linkRegs link.val) M) ∧
  (∀ l link ns cell words, DoesWhen l (.stream l link ns cell (.mirror words)) (fun L => L.cellTaken link.val ns.val cell 3) fun L M =>
    M.mirrorWord (windowBase (linkPeer l link.val) + 0x00F00004) = 0 ∧ L.only (linkRegs link.val) M ∧
    ∀ a, inMirror (linkPeer l link.val) a = false → M.mirrorWord a = L.mirrorWord a))
  ∧
  (
  (∀ l link ns cell, DoesWhen l (.heart l link ns cell)
    (fun L => L.cellTaken link.val ns.val cell 2 ∧ e2eOk (cellHdr (cellBody cell)).src (cellHdr (cellBody cell)).cyc (cellPay cell) = true) fun L M =>
      M.ozl.lastHeart = L.ozl.lastHeart.set link.val L.now ∧
      M.ozl.peerFlags = L.ozl.peerFlags.set link.val (heartOf (cellHdr (cellBody cell)) (cellPay cell)).flags ∧
      M.stOf (linkPeer L.strap link.val) = (heartOf (cellHdr (cellBody cell)) (cellPay cell)).state.toNat % 8) ∧
  (∀ l link ns cell, DoesWhen l (.heart l link ns cell)
    (fun L => L.cellTaken link.val ns.val cell 2 ∧ e2eOk (cellHdr (cellBody cell)).src (cellHdr (cellBody cell)).cyc (cellPay cell) = false) fun L M =>
      M.ozl = L.ozl ∧ M.clk = L.clk ∧ M.mt = L.mt ∧ L.only (evRegs .ozl 0) M) ∧
  (∀ l (link : Fin 3), link.val < 2 → Does l (.linkHeartLoss l link) fun L M =>
    L.sets F.OZL_LINK_UP 0 M 0 link.val ∧ M.stOf (linkPeer l link.val) = 7 ∧
    M.ozl.training = L.ozl.training.set link.val true ∧ L.only [R.OZL_LINK.addr 0 link.val, R.OZL_LSTATE.addr 0 0] M) ∧
  (∀ l, Does l (.linkHeartLoss l 2) fun L M => L.sets F.OZL_LINK_UP 0 M 0 2 ∧ M.get F.OZL_PAIR_PUP = 0 ∧
    M.ozl.training = L.ozl.training.set 2 true ∧ L.only [R.OZL_LINK.addr 0 2, R.OZL_PAIR.addr 0 0] M) ∧
  (∀ l link, Does l (.linkRetrain l link) fun L M => M.ozl.lastTrain = L.ozl.lastTrain.set link.val L.now ∧
    M.ozl.training = L.ozl.training.set link.val true ∧
    (nthB L.ozl.training link.val = true → M.get F.OZL_LINK_TRAINED 0 link.val = 0) ∧
    (nthB L.ozl.training link.val = true → nthN L.ozl.trainFails link.val = 2 → M.shows Ev.OZL_LINK_DOWN) ∧
    L.only (R.OZL_LINK.addr 0 link.val :: evRegs .ozl 0) M) ∧
  (∀ l link d, Does l (.linkTrained l link d) fun L M => M.reg R.OZL_LINK 0 link.val = 3 + 0x100 * d.toNat ∧
    M.linkUp link.val = (link.val != 2 || L.is F.OZL_PAIR_PAIRED) ∧
    M.ozl.training = L.ozl.training.set link.val false ∧ L.only [R.OZL_LINK.addr 0 link.val] M))
  ∧
  (
  (∀ l link, Does l (.linkCycle l link) fun L M => M.ozl.txCyc = L.ozl.txCyc.set link.val (L.mtN / 200 % 2 ^ 16) ∧
    M.ozl.txItems = L.ozl.txItems.set link.val (L.streamOut link.val (M.is F.OZL_LSTATE_RELAY)) ∧
    M.cmdq.fwdOut = L.cmdq.fwdOut.set link.val [] ∧ L.only [R.OZL_LSTATE.addr 0 0] M ∧
    (∀ c, L.inPeriod = L.periodT - 800 → L.ozl.cellOut = some c →
      M.ozl.txSlot0 = L.ozl.txSlot0.set link.val .vote ∧ M.ozl.relayOut = L.ozl.relayOut ∧
      M.ozl.txCells = L.ozl.txCells.set link.val [sealCell (L.txHdr link.val 0 1) (votePayload c),
        sealCell (L.txHdr link.val 1 2) (heartPayload (L.heartOut link.val))]) ∧
    (L.inPeriod ≠ L.periodT - 800 → M.ozl.txSlot0 = L.ozl.txSlot0.set link.val
      (if (L.ozl.relayOut.getD link.val none).isSome then .relay else .idle))) ∧
  (∀ l, Does l (.cellBuild l) fun L M => M.ozl.cellSent = false ∧ L.only [R.OZL_VSEQ.addr 0 0] M ∧
    (∃ c, M.ozl.cellOut = some c ∧ c.vseq = L.nextSeq ∧ c.origin.toNat = L.strap.idx ∧ c.e2e = cellE2E c L.nextSeq.toNat ∧
      c.lstate.toNat = L.own ∧ c.refs.member.toNat = L.members ∧ c.refs.share.toNat = L.ozl.shareNow % 4 ∧ c.refs.leave = L.ozl.leaveNow ∧ c.refs.join = L.ozl.joinNow ∧ c.cdig = L.ozl.cdig ∧ c.score.toNat = L.score ∧
      c.refs.ena.toNat = L.cellEna - (L.cellEna &&& L.get F.SAF_VIOL_STO)) ∧
    M.get F.OZL_VSEQ_VSEQ = L.nextSeq.toNat) ∧
  (∀ l, Does l (.cellSend l) fun L M => M.ozl = { L.ozl with cellSent := true } ∧ L.only [] M))

/-- The Saddle decides once per period and issues what it decides (R76, Table 2.7). The voted values of R78: in 2oo3 outside a resolution and
without a pairwise disagreement of all three, the median of each analogue field and the value at least two cells hold of each discrete
one; in 2oo2 with agreeing fields outside a resolution, the mean rounded toward zero and the common value. -/
def Obligations.VotedValues : Prop :=
  (∀ l, Does l (.saddleDecision l) fun _ M => M.sdl.decided = true ∧ ∃ r, M.sdl.voted = some r ∧ M.sdl.vrefOut = some r) ∧
  (∀ l, Does l (.saddleDecision l) fun L M => ∀ a b c, L.counted .a = some a → L.counted .b = some b → L.counted .c = some c →
    L.sdl.resolving = false → a.refs.tq.length = 4 → b.refs.tq.length = 4 → c.refs.tq.length = 4 → a.refs.fx.length = 4 → b.refs.fx.length = 4 →
    c.refs.fx.length = 4 → (refs3 (L.get F.SDL_BAND_TQ_BAND) (L.get F.SDL_BAND_FX_BAND) a.refs b.refs c.refs).2.testBit 3 = false →
    ∃ r, M.sdl.voted = some r ∧ M.sdl.vrefOut = some r ∧ M.sdl.decided = true ∧ M.get F.SDL_VSTAT_MODE = 1 ∧
      (∀ k, k < 4 → q15 (r.tq.getD k 0) = median3 (q15 (a.refs.tq.getD k 0)) (q15 (b.refs.tq.getD k 0)) (q15 (c.refs.tq.getD k 0)) ∧
        q15 (r.fx.getD k 0) = median3 (q15 (a.refs.fx.getD k 0)) (q15 (b.refs.fx.getD k 0)) (q15 (c.refs.fx.getD k 0))) ∧
      ∀ k, k < 7 → (nthN (discretes a.refs) k = nthN (discretes b.refs) k ∨ nthN (discretes a.refs) k = nthN (discretes c.refs) k →
          nthN (discretes r) k = nthN (discretes a.refs) k) ∧
        (nthN (discretes b.refs) k = nthN (discretes c.refs) k → nthN (discretes r) k = nthN (discretes b.refs) k)) ∧
  (∀ l, Does l (.saddleDecision l) fun L M => ∀ x y z a b, [x, y, z] ∈ [[LaneId.a, .b, .c], [.a, .c, .b], [.b, .c, .a]] →
    L.counted x = some a → L.counted y = some b → L.counted z = none → L.sdl.resolving = false →
    a.refs.tq.length = 4 → b.refs.tq.length = 4 → a.refs.fx.length = 4 → b.refs.fx.length = 4 →
    refsAgree (L.get F.SDL_BAND_TQ_BAND) (L.get F.SDL_BAND_FX_BAND) a.refs b.refs = true →
    ∃ r, M.sdl.voted = some r ∧ M.sdl.agreed = some r ∧ M.get F.SDL_VSTAT_MODE = 2 ∧ discretes r = discretes a.refs ∧
      ∀ k, k < 4 → q15 (r.tq.getD k 0) = mean2 (q15 (a.refs.tq.getD k 0)) (q15 (b.refs.tq.getD k 0)) ∧
        q15 (r.fx.getD k 0) = mean2 (q15 (a.refs.fx.getD k 0)) (q15 (b.refs.fx.getD k 0)))

/-- A disagreement in 2oo2 freezes the last agreed values and begins the resolution (R86, R87); the next vote holds them as well, and the one
after it has the lane that passed continue with its references, the failing own lane removed (Table 2.6, R80). Without a peer cell the
last agreed values stand and in the third consecutive vote every bridge gets zero torque (R90). The own lane the minority of a 2oo3 vote:
the voted values stand and MINORITY is recorded; a second time within 16 votes the lane is removed, its gates off, and enters EXCLUDED
(R80). Which vote without a peer is the third and when the split shows are readings (log 104); a hold of more than two periods and a
second failed vote of three are the model's choice (logs 126 and 127). -/
def Obligations.FrozenAndMinorityVotes : Prop :=
  (
  (∀ l, Does l (.saddleDecision l) fun L M => ∀ x y z a b, [x, y, z] ∈ [[LaneId.a, .b, .c], [.a, .c, .b], [.b, .c, .a]] →
    L.counted x = some a → L.counted y = some b → L.counted z = none → L.sdl.resolving = false →
    L.get F.SDL_VSTAT_FRZCNT = 0 → refsAgree (L.get F.SDL_BAND_TQ_BAND) (L.get F.SDL_BAND_FX_BAND) a.refs b.refs = false →
    M.sdl.voted = some (L.sdl.agreed.getD noRefs) ∧ M.sdl.agreed = L.sdl.agreed ∧ M.sdl.resolving = true ∧
      M.get F.SDL_VSTAT_FROZEN = 1 ∧ M.get F.SDL_VSTAT_FRZCNT = 1 ∧ M.flagged Ev.SDL_FREEZE) ∧
  (∀ l, Does l (.saddleDecision l) fun L M => ∀ x y a b, x ≠ y → L.counted x = some a → L.counted y = some b →
    L.sdl.resolving = true → L.get F.SDL_VSTAT_FRZCNT = 1 →
    M.sdl.voted = some (L.sdl.agreed.getD noRefs) ∧ M.sdl.agreed = L.sdl.agreed ∧ M.sdl.resolving = true ∧
      M.get F.SDL_VSTAT_FROZEN = 1 ∧ M.get F.SDL_VSTAT_FRZCNT = 2) ∧
  (∀ l, Does l (.saddleDecision l) fun L M => ∀ y z a b, [y, z] ∈ [[L.strap.next, L.strap.prev], [L.strap.prev, L.strap.next]] →
    L.counted L.strap = some a → L.counted y = some b → L.counted z = none → L.sdl.resolving = true → L.get F.SDL_VSTAT_FRZCNT = 2 →
    a.resolve = 2 → b.resolve = 1 → M.sdl.voted = some b.refs ∧ M.sdl.agreed = some b.refs ∧ M.sdl.resolving = false ∧
      M.get F.SDL_VSTAT_FROZEN = 0 ∧ (L.is F.GD_LSTOP_REMOVED = false → M.own = 3 ∧ M.get F.GD_LSTOP_REMOVED = 1)) ∧
  (∀ l, Does l (.saddleDecision l) fun L M => L.strap = l → L.active = true → L.counted l.next = none → L.counted l.prev = none →
    L.members ≠ 2 ^ l.idx → L.is F.OZL_LSTATE_SPLIT = false → L.sdl.splitDue = false →
    (L.sdl.noPeer < 2 → L.get F.SDL_VSTAT_FRZCNT < 2 → M.sdl.voted = some (L.sdl.agreed.getD noRefs) ∧ M.sdl.noPeer = L.sdl.noPeer + 1 ∧ M.get F.SDL_VSTAT_FROZEN = 1) ∧
    (L.sdl.noPeer = 2 → M.sdl.voted = some (zeroTorque (L.sdl.agreed.getD noRefs)) ∧ M.sdl.splitDue = true)))
  ∧
  (
  ∀ l, Does l (.saddleDecision l) fun L M => ∀ a b c, L.strap = l → L.counted .a = some a → L.counted .b = some b →
    L.counted .c = some c → L.sdl.resolving = false →
    (refs3 (L.get F.SDL_BAND_TQ_BAND) (L.get F.SDL_BAND_FX_BAND) a.refs b.refs c.refs).2.testBit 3 = false →
    bit (refs3 (L.get F.SDL_BAND_TQ_BAND) (L.get F.SDL_BAND_FX_BAND) a.refs b.refs c.refs).2 l.idx = true →
    M.sdl.voted = some (refs3 (L.get F.SDL_BAND_TQ_BAND) (L.get F.SDL_BAND_FX_BAND) a.refs b.refs c.refs).1 ∧
      M.flagged Ev.SDL_MINORITY ∧ bit (M.get F.SDL_VSTAT_MINOR) l.idx = true ∧
      (1 ≤ pop16 (L.sdl.minHist.getD l.idx 0 <<< 1) → L.is F.GD_LSTOP_REMOVED = false → M.own = 3 ∧ M.get F.GD_LSTOP_REMOVED = 1 ∧
        M.flagged Ev.SDL_LANE_REMOVED ∧ ∀ k, k < 24 → nthB M.gate.on k = false))

/-- Cross-inhibit: 10 us after the decision the line toward the peer is driven, unless the peer reported HSTOP (R82); a lane with both
incoming lines asserted stops and is EXCLUDED, and runs on with one; a readback that differs from what the Hedge drives is recorded (R83,
R84). -/
def Obligations.CrossInhibit : Prop :=
  (∀ l peer (s : State), Instr.ready (.xinhAssert l peer) (s.lane l) = true → ∃ t, exec (.xinhAssert l peer) s = .next t ∧
    t.pending = s.pending ∧ (t.lane l).sdl.xDecide = (s.lane l).sdl.xDecide.set (peerIdx l peer) none ∧
    (∀ x, x ≠ l → x ≠ peer → t.lane x = s.lane x) ∧
    (nthB (s.lane l).sdl.hstopSeen (peerIdx l peer) = true → t.lane peer = s.lane peer ∧ (s.lane l).only [] (t.lane l)) ∧
    (nthB (s.lane l).sdl.hstopSeen (peerIdx l peer) = false →
      (t.lane l).get (if peer = l.next then F.SDL_XINH_OUT_NX else F.SDL_XINH_OUT_PV) = 1 ∧ (t.lane l).shows Ev.SDL_XINH_ASSERT ∧
      ((s.lane l).sdl.lineStuck.getD (peerIdx l peer) none = none →
        (t.lane peer).get (if peer = l.next then F.SDL_XINH_IN_PV else F.SDL_XINH_IN_NX) = 1) ∧
      (s.lane l).only (R.SDL_XINH.addr 0 0 :: evRegs .sdl 0) (t.lane l) ∧ (s.lane peer).only [R.SDL_XINH.addr 0 0] (t.lane peer))) ∧
  (∀ l, Does l (.xinhStopped l) fun L M => M.get F.SDL_XINH_STOPPED = 1 ∧ M.flagged Ev.SDL_XINH_STOPPED ∧ M.get F.GD_LSTOP_XINH = 1 ∧
    (∀ k, k < 24 → nthB M.gate.on k = false) ∧ (L.own = 1 → M.own = 3)) ∧
  (∀ l, Does l (.xinhRelease l) fun L M => M.get F.GD_LSTOP_XINH = 0 ∧ L.only gateRegs M) ∧
  (∀ l, Does l (.xinhSingle l) fun L M => M.shows Ev.SDL_XINH_SINGLE ∧ M.sdl = { L.sdl with singleDone := true } ∧ M.gate = L.gate ∧
    L.only (evRegs .sdl 0) M) ∧
  (∀ l peer level, DoesIn l (.xinhReadback l peer level) (fun s => (s.lane l).xinhOut peer ≠ level) fun s t =>
    (t.lane l).get F.SDL_XINH_RB_ERR = 1 ∧ (t.lane l).shows Ev.SDL_XINH_READBACK ∧ (t.lane l).gate = (s.lane l).gate ∧
    (s.lane l).only (R.SDL_XINH.addr 0 0 :: evRegs .sdl 0) (t.lane l) ∧ (s.lane peer).only [R.SDL_XINH.addr 0 0] (t.lane peer)) ∧
  (∀ l peer level, DoesIn l (.xinhReadback l peer level) (fun s => (s.lane l).xinhOut peer = level) fun s t =>
    (t.lane l).sdl.lineStuck = (s.lane l).sdl.lineStuck.set (peerIdx l peer) none ∧ (s.lane l).only [] (t.lane l) ∧
    (s.lane peer).only [R.SDL_XINH.addr 0 0] (t.lane peer) ∧
    (t.lane peer).get (if peer = l.next then F.SDL_XINH_IN_PV else F.SDL_XINH_IN_NX) = b2n level) ∧
  (∀ l, Does l (.sdlXinhStoppedClear l) fun L M => L.sets F.SDL_XINH_STOPPED 0 M ∧ L.only [R.SDL_XINH.addr 0 0] M)

/-- At a vote boundary, carried out once (R92), the voted ENA and ASC that the Saddle had pending take effect in the Hedge (R76, R263), and
cells are gathered for the next vote; with the logic die running the voted references received take effect in its drive engines (R215).
The 10 ms mark, once its boundary is carried out, sets the next one, shows SDIG over the digests the trio's register writes have moved,
keeps the lane's digests for its peers, and pulses source 11 (R131 to R134, R115). A boundary is carried out once for each T(k) (log 99). -/
def Obligations.BoundaryTakesEffect : Prop :=
  (∀ l, DoesAny l (.voteBoundary l) fun L M => M.get F.GD_VCMD_ENA = L.get F.GD_VCMD_ENA_P ∧ M.get F.GD_VCMD_ASC = L.get F.GD_VCMD_ASC_P ∧
    M.ozl.lastBound = some L.mtN ∧ M.sdl.cells = [none, none, none] ∧ M.sdl.decided = false ∧ M.ozl.cellOut = none ∧
    (∀ r, L.up = true → L.drive.vref = some r → ∀ k, k < 4 → M.get F.DRV_TQREF_VOTED k = (r.tq.getD k 0).toNat ∧
      M.get F.DRV_FXREF_VOTED k = (r.fx.getD k 0).toNat)) ∧
  (∀ l writes, DoesAny l (.mark10ms l writes) fun L M => M.trio.markDue = (L.mtN / 2000000 + 1) * 2000000 ∧
    M.get F.TRIO_SDIG_SDIG = (writes.foldl Lane.coreWrite L).sdigNow.toNat ∧
    M.ozl.markDig = some (M.ozl.cdig, (writes.foldl Lane.coreWrite L).sdigNow) ∧ M.ozl.markAt = L.mtN ∧ L.pulsed M 11)

/-- Grafting: the hold-off over and a membership heard, phase 1 begins (R94, R98, R99); a phase that passes in time leads to the next: phase 1
with the members' module time adopted (R36, R63), phase 4 with the peers' cross-inhibit lines released (R85), phase 5 with JOIN announced
(R96), phase 6 to ACTIVE in the membership the peers hold (R98); one that does not is GRAFT_FAIL, and the lane EXCLUDED or PRUNED (Table
2.9). Forming: at a boundary the lanes that are ready together become ACTIVE with one membership, where none exists and identity and life
cycle match (R63, R100, R528); beside a membership a ready lane grafts (R99); a lane ready alone for 100 ms forms alone (R101). One
FORMATION forms every lane ready with it (log 82). -/
def Obligations.LanesFormAndGraft : Prop :=
  (
  (∀ l, Does l (.graftHoldoff l) fun L M => M.own = 0 ∧ M.get F.OZL_GRAFT_PHASE = 1 ∧ M.ozl.graftAt = L.now ∧ M.ozl.shadowOk = 0) ∧
  (∀ l ref, DoesIn l (.graftPhaseDone l) (fun s => (s.lane l).get F.OZL_GRAFT_PHASE = 1 ∧ (s.lane l).phasePasses (s.donor l) = true ∧
      s.graftTime l = some ref ∧ (bootCheck s l).2 = true ∧ (bootCheck s l).1.mayVote = true ∧
      (s.hosts l).all (fun x => (s.lane x).sealedVals == (s.lane l).sealedVals) = true) fun _ t =>
    (t.lane l).get F.OZL_GRAFT_PHASE = 2 ∧ (t.lane l).clk.adopted = true ∧ (t.lane l).mt = BitVec.ofNat 64 ref) ∧
  (∀ l p, 2 ≤ p → p ≤ 5 → DoesIn l (.graftPhaseDone l)
      (fun s => (s.lane l).get F.OZL_GRAFT_PHASE = p ∧ (s.lane l).phasePasses (s.donor l) = true) fun _ t =>
    (t.lane l).get F.OZL_GRAFT_PHASE = p + 1) ∧
  (∀ l, DoesIn l (.graftPhaseDone l)
      (fun s => (s.lane l).get F.OZL_GRAFT_PHASE = 4 ∧ (s.lane l).phasePasses (s.donor l) = true ∧ s.strapped) fun s t =>
    ∀ x, x ≠ l → reaches s l x = true → (t.lane x).get (if l = x.next then F.SDL_XINH_OUT_NX else F.SDL_XINH_OUT_PV) = 0 ∧
      ((s.lane x).sdl.lineStuck.getD (peerIdx x l) none = none →
        (t.lane l).get (if l = x.next then F.SDL_XINH_IN_PV else F.SDL_XINH_IN_NX) = 0)) ∧
  (∀ l, DoesIn l (.graftPhaseDone l)
      (fun s => (s.lane l).get F.OZL_GRAFT_PHASE = 5 ∧ (s.lane l).phasePasses (s.donor l) = true) fun s t =>
    ∀ x, (s.lane x).active = true → reaches s l x = true → bit (t.lane x).ozl.joinPend.toNat l.idx = true) ∧
  (∀ l, DoesIn l (.graftPhaseDone l) (fun s => (s.lane l).get F.OZL_GRAFT_PHASE = 6 ∧ bit (s.peerMembers l) l.idx = true) fun s t =>
    (t.lane l).own = 1 ∧ (t.lane l).members = s.peerMembers l ∧ (t.lane l).get F.OZL_GRAFT_PHASE = 0) ∧
  (∀ l, Does l (.graftPhaseTimeout l) fun L M => M.get F.OZL_GRAFT_FAILPH = L.get F.OZL_GRAFT_PHASE ∧ M.flagged Ev.OZL_GRAFT_FAIL ∧
    M.ozl.lastAttempt = L.now ∧ (L.get F.OZL_GRAFT_ATTEMPTS < 2 → M.own = 3) ∧ (2 ≤ L.get F.OZL_GRAFT_ATTEMPTS → M.own = 4)))
  ∧
  (
  (∀ l, DoesIn l (.formation l) (fun s => (s.lane l).hostHeard = false ∧ (s.lane l).atBoundary = true ∧
      secondReady s (formGroup s l) = true ∧ noMembership s (formGroup s l) = true ∧ (s.bootChecks (formGroup s l)).2 = true) fun s t =>
    ∀ x : LaneId, (x ∈ formGroup s l →
        (t.lane x).own = 1 ∧ (t.lane x).members = (formGroup s l).foldl (fun n y => n + 2 ^ y.idx) 0 ∧ (t.lane x).ozl.readyAt = none) ∧
      (x ∉ formGroup s l → t.lane x = s.lane x)) ∧
  (∀ l, DoesIn l (.formation l) (fun s => (s.lane l).hostHeard = true) fun s t =>
    (t.lane l).own = 0 ∧ (t.lane l).get F.OZL_GRAFT_PHASE = 1 ∧ t.lane l.next = s.lane l.next ∧ t.lane l.prev = s.lane l.prev) ∧
  (∀ l, DoesIn l (.formAlone l) (fun s => (s.bootChecks [l]).2 = true ∧
      [l.next, l.prev].all (fun x => !(reaches s x l && (s.lane x).ozl.readyAt.isSome)) = true) fun s t =>
    (t.lane l).own = 1 ∧ (t.lane l).members = 2 ^ l.idx ∧ t.lane l.next = s.lane l.next ∧ t.lane l.prev = s.lane l.prev))

/-- The fallow: overdue at 120 min (R104); a step that ends well leads to the next, one that fails ends in PRUNED with RESULT 2, a failing
partition of no element with FSTEP 1 (R392, R395); after the last the lane restarts and grafts with RESULT 1 (R102, R390), and with the
graft the fallow is complete: AGE and OVERDUE clear, NEXT names the lane (R103, R104); an abort starts the graft with RESULT 3 (R94). The
pair: the external cycle sends role, level and trajectories and shows the port down after 6 us without a partner's heartbeat (R110); a
valid heartbeat brings the partner's state and shows equal PRIMARY as CONFLICT (R111, R112), one outside its window of 40 ns or not
decoded nothing; the STANDBY module takes ACTIVE, freezes its offset and continues from the mirrored trajectories (R114, R460). That NEXT
names a fallow lane in every lane is a reading (log 103); the minutes of AGE, a re-graft for LATENT_DIVERGE and slot 0 of the pair are as
logs 101, 129 and 131 say. -/
def Obligations.FallowAndPair : Prop :=
  (
  (∀ l, Does l (.fallowOverdue l) fun L M => L.sets F.OZL_FALLOW_OVERDUE 1 M ∧ M.shows Ev.OZL_FALLOW_OVERDUE ∧
    L.only (R.OZL_FALLOW.addr 0 0 :: evRegs .ozl 0) M) ∧
  (∀ l, Does l (.fallowStepEnd l 0 [] true) fun L M => M.test.fstep = L.test.fstep + 1 ∧ M.own = 2 ∧
    L.only [R.BIST_FPART.addr 0 0, R.BIST_FSKIP.addr 0 0] M) ∧
  (∀ l, Does l (.fallowStepEnd l 0 [] false) fun _ M => M.own = 4 ∧ M.get F.BIST_FRES_RESULT = 2 ∧ M.get F.BIST_FRES_DONE = 1) ∧
  (∀ l (parts : Word) found pass k, bit parts.toNat k = true → k < 32 → partElems k = [] → DoesWhen l (.fallowStepEnd l parts found pass)
    (fun L => L.test.fstep = 1) fun _ M => M.own = 4 ∧ M.get F.BIST_FRES_RESULT = 2 ∧ M.get F.BIST_FRES_FSTEP = 1 ∧
      bit (M.reg R.BIST_FPART) k = true) ∧
  (∀ l, DoesAny l (.fallowRestart l) fun L M => M.own = 0 ∧ M.get F.OZL_GRAFT_PHASE = 1 ∧ M.test.fdone = true ∧
    M.test.fallowAt = L.test.fallowAt ∧ M.get F.BIST_FRES_RESULT = 1 ∧ M.get F.OZL_FALLOW_AGE = L.get F.OZL_FALLOW_AGE) ∧
  (∀ l, DoesAny l (.voteBoundary l) fun L M => L.up = true → L.own = 1 → M.own = 1 → L.test.fdone = true → L.test.fallowAt.isSome = true →
    M.get F.OZL_FALLOW_AGE = 0 ∧ M.get F.OZL_FALLOW_OVERDUE = 0 ∧ M.get F.BIST_FRES_DONE = 1 ∧ M.test.fdone = false ∧
      M.ozl.fallowDone = L.mtN) ∧
  (∀ l, DoesIn l (.fallowAbort l) (fun s => fallowHit s l = true) fun _ t => (t.lane l).own = 0 ∧ (t.lane l).get F.OZL_GRAFT_PHASE = 1 ∧
    (t.lane l).get F.BIST_FRES_RESULT = 3 ∧ (t.lane l).get F.BIST_FRES_DONE = 1))
  ∧
  (
  (∀ l, Does l (.extLinkCycle l) fun L M => M.ozl.extCyc = L.mtN / 200 % 2 ^ 16 ∧ M.ozl.extOut = some M.extBeat ∧ M.ozl.extCell = M.extCell ∧
    (L.since L.ozl.extLast (us 6) = true → M.get F.OZL_PAIR_PUP = 0) ∧ L.only [R.OZL_PAIR.addr 0 0] M) ∧
  (∀ l ns cell hb, DoesWhen l (.extHeart l ns cell hb)
    (fun L => L.cellTaken 2 ns.val cell 2 ∧ e2eOk (cellHdr (cellBody cell)).src (cellHdr (cellBody cell)).cyc (cellPay cell) = true) fun L M =>
      M.get F.OZL_PAIR_PUP = 1 ∧ M.ozl.extLast = L.now ∧
      M.ozl.partner = some { hb with mt := (heartOf (cellHdr (cellBody cell)) (cellPay cell)).mt } ∧
      M.is F.OZL_PAIR_CONFLICT = (hb.primary == L.is F.OZL_PAIR_PRIMARY)) ∧
  (∀ l ns cell hb, DoesWhen l (.extHeart l ns cell hb)
    (fun L => 40 < (L.cellOff 2 ns.val).2.natAbs ∨ (decodeCell cell).1 = .failed) fun L M =>
      M.ozl = { L.ozl with scoreAt := M.ozl.scoreAt } ∧ (M.flagged Ev.OZL_GUARD_MISS ∨ M.flagged Ev.OZL_RS_FAIL) ∧ L.only (R.OZL_LINK.addr 0 2 :: tokRegs .ozl 0) M) ∧
  (∀ l, DoesIn l (.pairSwitchover l) (fun s => ∃ hb, (s.lane l).ozl.partner = some hb ∧ hb.active = true ∧
      hb.level.toNat < (s.lane l).get F.OZL_LSTATE_LEVEL) fun s t =>
    (t.lane l).get F.OZL_PAIR_ROLE = 1 ∧ (t.lane l).get F.TWP_PAIROFS_FROZEN = 1 ∧ t = s.setLane l (t.lane l) ∧
    (∀ a v, a < (s.lane l).cmdq.acts.length → (s.lane l).cmdq.mirrorTraj[a]? = some v → ((t.lane l).act a).setpoint = v) ∧
    (s.lane l).only [R.OZL_PAIR.addr 0 0, R.TWP_PAIROFS.addr 0 0] (t.lane l)))

/-- The comparators: equal outputs change nothing; of three, the majority's bus write is issued (R118); an odd core in TRIO is counted and
resynchronised (R117, R119, Table 3.4), at THRESH pruned, the trio a PAIR (R128); three that differ, or two of a pair, locate no odd core
and stop the trio, out of the vote (R119, R129). Resync and self-test: at the hand-over point the copy starts or the split takes effect
(R127, R135); when the copy has taken its time the live cores give the mode, or a held halt DEBUG (R127, R139); cores whose images differ
stop the trio (R126); the self-test prunes the cores that fail and the rest go on (R130, R553). -/
def Obligations.TrioComparators : Prop :=
  (
  (∀ l o, o = CoreOut.haltAck ∨ o = CoreOut.resumeAck → Does l (.coreMismatch l o o o) fun L M => M = L) ∧
  (∀ l (c : Fin 3) (o x : CoreOut), (o = .haltAck ∨ o = .resumeAck) → x ≠ o →
    DoesWhen l (.coreMismatch l (if c = 0 then x else o) (if c = 1 then x else o) (if c = 2 then x else o))
      (fun L => L.trioMode = 0 ∧ L.lockStep = 7 ∧ (L.cmpShow (2 ^ c.val) 3).calm Ev.TRIO_CORE_MISMATCH 0 c.val = true) fun L M =>
        M.trioMode = 1 ∧ M.trio.drain = some (.resync (BitVec.ofNat 3 (2 ^ c.val)) false) ∧ M.get F.TRIO_CMP_ODD = 2 ^ c.val ∧
        M.flagged Ev.TRIO_CORE_MISMATCH ∧
        L.only ([R.TRIO_CMP, R.TRIO_MODE, R.TRIO_SPLIT, R.TRIO_TCNT].map (fun r => r.addr 0 0) ++ tokRegs .trio 0) M) ∧
  (∀ l (c : Fin 3) (o x : CoreOut), (o = .haltAck ∨ o = .resumeAck) → x ≠ o →
    DoesWhen l (.coreMismatch l (if c = 0 then x else o) (if c = 1 then x else o) (if c = 2 then x else o))
      (fun L => L.trioMode = 0 ∧ L.lockStep = 7 ∧ (L.cmpShow (2 ^ c.val) 3).calm Ev.TRIO_CORE_MISMATCH 0 c.val = false) fun _ M =>
        M.trioMode = 2 ∧ bit (M.get F.TRIO_MODE_PRUNED) c.val = true ∧ M.trio.drain = none) ∧
  (∀ l (c : Fin 3) (addr data : Word) (x : CoreOut), x ≠ .bus addr data 0xF true 3 true →
    DoesWhen l (.coreMismatch l (if c = 0 then x else .bus addr data 0xF true 3 true) (if c = 1 then x else .bus addr data 0xF true 3 true)
        (if c = 2 then x else .bus addr data 0xF true 3 true))
      (fun L => L.trioMode = 0 ∧ L.lockStep = 7 ∧ addr.toNat % 4 = 0 ∧ permits .trioM true addr.toNat = true ∧ inMemory addr.toNat = true ∧
        L.domOn (memDom addr.toNat) = true ∧ L.poisoned addr.toNat = false ∧ ¬ (0x30000000 ≤ addr.toNat ∧ addr.toNat < 0x30040000))
      fun _ M => M.memWord addr.toNat = data ∧ M.flagged Ev.TRIO_CORE_MISMATCH ∧ (M.trioMode = 1 ∨ M.trioMode = 2)) ∧
  (∀ l o0 o1 o2, DoesWhen l (.coreMismatch l o0 o1 o2)
    (fun L => (L.lockStep = 7 ∧ o0 ≠ o1 ∧ o1 ≠ o2 ∧ o0 ≠ o2) ∨ (L.lockStep = 3 ∧ o0 ≠ o1) ∨ (L.lockStep = 5 ∧ o0 ≠ o2) ∨
      (L.lockStep = 6 ∧ o1 ≠ o2)) fun L M => M.trioMode = 6 ∧ M.get F.TRIO_MODE_LIVE = 0 ∧
    M.get F.TRIO_MODE_NOVOTE = 1 ∧ M.get F.SDL_VSTAT_NOVOTE = 1 ∧ M.flagged Ev.TRIO_NO_MAJORITY ∧ M.trio.drain = none ∧
    M.trio.deferred = none ∧ M.trio.stopAt = L.now))
  ∧
  (
  (∀ l m j, DoesWhen l (.handOverPoint l) (fun L => L.trio.drain = some (.resync m j)) fun L M =>
    M.trio = { L.trio with drain := none, copying := some (.resync m j), copyAt := L.now } ∧ L.only [] M) ∧
  (∀ l, DoesWhen l (.handOverPoint l) (fun L => L.trio.drain = some .split) fun L M =>
    M.trioMode = 4 ∧ M.get F.TRIO_MODE_FREE = 2 ∧ M.get F.TRIO_SPLIT_BUSY = 0 ∧ M.trio.drain = none ∧ M.flagged Ev.TRIO_SPLIT_DONE ∧
      L.pulsed M 10) ∧
  (∀ l, DoesWhen l (.handOverPoint l) (fun L => L.trio.drain = some .free3) fun L M =>
    M.trioMode = 5 ∧ M.get F.TRIO_MODE_NOVOTE = 1 ∧ M.get F.SDL_VSTAT_NOVOTE = 1 ∧ M.trio.drain = none ∧ M.flagged Ev.TRIO_SPLIT_DONE ∧
      L.pulsed M 10) ∧
  (∀ l m j, DoesWhen l (.resyncDone l) (fun L => L.imageDiffers = false ∧ L.trio.copying = some (.resync m j)) fun L M =>
    M.get F.TRIO_RSYNC_MASK = m.toNat ∧ M.trio.copying = none ∧ M.flagged Ev.TRIO_RESYNC_DONE ∧
    (L.trio.haltHeld = none → L.trio.deferred = none → M.trioMode = modeOfLive (pop3 L.soundCores)) ∧
    (L.trio.haltHeld ≠ none → M.trioMode = 7 ∧ M.trio.haltHeld = none)) ∧
  (∀ l, DoesWhen l (.resyncDone l) (fun L => L.imageDiffers = true) fun _ M => M.trioMode = 6 ∧ M.flagged Ev.TRIO_NO_MAJORITY) ∧
  (∀ l passed, Does l (.cstComplete l passed) fun L M =>
    (∀ c, c < 3 → bit L.soundCores c = true → bit passed.toNat c = false → bit (M.get F.TRIO_MODE_PRUNED) c = true) ∧
    (M.soundCores = 0 → M.own = 4) ∧ (L.trio.haltHeld = none → L.trio.deferred = none → M.soundCores ≠ 0 →
      M.trioMode = modeOfLive (pop3 M.soundCores) ∧ M.get F.TRIO_MODE_NOVOTE = 0)) ∧
  (∀ l core, Does l (.cstTimeout l core) fun L M =>
    M.trio = { L.trio with cstFailed := L.trio.cstFailed ||| BitVec.ofNat 3 (2 ^ core.val) } ∧ L.only [] M))

/-- Injections (R120 to R122): one that the comparator names is counted as caught, in two-core modes one that the comparator reports; one that
brings nothing out, and a checker fault at any time, is CHK_FAULT and costs an ACTIVE lane its vote (R121); a real mismatch defers it. The
service pair is injected (R123) and restarts or is pruned after a mismatch (R143). Split, join and halt requests as Tables 3.4 and 3.5
judge them in each mode (R125, R135 to R141). A request is judged by life cycle, then membership, then mode (log 14); a second split
request, RUNS, LIVE and a pruned core's halt are as log 134 says. -/
def Obligations.TrioInjectionsAndRequests : Prop :=
  (
  (∀ l (k : Fin 3), DoesWhen l (.injection l (.named k)) (fun L => L.trioMode = 0 ∧ bit L.lockStep L.trio.injNext = true ∧
      k.val = L.trio.injNext) fun L M =>
    M.get F.TRIO_INJ_LAST_OK = 1 ∧ M.get F.TRIO_INJ_RUNS = (L.get F.TRIO_INJ_RUNS + 1) % 2 ^ 24 ∧ M.trio.injAt = L.now ∧
      M.trio.injDefer = none ∧ L.only [R.TRIO_INJ.addr 0 0] M) ∧
  (∀ l, DoesWhen l (.injection l .pairMismatch) (fun L => L.trioMode ≠ 0) fun L M =>
    M.get F.TRIO_INJ_LAST_OK = 1 ∧ M.get F.TRIO_INJ_RUNS = (L.get F.TRIO_INJ_RUNS + 1) % 2 ^ 24 ∧ L.only [R.TRIO_INJ.addr 0 0] M) ∧
  (∀ l, Does l (.injection l .nothing) fun L M => M.get F.TRIO_INJ_LAST_OK = 0 ∧ M.get F.TRIO_INJ_CHK = 1 ∧ M.flagged Ev.TRIO_CHK_FAULT ∧
    (L.own = 1 → M.own = 3 ∨ M.own = 4)) ∧
  (∀ l, Does l (.injection l .checker) fun L M => M.get F.TRIO_INJ_CHK = 1 ∧ M.flagged Ev.TRIO_CHK_FAULT ∧
    (L.own = 1 → M.own = 3 ∨ M.own = 4)) ∧
  (∀ l, Does l (.injection l .real) fun L M => M.trio = { L.trio with injDefer := some L.now } ∧ M.shows Ev.TRIO_INJ_DEFERRED ∧
    L.only (evRegs .trio 0) M) ∧
  (∀ l, Does l (.svcInjection l true) fun L M => L.sets F.TRIO_INJ_SVC_OK 1 M ∧ M.trio = { L.trio with svcInjAt := L.now } ∧
    L.only [R.TRIO_INJ.addr 0 0] M) ∧
  (∀ l, Does l (.svcInjection l false) fun _ M => M.get F.TRIO_INJ_SVC_OK = 0 ∧ M.get F.TRIO_SVC_PRUNED = 1 ∧ M.get F.TRIO_SVC_LIVE = 0) ∧
  (∀ l, DoesWhen l (.svcMismatch l) (fun L => L.calm Ev.TRIO_SVC_MISMATCH 0 3 = true) fun L M => M.get F.TRIO_SVC_LIVE = 0 ∧
    M.get F.TRIO_SVC_RESTART = 1 ∧ L.only ([R.TRIO_SVC, R.TRIO_TCNT].map (fun r => r.addr 0 0) ++ tokRegs .trio 0) M) ∧
  (∀ l, DoesWhen l (.svcMismatch l) (fun L => L.calm Ev.TRIO_SVC_MISMATCH 0 3 = false) fun _ M => M.get F.TRIO_SVC_PRUNED = 1 ∧
    M.get F.TRIO_SVC_LIVE = 0) ∧
  (∀ l, Does l (.svcRestartDone l) fun L M => M.get F.TRIO_SVC_RESTART = 0 ∧ M.get F.TRIO_SVC_LIVE = 1 ∧ L.only [R.TRIO_SVC.addr 0 0] M))
  ∧
  (
  (∀ l, Does l (.trioSplitReq l) fun L M =>
    (L.trioMode = 0 → L.soundCores = 7 → L.trio.drain = none →
      L.sets F.TRIO_SPLIT_BUSY 1 M ∧ M.trio = { L.trio with drain := some .split, detectAt := L.now } ∧ L.only [R.TRIO_SPLIT.addr 0 0] M) ∧
    (L.trioMode = 1 → M.get F.TRIO_SPLIT_DEFER = 1 ∧ M.get F.TRIO_SPLIT_BUSY = 1 ∧ M.trio = { L.trio with deferred := some .split } ∧
      L.only [R.TRIO_SPLIT.addr 0 0] M) ∧
    (2 ≤ L.trioMode → M = L)) ∧
  (∀ l, Does l (.trioSplitAll l) fun L M => (L.get F.SYS_LC_STATE ≠ 3 ∨ L.isMember L.strap = true ∨ 2 ≤ L.trioMode → M = L) ∧
    (L.get F.SYS_LC_STATE = 3 → L.isMember L.strap = false → L.trioMode = 0 → L.soundCores = 7 → L.trio.drain = none →
      L.sets F.TRIO_SPLIT_BUSY 1 M ∧ M.trio = { L.trio with drain := some .free3, detectAt := L.now } ∧ L.only [R.TRIO_SPLIT.addr 0 0] M)) ∧
  (∀ l, DoesWhen l (.trioSplitJoin l) (fun L => L.trioMode = 4) fun L M => M.trioMode = 1 ∧
    M.trio.drain = some (.resync (BitVec.ofNat 3 (2 ^ L.get F.TRIO_MODE_FREE)) true) ∧
    M.get F.TRIO_SPLIT_BUSY = 1 ∧ L.only ([R.TRIO_SPLIT, R.TRIO_MODE].map (fun r => r.addr 0 0)) M) ∧
  (∀ l, DoesWhen l (.trioSplitJoin l) (fun L => L.trioMode = 5) fun L M => M.trioMode = 1 ∧ M.trio.graftAfter = true ∧
    M.trio.drain = some (.resync (BitVec.ofNat 3 (L.soundCores &&& 6)) true) ∧ L.only ([R.TRIO_SPLIT, R.TRIO_MODE].map (fun r => r.addr 0 0)) M) ∧
  (∀ l, DoesWhen l (.trioSplitJoin l) (fun L => L.trioMode = 1) fun _ M => M.trio.deferred = some .join) ∧
  (∀ l, DoesWhen l (.trioSplitJoin l) (fun L => L.trioMode ≠ 4 ∧ L.trioMode ≠ 5 ∧ L.trioMode ≠ 1) fun L M => M = L) ∧
  (∀ l core, DoesWhen l (.debugHalt l core) (fun L => L.trioMode = 0 ∨ L.trioMode = 2 ∨ L.trioMode = 3) fun _ M => M.trioMode = 7 ∧
    M.get F.TRIO_MODE_NOVOTE = 1 ∧ M.trio.graftAfter = true ∧ M.shows Ev.TRIO_DBG_BROKEN) ∧
  (∀ l core, DoesWhen l (.debugHalt l core) (fun L => L.trioMode = 1 ∨ (L.trioMode = 6 ∧ L.soundCores ≠ 0)) fun L M =>
    M.trio = { L.trio with haltHeld := some core } ∧ L.only [] M) ∧
  (∀ l core, DoesWhen l (.debugHalt l core) (fun L => (L.trioMode = 4 ∧ L.get F.TRIO_MODE_FREE = core.val) ∨ (L.trioMode = 6 ∧
      L.soundCores = 0)) fun L M =>
    M.trio = { L.trio with halted := L.trio.halted ||| BitVec.ofNat 3 (2 ^ core.val) } ∧ L.only [] M) ∧
  (∀ l, Does l (.debugResume l) fun L M => M.trio.halted = 0 ∧ (L.trioMode = 7 → M.trioMode = 1 ∧ L.only [R.TRIO_MODE.addr 0 0] M) ∧
    (L.trioMode ≠ 7 → M.trio = { L.trio with halted := 0 } ∧ L.only [] M)) ∧
  (∀ l c, Does l (.svcHalt l c) fun L M => L.sets F.TRIO_SVC_HALTED 1 M ∧ L.only [R.TRIO_SVC.addr 0 0] M) ∧
  (∀ l, Does l (.svcResume l) fun L M => L.sets F.TRIO_SVC_HALTED 0 M ∧ L.only [R.TRIO_SVC.addr 0 0] M))

/-- The rings: a read of CMDQ_ALLOC reserves a free slot or returns 0xFFFF (R152); a post of a reserved slot enters its ring's order, of any
other slot is POST_ERR; a reservation lapses after 1 ms (R153); HEAD moves up to TAIL (R178); a waiting reply goes out first in, first out
(R157). -/
def Obligations.RingCommands : Prop :=
  (∀ l m ring, DoesAny l (.alloc l m ring) fun L M => L.only [F.CMDQ_RING_FREE_FREE.reg.addr 0 ring.val] M ∧
    (L.freeSlots ring.val = [] → M.cmdq.busData = 0xFFFF ∧ M.cmdq.slots = L.cmdq.slots) ∧
    (L.freeSlots ring.val ≠ [] → ∃ i, i ∈ L.freeSlots ring.val ∧ M.cmdq.busData = BitVec.ofNat 32 i ∧
      M.cmdq.slots = L.cmdq.slots ++ [⟨ring.val, i, false, false, L.now⟩])) ∧
  (∀ l m ring slot, Does l (.post l m ring slot) fun L M =>
    ((∃ r, r ∈ L.cmdq.slots ∧ r.ring = ring.val ∧ r.slot = slot % 64 ∧ r.posted = false) → L.only [] M ∧ M.cmdq.queue = L.cmdq.queue ∧
      M.cmdq.slots = L.cmdq.slots.filter (fun r => !(r.ring == ring.val && r.slot == slot % 64)) ++
        [⟨ring.val, slot % 64, true, decide (m = .svc), L.now⟩]) ∧
    (¬ (∃ r, r ∈ L.cmdq.slots ∧ r.ring = ring.val ∧ r.slot = slot % 64 ∧ r.posted = false) → M.shows Ev.CMDQ_POST_ERR ∧
      M.cmdq = L.cmdq ∧ L.only (evRegs .cmdq 0) M)) ∧
  (∀ l ring slot, Does l (.allocLapse l ring slot) fun L M => M.shows Ev.CMDQ_ALLOC_LAPSE ∧ M.cmdq.queue = L.cmdq.queue ∧
    (∀ r, r ∈ M.cmdq.slots ↔ r ∈ L.cmdq.slots ∧ ¬ (r.ring = ring.val ∧ r.slot = slot ∧ r.posted = false ∧ L.since r.since (ms 1) = true)) ∧
    L.only (F.CMDQ_RING_FREE_FREE.reg.addr 0 ring.val :: evRegs .cmdq 0) M) ∧
  (∀ l head, Does l (.cplHeadWrite l head) fun L M =>
    let d (x : Nat) := (x + 256 - L.get F.CMDQ_CPL_HEAD_HEAD) % 256
    (d head.toNat ≤ d (L.get F.CMDQ_CPL_TAIL_TAIL) → L.sets F.CMDQ_CPL_HEAD_HEAD head.toNat M ∧
      L.only [F.CMDQ_CPL_HEAD_HEAD.reg.addr 0 0] M) ∧
    (d (L.get F.CMDQ_CPL_TAIL_TAIL) < d head.toNat → M.shows Ev.CMDQ_POST_ERR ∧ L.only (evRegs .cmdq 0) M)) ∧
  (∀ l, Does l (.replyPost l) fun L M => ∀ d st res fin rest, L.cmdq.waiting = (d, st, res, fin) :: rest → M.cmdq.waiting = rest ∧
    M.get F.CMDQ_CPL_TAIL_TAIL = (L.get F.CMDQ_CPL_TAIL_TAIL + 1) % 256 ∧
    (res.length ≤ 48 → M.memBytes (cplSlot (L.get F.CMDQ_CPL_TAIL_TAIL)) (16 + res.length) = replyBytes d st res L.mtUs ∧
      L.onlyReply [] M) ∧
    (fin = true → M.cmd d.tag d.net = none) ∧ (fin = false → M.cmdq.queue = L.cmdq.queue))

/-- Intake takes the oldest posted packet of a ring, or the oldest forwarded one, and frees its slot (R154, R164): a network packet whose
twin-path CRC fails is refused and counted (R458); any other that passes the checks of Table 4.5 is outstanding in the lanes it names and,
if a network packet, forwarded to both peers, a refused one is counted, a network duplicate dropped and counted. What a final reply does
(Table 4.2, R156, R157): its bytes stand in the slot at TAIL, TAIL advances, the tag is free; DONE without RREQ posts nothing; a local
reply to a full ring waits, its tag still held; nothing else changes. The outcomes of a command's lanes: while a named lane has none
nobody answers, and once all have completed it each answers DONE (R168). Commands that wait or run: a deferred motion starts once its
bridge is ENABLED, a BRIDGE_ENABLE once it is DISABLED, and a deferral ends TIMEOUT at its limit (R169); a running command ends when what
it waits for holds (R172), or TIMEOUT at its limit of Table 4.9, its target kept. The order of the checks and of the rings is read as log
15 says; commands of a lane that leaves the vote end as log 153 says. -/
def Obligations.IntakeAndReplies : Prop :=
  (
  (∀ l n twin, Does l (.intake l (.ring n twin)) fun L M => (L.cmdq.slots.find? (fun r => r.ring == n.val && r.posted) = none → M = L) ∧
    ∀ r, L.cmdq.slots.find? (fun r => r.ring == n.val && r.posted) = some r →
      let bs := L.memBytes (subSlot n.val r.slot) 64
      let bad := r.svc && bit (fieldLE bs 1 1) 2 && !twinOk twin bs
      M.cmdq.slots = L.cmdq.slots.filter (fun x => x != r) ∧
      (bad = true → M.get F.CMDQ_CNT_REJECT = min (2 ^ F.CMDQ_CNT_REJECT.w - 1) (L.get F.CMDQ_CNT_REJECT + 1) ∧
        M.cmdq.queue = L.cmdq.queue ∧ M.cmdq.fwdOut = L.cmdq.fwdOut) ∧
      (bad = false → ∀ c, L.intakeCheck bs n.val r.svc = .take c →
        M.cmdq.queue = (if bit c.lanes L.strap.idx then L.cmdq.queue ++ [c] else L.cmdq.queue) ∧
        M.cmdq.fwdOut = if c.net then L.cmdq.fwdOut.map (fun q => q ++ [bs]) else L.cmdq.fwdOut) ∧
      (bad = false → ∀ st, L.intakeCheck bs n.val r.svc = .reject st → M.get F.CMDQ_CNT_REJECT =
        min (2 ^ F.CMDQ_CNT_REJECT.w - 1) (L.get F.CMDQ_CNT_REJECT + 1) ∧ M.cmdq.queue = L.cmdq.queue ∧ M.cmdq.fwdOut = L.cmdq.fwdOut) ∧
      (bad = false → L.intakeCheck bs n.val r.svc = .drop → M.get F.CMDQ_CNT_DUP =
        min (2 ^ F.CMDQ_CNT_DUP.w - 1) (L.get F.CMDQ_CNT_DUP + 1) ∧ M.cmdq.queue = L.cmdq.queue ∧ M.cmdq.fwdOut = L.cmdq.fwdOut)) ∧
  (∀ l, Does l (.intake l .forwarded) fun L M => (L.cmdq.fwdIn = [] → M = L) ∧
    ∀ bs rest, L.cmdq.fwdIn = bs :: rest → M.cmdq.fwdIn = rest ∧
      (∀ c, L.intakeCheck bs 3 true = .take c → M.cmdq.queue = if bit c.lanes L.strap.idx then L.cmdq.queue ++ [c] else L.cmdq.queue) ∧
      (∀ st, L.intakeCheck bs 3 true = .reject st → M.cmdq.queue = L.cmdq.queue)))
  ∧
  (
  (∀ (L : Lane) c st res, replyPosted c st = true → L.cplFull = false → (c.net = false → L.cmdq.waiting = []) →
    let M := L.finish c st res
    M.get F.CMDQ_CPL_TAIL_TAIL = (L.get F.CMDQ_CPL_TAIL_TAIL + 1) % 256 ∧ M.cmd c.tag c.net = none ∧
    (∀ d, c.same d = false → (d ∈ M.cmdq.queue ↔ d ∈ L.cmdq.queue)) ∧ M.cmdq.acts = L.cmdq.acts ∧
    (res.length ≤ 48 → M.memBytes (cplSlot (L.get F.CMDQ_CPL_TAIL_TAIL)) (16 + res.length) = replyBytes c st res L.mtUs ∧
      L.onlyReply [] M)) ∧
  (∀ (L : Lane) c res, c.rreq = false → L.finish c St.DONE res = L.dropCmd c) ∧
  (∀ (L : Lane) c st res, replyPosted c st = true → L.cplFull = true → c.net = false →
    (L.finish c st res).cmdq.waiting = L.cmdq.waiting ++ [(c, st, res, true)] ∧
    (L.cmd c.tag c.net = some c → (L.finish c st res).cmd c.tag c.net = some { c with phase := .reply st res }) ∧
    L.only [] (L.finish c st res)) ∧
  (∀ (s : State) c x, bit c.lanes x.idx = true → s.laneEnd x c = .waits → s.settle c = s) ∧
  (∀ (s : State) c, c.lanes < 8 → (∀ x, bit c.lanes x.idx = true → s.laneEnd x c = .ended St.DONE) →
    ∀ x d res, bit c.lanes x.idx = true → (s.lane x).sameCmd c = some d → d.phase = .outcome St.DONE res →
      (s.settle c).lane x = (s.lane x).finish d St.DONE res))
  ∧
  (
  (∀ l tag net, Acts l tag net (.deferredStart l tag net) (fun s d => moves d = true ∧ ((s.lane l).act d.actI).bridge = .enabled)
    (fun s d M => M = (s.lane l).startMotion (s.envLevel l d.actI) d)) ∧
  (∀ l tag net, Acts l tag net (.deferredStart l tag net) (fun s d => d.op = 0x15 ∧ ((s.lane l).act d.actI).bridge = .disabled)
    (fun s d M => M = ((s.lane l).enableBridge d.actI).accept d)) ∧
  (∀ l tag net, Acts l tag net (.deferTimeout l tag net) (fun _ d => moves d = true ∨ d.op = 0x15)
    (fun s d M => M = ((s.lane l).note Ev.CMDQ_DEFER_TIMEOUT).finish d St.TIMEOUT)) ∧
  (∀ l tag net v ok, Replies l tag net (.commandArrival l tag net v ok) (fun s d => (d.op = 0x10 ∨ d.op = 0x12) ∧
      5 ≤ ((s.lane l).act d.actI).near ∧ d.limited = 0) St.DONE (fun s d => (s.lane l).endResult d)) ∧
  (∀ l tag net v ok, Replies l tag net (.commandArrival l tag net v ok) (fun s d => (d.op = 0x10 ∨ d.op = 0x12) ∧
      5 ≤ ((s.lane l).act d.actI).near ∧ d.limited ≠ 0) St.SAFETY_LIMIT (fun s d => (s.lane l).endResult d)) ∧
  (∀ l tag net v ok, Replies l tag net (.commandArrival l tag net v ok) (fun s d => d.op = 0x16 ∧ ((s.lane l).act d.actI).bridge = .disabled)
    St.DONE (fun _ _ => [])) ∧
  (∀ l tag net v, Acts l tag net (.commandArrival l tag net v false) (fun _ d => d.op = 0x23 ∨ d.op = 0x22) (fun s _ M => M = s.lane l)) ∧
  (∀ l tag net, Replies l tag net (.commandTimeout l tag net) (fun _ d => serves d = false) St.TIMEOUT (fun s d => (s.lane l).endResult d)))

/-- The opcodes that read: IDENT, STATUS, CFG_READ, SEAL_READ, ALM_READ, LANE_STATUS and SLEEP_QUERY answer with the bytes of Table 4.10, and
a parameter out of range with BAD_PARAM (Table 4.9, R489, R523). The stepping IDENT gives, the peers' part of LANE_STATUS and the bytes
that must be 0 are readings (logs 92 to 94). -/
def Obligations.TrellisReads : Prop :=
  (∀ l tag net, Replies l tag net (.ident l tag net) (fun _ d => 2 < d.u 0 1 ∨ d.u 1 3 ≠ 0) St.BAD_PARAM (fun _ _ => [])) ∧
  (∀ l tag net, Replies l tag net (.ident l tag net) (fun _ d => d.u 0 1 = 0 ∧ d.u 1 3 = 0) St.DONE (fun s _ => (s.lane l).moduleIdent)) ∧
  (∀ l tag net, Replies l tag net (.ident l tag net) (fun _ d => d.u 0 1 = 1 ∧ d.u 1 3 = 0) St.DONE
    (fun s _ => (s.lane l).dieIdent R.SYS_LD_LOT_0 R.SYS_LD_LOT_1 R.SYS_LD_POS R.SYS_LD_STEP)) ∧
  (∀ l tag net, Replies l tag net (.ident l tag net) (fun _ d => d.u 0 1 = 2 ∧ d.u 1 3 = 0) St.DONE
    (fun s _ => (s.lane l).dieIdent R.SYS_HD_LOT_0 R.SYS_HD_LOT_1 R.SYS_HD_POS R.SYS_HD_STEP)) ∧
  (∀ l tag net, Replies l tag net (.status l tag net) (fun _ _ => True) St.DONE (fun s _ => statusBytes s l)) ∧
  (∀ l tag net, GoesOn l tag net (.cfgRead l tag net)
    (fun s d => d.u 1 3 = 0 ∧ ∀ a, a ∈ d.cfgAddrs → cfgReadOk a = true ∧ (s.lane l).cfgReach a = true ∧ ((s.lane l).busRead a).isSome = true)
    (fun s d => (s.loadAll l .trioM d.cfgAddrs).2.upd l (fun L => L.finish d St.DONE
      ((s.loadAll l .trioM d.cfgAddrs).1.flatMap (fun v => bytesLE 4 (v.getD 0)))))) ∧
  (∀ l (s : State) a, (∀ b n o, blockAt a = some (b, n, o) → readOwn l .trioM b n o = none) → ((s.lane l).busRead a).isSome = true →
    s.load l .trioM a = ((s.lane l).busRead a, s)) ∧
  (∀ l tag net, Concludes l tag net (.cfgRead l tag net) (fun s d => d.u 1 3 ≠ 0 ∨ ∃ a, a ∈ d.cfgAddrs ∧ (cfgReadOk a = false ∨
    (s.lane l).cfgReach a = false)) St.BAD_PARAM (fun _ _ => [])) ∧
  (∀ l tag net, Replies l tag net (.sealRead l tag net) (fun _ _ => True) St.DONE (fun s _ =>
    [s.laneA, s.laneB, s.laneC].flatMap (fun L => bytesLE 4 (L.reg R.SAF_SEAL) ++ bytesLE 4 (L.reg R.HSF_SEAL)) ++
      [BitVec.ofNat 8 ((if s.laneA.is F.SAF_SEALCTL_LOCKED && s.laneA.is F.HSF_SEALCMD_LOCKED then 1 else 0) +
        (if s.laneB.is F.SAF_SEALCTL_LOCKED && s.laneB.is F.HSF_SEALCMD_LOCKED then 2 else 0) +
        (if s.laneC.is F.SAF_SEALCTL_LOCKED && s.laneC.is F.HSF_SEALCMD_LOCKED then 4 else 0))])) ∧
  (∀ l tag net, Replies l tag net (.almRead l tag net) (fun _ d => 1 ≤ d.u 4 1 ∧ d.u 4 1 ≤ 48 ∧ d.u 5 3 = 0 ∧ d.u 0 4 + d.u 4 1 ≤ 0x800)
    St.DONE (fun s d => bytesLE (d.u 4 1) ((s.lane l).almGet (d.u 0 4) (d.u 4 1)))) ∧
  (∀ l tag net, Replies l tag net (.almRead l tag net) (fun _ d => d.u 4 1 = 0 ∨ 48 < d.u 4 1 ∨ d.u 5 3 ≠ 0 ∨ 0x800 < d.u 0 4 + d.u 4 1)
    St.BAD_PARAM (fun _ _ => [])) ∧
  (∀ l tag net, Replies l tag net (.laneStatus l tag net) (fun _ _ => True) St.DONE (fun s _ =>
    ([.a, .b, .c] : List LaneId).flatMap (fun x => [R.OZL_LSTATE, R.OZL_GRAFT, R.OZL_FALLOW].flatMap (fun r =>
      bytesLE 4 ((s.lane l).windowReg x r))) ++
    ([.a, .b, .c] : List LaneId).flatMap (fun x => bytesLE 2 ((s.lane l).windowReg x R.OZL_SCORE)))) ∧
  (∀ l tag net, Concludes l tag net (.sleepQuery l tag net)
    (fun s _ => ∀ k, 0 < k → k < 21 → (s.lane l).is F.PWR_D_VOTES_IMPL 0 k = false ∧ (s.lane l).anyVote k 2 = false) St.DONE
    (fun _ _ => [1, 0, 0, 0, 0, 0, 0, 0]))

/-- Motion and clamp commands and HOLD (Tables 4.6, 4.7, 4.11, R176): with the bridge ENABLED and nothing in the way, earlier motions of the
actuator end SUPERSEDED and the trajectory begins; while it is ENABLING the command waits, else it ends NOT_IN_STATE; where every member
lane's bridge is pruned it ends RESOURCE_PRUNED, and one that a later command of its boundary overtakes ends as that one says (R175). The
envelope of a motion (R106, R107, R176): the target stands in the angle window of the level, the rate at or below its limit; a torque or
force stays within the edge of the level, and its ramp reaches its target over its duration; a set-point moves at most one step a period
and stops at its target. The full torque of which Table 2.12 gives fractions is a free value (log 87); where a trajectory starts without a
set-point, and HOLD with MODE 1, are the model's choice (logs 89 and 95). -/
def Obligations.MotionAndEnvelope : Prop :=
  (
  let on (s : State) (l : LaneId) (d : TCmd) : Lane := (s.lane l).endOthers d moves St.SUPERSEDED
  let runs (l : LaneId) (op : Half → Bool → Instr) (start : State → TCmd → Lane → Lane) (ok : State → TCmd → Prop) : Prop := ∀ tag net,
    Acts l tag net (op tag net)
      (fun s d => ok s d ∧ s.bridgesPruned l d.actI = false ∧ (s.lane l).motionTurn d = .run ∧ (on s l d).overtaken d = none)
      (fun s d M => M = start s d (on s l d) ∧ (s.lane l).onlyReply [] M) ∧
    Acts l tag net (op tag net)
      (fun s d => ok s d ∧ s.bridgesPruned l d.actI = false ∧ (s.lane l).motionTurn d = .wait ∧ (on s l d).overtaken d = none)
      (fun s d M => M = (on s l d).defer d ∧ (s.lane l).onlyReply [] M ∧ M.cmdq.acts = (s.lane l).cmdq.acts) ∧
    Acts l tag net (op tag net)
      (fun s d => ok s d ∧ s.bridgesPruned l d.actI = false ∧ (s.lane l).motionTurn d ≠ .refuse ∧ (on s l d).overtaken d ≠ none)
      (fun s d M => M = (on s l d).finish d (((on s l d).overtaken d).getD 0) ∧ (s.lane l).onlyReply [] M ∧
        M.cmdq.acts = (s.lane l).cmdq.acts) ∧
    Replies l tag net (op tag net) (fun s d => ok s d ∧ s.bridgesPruned l d.actI = false ∧ (s.lane l).motionTurn d = .refuse)
      St.NOT_IN_STATE (fun _ _ => []) ∧
    Replies l tag net (op tag net) (fun s d => ok s d ∧ s.bridgesPruned l d.actI = true) St.RESOURCE_PRUNED (fun _ _ => [])
  (∀ l, runs l (.steerAngle l) (fun s d L => L.startAngle (s.envLevel l d.actI) d) (fun _ _ => True)) ∧
  (∀ l, runs l (.steerTorque l) (fun s d L => L.startRamp (s.envLevel l d.actI) d .torque 3 (d.i32 0) (d.u 4 4)) (fun _ _ => True)) ∧
  (∀ l, runs l (.clampForce l) (fun s d L => L.startRamp (s.envLevel l d.actI) d .force 2 (d.u 0 4) (d.u 4 4)) (fun _ _ => True)) ∧
  (∀ l, runs l (.clampRelease l) (fun s d L => L.startRamp (s.envLevel l d.actI) d .release 2 0 (d.u 0 4)) (fun _ _ => True)) ∧
  (∀ l, runs l (.hold l) (fun _ d L => L.startHold d) (fun _ d => d.u 0 1 = 0 ∧ d.u 1 3 = 0)) ∧
  (∀ l tag net, Acts l tag net (.hold l tag net) (fun s d => d.u 0 1 = 1 ∧ d.u 1 3 = 0 ∧ (s.lane l).kindOf d.actI = 2 ∧
      (s.lane l).motionTurn d = .run ∧ (on s l d).overtaken d = none ∧ d.actI < (s.lane l).cmdq.acts.length)
    (fun s d M => (M.act d.actI).setpoint = (on s l d).measured d.actI ∧ (M.act d.actI).target = (on s l d).measured d.actI)) ∧
  (∀ l tag net, Replies l tag net (.hold l tag net)
    (fun s d => 1 < d.u 0 1 ∨ d.u 1 3 ≠ 0 ∨ (d.u 0 1 = 1 ∧ (s.lane l).kindOf d.actI ≠ 2)) St.BAD_PARAM (fun _ _ => [])))
  ∧
  (
  (∀ (L : Lane) lv c, c.actI < L.cmdq.acts.length →
    let t := (L.startAngle lv c).act c.actI
    t.kind = .angle ∧ (L.angleWindow lv).1 ≤ t.target ∧ t.target ≤ (L.angleWindow lv).2 ∧ t.step ≤ L.rateStep (L.maxRate c.actI lv) ∧
    ((L.angleWindow lv).1 ≤ c.i32 0 → c.i32 0 ≤ (L.angleWindow lv).2 → t.target = c.i32 0)) ∧
  (∀ (L : Lane) lv c kind unit asked us, c.actI < L.cmdq.acts.length →
    let t := (L.startRamp lv c kind unit asked us).act c.actI
    t.kind = kind ∧ t.target.natAbs ≤ edgeOf c.actI unit lv ∧ (asked.natAbs ≤ edgeOf c.actI unit lv → t.target = asked) ∧
    t.setpoint = L.startPoint c.actI unit ∧ t.rampEnd = L.now + 200 * us) ∧
  (∀ t : ActSt, (t.move.frac - t.frac).natAbs ≤ t.step ∧
    ((t.target * 1000 - t.frac).natAbs ≤ t.step → t.move.frac = t.target * 1000 ∧ t.move.setpoint = t.target)))

/-- Bridge commands (Table 4.7): BRIDGE_ENABLE of a DISABLED or ASC bridge ends safe brake hold and enables, of one that runs is DONE with the
lanes it runs in, while it disables it waits; BRIDGE_DISABLE ramps the torque down, ASC_BRAKE shorts the winding. Where every member
lane's bridge is pruned BRIDGE_ENABLE ends RESOURCE_PRUNED. Service opcodes: CNV_SELFCAL asks for calibrations, one of a pair at a time
(R303); ANGLE_ZERO sets SAF_ZERO in the workshop states (R361); CALIPER_KISSPOINT and ENCODER_ALIGN run under armed SDI (R350);
OFFSTATE_DIAG and ICV_REFCHECK ask for their measurements (R279, R314); where every element named is pruned they end RESOURCE_PRUNED
(R168). SDI's direction is read as log 46 says. -/
def Obligations.BridgeAndServiceCommands : Prop :=
  (
  let bst (s : State) (l : LaneId) (d : TCmd) : BridgeSt := ((s.lane l).act d.actI).bridge
  let free (s : State) (l : LaneId) (d : TCmd) : Prop := s.bridgesPruned l d.actI = false ∧ (s.lane l).overtaken d = none
  let asc (s : State) (l : LaneId) (d : TCmd) : Lane := (s.lane l).endOthers d (fun x => x.op == 0x17) St.ABORTED
  (∀ l tag net, Acts l tag net (.bridgeEnable l tag net) (fun s d => free s l d ∧ bst s l d = .disabled)
    (fun s d M => M = ((s.lane l).enableBridge d.actI).accept d ∧
      (d.actI < (s.lane l).cmdq.acts.length → (M.act d.actI).bridge = .enabling))) ∧
  (∀ l tag net, Acts l tag net (.bridgeEnable l tag net)
    (fun s d => s.bridgesPruned l d.actI = false ∧ bst s l d = .asc ∧ (asc s l d).overtaken d = none)
    (fun s d M => M = ((asc s l d).enableBridge d.actI).accept d ∧
      (d.actI < (s.lane l).cmdq.acts.length → (M.act d.actI).bridge = .enabling))) ∧
  (∀ l tag net, Acts l tag net (.bridgeEnable l tag net) (fun s d => free s l d ∧ bst s l d = .enabling)
    (fun s d M => M = (s.lane l).accept d)) ∧
  (∀ l tag net, Replies l tag net (.bridgeEnable l tag net) (fun s d => s.bridgesPruned l d.actI = false ∧ bst s l d = .enabled) St.DONE
    (fun s d => [BitVec.ofNat 8 (s.runMask l d.actI)])) ∧
  (∀ l tag net, Acts l tag net (.bridgeEnable l tag net) (fun s d => free s l d ∧ bst s l d = .disabling)
    (fun s d M => M = (s.lane l).defer d)) ∧
  (∀ l tag net, Replies l tag net (.bridgeEnable l tag net) (fun s d => s.bridgesPruned l d.actI = true) St.RESOURCE_PRUNED
    (fun _ _ => [])) ∧
  (∀ l tag net, Acts l tag net (.bridgeDisable l tag net)
    (fun s d => (bst s l d = .enabled ∨ bst s l d = .enabling ∨ bst s l d = .asc) ∧ d.actI < (s.lane l).cmdq.acts.length ∧
      (s.lane l).overtaken d = none)
    (fun s d M => (M.act d.actI).bridge = .disabling ∧ (M.act d.actI).target = 0 ∧ (M.act d.actI).kind = .torque ∧
      (M.act d.actI).disableAt = (s.lane l).now + 200 * d.u 0 4 + (s.lane l).periodT ∧ (s.lane l).onlyReply [] M)) ∧
  (∀ l tag net, Acts l tag net (.ascBrake l tag net)
    (fun s d => bst s l d ≠ .asc ∧ d.actI < (s.lane l).cmdq.acts.length ∧ (s.lane l).overtaken d = none)
    (fun _ d M => (M.act d.actI).bridge = .asc ∧ (M.act d.actI).kind = .none)))
  ∧
  (
  (∀ l tag net, Acts l tag net (.cnvSelfcal l tag net)
    (fun s d => d.u 1 3 = 0 ∧ ∃ n, n < 8 ∧ bit (d.u 0 1) n = true ∧ (s.lane l).pruned (.cnv n) = false)
    (fun s d M => M = ((s.lane l).calAdvance { d with limited := 0 }).1.accept { d with limited := ((s.lane l).calAdvance { d with limited := 0 }).2 })) ∧
  (∀ l tag net, Concludes l tag net (.cnvSelfcal l tag net)
    (fun s d => d.u 1 3 = 0 ∧ d.u 0 1 ≠ 0 ∧ ∀ n, n < 8 → bit (d.u 0 1) n = true → (s.lane l).pruned (.cnv n) = true)
    St.RESOURCE_PRUNED (fun _ _ => [])) ∧
  (∀ l tag net, Replies l tag net (.angleZero l tag net) (fun s _ => (s.lane l).workshop = false) St.LOCKED (fun _ _ => [])) ∧
  (∀ l tag net, Acts l tag net (.angleZero l tag net) (fun s d => (s.lane l).workshop = true ∧ ((s.lane l).othersOn d).any moves = false ∧
      (s.lane l).atRest d.actI = true ∧ (s.lane l).median d.actI false ≠ none)
    (fun s d M => ∀ p, (s.lane l).median d.actI false = some p → M.get F.SAF_ZERO_ZERO =
        ofSigned 32 (satS 32 (p - roundDiv (d.i32 0 * (s.lane l).getS F.SAF_RATIO_RATIO) 65536)) ∧
      (s.lane l).onlyReply [R.SAF_ZERO.addr 0 0] M)) ∧
  (∀ l tag net, Acts l tag net (.caliperKisspoint l tag net) (fun s d => ((s.lane l).othersOn d).any moves = false ∧
      (s.lane l).clamped d.actI = false ∧ (s.lane l).atRest d.actI = true ∧ ((s.lane l).act d.actI).bridge = .enabled ∧
      (s.lane l).overtaken d = none ∧ d.actI < 4 ∧ (s.lane l).cmdq.acts.length = 4)
    (fun _ d M => (M.act d.actI).kind = .kiss ∧ (M.act d.actI).service = d.u 0 4 ∧ (M.act d.actI).armed = true ∧
      M.fbit F.SAF_ARM_SDI d.actI = true)) ∧
  (∀ l tag net, Acts l tag net (.encoderAlign l tag net) (fun s d => d.u 0 1 ≤ 3 ∧ d.u 1 3 = 0 ∧ (s.lane l).workshop = true ∧
      (s.lane l).pruned (.pos (d.u 0 1)) = false ∧ (s.lane l).pruned (.drv d.actI) = false ∧
      ((s.lane l).othersOn d).any moves = false ∧ (s.lane l).atRest d.actI = true ∧ ((s.lane l).act d.actI).bridge = .enabled ∧
      (s.lane l).overtaken d = none ∧ d.actI < 4 ∧ (s.lane l).cmdq.acts.length = 4)
    (fun _ d M => (M.act d.actI).kind = .align ∧ (M.act d.actI).service = d.u 4 4 ∧ (M.act d.actI).armed = true ∧
      M.fbit F.SAF_ARM_SDI d.actI = true)) ∧
  (∀ l tag net, Concludes l tag net (.encoderAlign l tag net) (fun s d => d.u 0 1 ≤ 3 ∧ d.u 1 3 = 0 ∧ (s.lane l).workshop = true ∧
      ((s.lane l).pruned (.pos (d.u 0 1)) = true ∨ (s.lane l).pruned (.drv d.actI) = true)) St.RESOURCE_PRUNED (fun _ _ => [])) ∧
  (∀ l tag net vm, Acts l tag net (.offstateDiag l tag net vm) (fun s d => (s.lane l).odLive d ≠ 0 ∧
      (∀ b, b < 4 → bit ((s.lane l).odLive d) b = true → ((s.lane l).act b).bridge = .disabled) ∧ (s.lane l).is F.PROT_ODIAG_BUSY = false)
    (fun s d M => M = ((s.lane l).odRequest ((s.lane l).odLive d) vm false).accept d)) ∧
  (∀ l tag net, Acts l tag net (.icvRefcheck l tag net) (fun s d => 100 ≤ d.u 0 4 ∧ d.u 0 4 ≤ 20000 ∧ d.u 5 3 = 0 ∧
      (s.lane l).pruned .icv = false ∧ ∃ n, n < 8 ∧ bit (d.u 4 1) n = true ∧ (s.lane l).pruned (.cnv n) = false)
    (fun s d M => M = ((s.lane l).refAsk (d.u 4 1) (d.u 0 4) (.cmd d.tag d.net)).accept d)) ∧
  (∀ l tag net, Concludes l tag net (.icvRefcheck l tag net) (fun s d => 100 ≤ d.u 0 4 ∧ d.u 0 4 ≤ 20000 ∧ d.u 5 3 = 0 ∧
      (s.lane l).pruned .icv = true) St.RESOURCE_PRUNED (fun _ _ => [])))

/-- WEED_SLICE starts a slice whose cover stands, else waits (R383); FALLOW_REQUEST announces the leave of its lane (R95); GRAFT and PRUNE
judge the lane's state (Tables 2.9, 2.10), GRAFT waiting too in an ACTIVE lane that its Hedge holds off on its way to EXCLUDED; TRIO_SPLIT
and TRIO_JOIN ask the trio (Table 3.5). How GRAFT and FALLOW_REQUEST end are choices (logs 75 and 76). -/
def Obligations.LaneOpcodes : Prop :=
  let stopped (L : Lane) : Bool := L.active && (L.sdl.held || L.is F.GD_LSTOP_REMOVED || L.is F.GD_LSTOP_XINH)
  (∀ l tag net, Acts l tag net (.weedSlice l tag net)
    (fun s d => 2 ≤ (s.lane l).memberCount ∧ d.u 2 2 = 0 ∧ ∃ e, elemAt (d.u 0 1) (d.u 1 1) = some e ∧ sliceReady s l e = true)
    (fun s d M => ∀ e, elemAt (d.u 0 1) (d.u 1 1) = some e → M = ((s.lane l).chooseSlice e false (some (d.tag, d.net))).accept d)) ∧
  (∀ l tag net, Acts l tag net (.weedSlice l tag net)
    (fun s d => 2 ≤ (s.lane l).memberCount ∧ d.u 2 2 = 0 ∧ ∃ e, elemAt (d.u 0 1) (d.u 1 1) = some e ∧ sliceReady s l e = false)
    (fun s d M => M = (s.lane l).defer d)) ∧
  (∀ l tag net, GoesOn l tag net (.fallowRequest l tag net)
    (fun s _ => (s.lane l).active = true ∧ (s.lane l).allActive = true ∧ s.fallowOk l = true)
    (fun s d => (s.announceLeave l 2).upd l (fun L => L.accept d))) ∧
  (∀ l tag net, Acts l tag net (.fallowRequest l tag net)
    (fun s _ => (s.lane l).active = true ∧ (s.lane l).allActive = true ∧ s.fallowOk l = false) (fun s d M => M = (s.lane l).defer d)) ∧
  (∀ l tag net, Replies l tag net (.fallowRequest l tag net) (fun s _ => (s.lane l).own ≠ 4 ∧ ((s.lane l).active = false ∨
    (s.lane l).allActive = false)) St.NOT_IN_STATE (fun _ _ => [])) ∧
  (∀ l tag net, Acts l tag net (.graft l tag net) (fun s _ => (s.lane l).own = 3 ∧ (s.lane l).get F.OZL_GRAFT_ATTEMPTS < 3 ∧
      (s.lane l).ozl.graftDue ≤ (s.lane l).now) (fun s d M => M = (s.lane l).startGraft.accept d)) ∧
  (∀ l tag net, Acts l tag net (.graft l tag net) (fun s _ => stopped (s.lane l) = true ∨ ((s.lane l).own = 3 ∧
      (s.lane l).get F.OZL_GRAFT_ATTEMPTS < 3 ∧ (s.lane l).now < (s.lane l).ozl.graftDue)) (fun s d M => M = (s.lane l).defer d)) ∧
  (∀ l tag net, Replies l tag net (.graft l tag net) (fun s _ => (s.lane l).own = 4 ∨ ((s.lane l).own = 3 ∧
    3 ≤ (s.lane l).get F.OZL_GRAFT_ATTEMPTS)) St.RESOURCE_PRUNED (fun _ _ => [])) ∧
  (∀ l tag net, Replies l tag net (.graft l tag net) (fun s _ => (s.lane l).own ≠ 3 ∧ (s.lane l).own ≠ 4 ∧ stopped (s.lane l) = false)
    St.NOT_IN_STATE (fun _ _ => [])) ∧
  (∀ l tag net, Replies l tag net (.prune l tag net) (fun s d => d.u 2 2 = 0 ∧ d.u 0 1 ≠ 0 ∧
      ∃ e, elemAt (d.u 0 1) (d.u 1 1) = some e ∧ (s.lane l).pruned e = true) St.DONE (fun _ _ => [])) ∧
  (∀ l tag net n, Acts l tag net (.prune l tag net) (fun s d => d.u 2 2 = 0 ∧ d.u 0 1 ≠ 0 ∧ elemAt (d.u 0 1) (d.u 1 1) = some (.cnv n) ∧
      (s.lane l).pruned (.cnv n) = false ∧ (s.lane l).outOfService (.cnv (partner n)) = false ∧ (s.lane l).test.slice = none)
    (fun s d M => M = ((s.lane l).pruneAny (.cnv n)).finish d St.DONE)) ∧
  (∀ l tag net n, Replies l tag net (.prune l tag net) (fun s d => d.u 2 2 = 0 ∧ d.u 0 1 ≠ 0 ∧ elemAt (d.u 0 1) (d.u 1 1) = some (.cnv n) ∧
      (s.lane l).pruned (.cnv n) = false ∧ (s.lane l).outOfService (.cnv (partner n)) = true) St.SAFETY_LIMIT (fun _ _ => [])) ∧
  (∀ l tag net, Acts l tag net (.trioSplit l tag net) (fun s d => d.u 0 1 = 0 ∧ d.u 1 3 = 0 ∧ (s.lane l).trioMode = 0 ∧
      (s.lane l).soundCores = 7 ∧ (s.lane l).trio.drain = none)
    (fun s d M => M.get F.TRIO_SPLIT_BUSY = 1 ∧ M.trio.drain = some .split ∧ M.reg R.TRIO_FREE_PC = d.u 4 4 ∧
      (s.lane l).onlyReply [R.TRIO_SPLIT.addr 0 0, R.TRIO_FREE_PC.addr 0 0] M)) ∧
  (∀ l tag net, Acts l tag net (.trioJoin l tag net) (fun s _ => (s.lane l).trioMode = 4)
    (fun _ _ M => M.trioMode = 1 ∧ M.get F.TRIO_SPLIT_BUSY = 1))

/-- Power, configuration, Seal, Almanac and life cycle: POWER_VOTE and POWER_UNVOTE place client 3's vote (R472); CFG_WRITE writes all or none
(R173); SEAL_CONFIRM begins both computations of the references (R365, R367); ALM_MARK writes the mark (R523); LIFECYCLE takes the
transitions of Table 17.7 alone (R525). A CFG_WRITE to a block out of reach, and the authorisation code of a transition, are as logs 47
and 98 say. -/
def Obligations.SystemOpcodes : Prop :=
  (∀ l tag net, Concludes l tag net (.powerVote l tag net) (fun _ d => d.u 0 1 = 0 ∧ (d.u 1 1 = 1 ∨ d.u 1 1 = 2) ∧ d.u 2 2 = 0) St.DONE
    (fun _ _ => [2])) ∧
  (∀ l tag net, Acts l tag net (.powerVote l tag net) (fun s d => 0 < d.u 0 1 ∧ d.u 0 1 ≤ 20 ∧ d.u 1 1 = 2 ∧ d.u 2 2 = 0 ∧
      ((s.lane l).vote 3 (d.u 0 1) 2).domReached (d.u 0 1) 2 = false ∧ ((s.lane l).vote 3 (d.u 0 1) 2).dropLate (d.u 0 1) = false)
    (fun s d M => M = ((s.lane l).vote 3 (d.u 0 1) 2).accept d)) ∧
  (∀ l tag net, GoesOn l tag net (.powerVote l tag net) (fun s d => 0 < d.u 0 1 ∧ d.u 0 1 ≤ 20 ∧ d.u 1 1 = 1 ∧ d.u 2 2 = 0 ∧
      (s.lane l).retIgnored (d.u 0 1) = true)
    (fun s d => (s.setLane l (s.lane l).busErr).conclude l d St.NOT_IN_STATE)) ∧
  (∀ l tag net, GoesOn l tag net (.powerUnvote l tag net) (fun s d => d.u 0 1 ≤ 20 ∧ d.u 1 3 = 0 ∧
      ∀ x, x ∈ (s.lane l).cmdq.queue → x.phase ≠ .deferred)
    (fun s d => (s.setLane l ((s.lane l).vote 3 (d.u 0 1) 0)).conclude l d St.DONE)) ∧
  (∀ l tag net, GoesOn l tag net (.cfgWrite l tag net) (fun s d => d.u 1 3 = 0 ∧ (s.lane l).cfgWaits d = false ∧
      (∀ p, p ∈ d.cfgPairs → cfgAddrOk p.1 = true ∧ (s.lane l).cfgLocked p.1 p.2 = false ∧ (s.lane l).cfgReach p.1 = true))
    (fun s d => (d.cfgPairs.foldl (fun t p => t.cfgOne l p) s).conclude l d St.DONE)) ∧
  (∀ l tag net, Concludes l tag net (.cfgWrite l tag net) (fun s d => d.u 1 3 = 0 ∧ (s.lane l).cfgWaits d = false ∧
      (∀ p, p ∈ d.cfgPairs → cfgAddrOk p.1 = true) ∧ ∃ p, p ∈ d.cfgPairs ∧ (s.lane l).cfgLocked p.1 p.2 = true) St.LOCKED (fun _ _ => [])) ∧
  (∀ l tag net, Concludes l tag net (.cfgWrite l tag net) (fun s d => d.u 1 3 = 0 ∧ (s.lane l).cfgWaits d = false ∧
      (∀ p, p ∈ d.cfgPairs → cfgAddrOk p.1 = true ∧ (s.lane l).cfgLocked p.1 p.2 = false) ∧
      ∃ p, p ∈ d.cfgPairs ∧ (s.lane l).cfgReach p.1 = false) St.NOT_IN_STATE (fun _ _ => [])) ∧
  (∀ l tag net, Acts l tag net (.sealConfirm l tag net) (fun s _ => (s.lane l).get F.SYS_LC_STATE = 1 ∧ (s.lane l).memberCount = 3 ∧
      (s.lane l).is F.SAF_SEALCTL_LOCKED = false ∧ (s.lane l).is F.HSF_SEALCMD_LOCKED = false)
    (fun _ d M => M.reg R.SAF_SEALREF = d.u 0 4 ∧ M.reg R.HSF_SEALREF = d.u 0 4 ∧ M.get F.SAF_SEALCTL_BUSY = 1 ∧
      M.get F.HSF_SEALCMD_BUSY = 1 ∧ M.saf.run.isSome = true ∧ M.hsf.run.isSome = true)) ∧
  (∀ l tag net, Replies l tag net (.sealConfirm l tag net) (fun s _ => (s.lane l).get F.SYS_LC_STATE ≠ 1 ∨ (s.lane l).memberCount ≠ 3)
    St.NOT_IN_STATE (fun _ _ => [])) ∧
  (∀ l tag net, Acts l tag net (.almMark l tag net) (fun s d => 1 ≤ d.u 0 1 ∧ d.u 0 1 ≤ 0xEF ∧ d.u 1 3 = 0 ∧
      (s.lane l).get F.SYS_LC_STATE = 2)
    (fun s d M => M = ((s.lane l).almMark (d.u 0 1) 0 ((d.params.drop 4).take 16)).1.finish d St.DONE
      (bytesLE 4 ((s.lane l).almMark (d.u 0 1) 0 ((d.params.drop 4).take 16)).2))) ∧
  (∀ l tag net, Acts l tag net (.almMark l tag net) (fun s d => 1 ≤ d.u 0 1 ∧ d.u 0 1 ≤ 0xEF ∧ d.u 1 3 = 0 ∧
      (s.lane l).get F.SYS_LC_STATE = 3)
    (fun s d M => M = ((s.lane l).almMark (d.u 0 1) 0 ((d.params.drop 4).take 16)).1.almBegin.finish d St.DONE
      (bytesLE 4 ((s.lane l).almMark (d.u 0 1) 0 ((d.params.drop 4).take 16)).2))) ∧
  (∀ l tag net, Replies l tag net (.lifecycle l tag net) (fun s d => d.u 0 1 ≤ 4 ∧ d.u 1 3 = 0 ∧
      lcRow ((s.lane l).get F.SYS_LC_STATE) (d.u 0 1) = none) St.NOT_IN_STATE (fun _ _ => [])) ∧
  (∀ l tag net, Acts l tag net (.lifecycle l tag net) (fun s d => (s.lane l).get F.SYS_LC_STATE = 0 ∧ d.u 0 1 = 1 ∧ d.u 1 3 = 0 ∧
      (s.lane l).alm.lc = none ∧ ∀ a, a < 4 → ((s.lane l).act a).bridge = .disabled)
    (fun s d M => M = (s.lane l).lcBegin d ∧ ∃ r, M.alm.lc = some r ∧ r.old = 0 ∧ r.target = 1))

/-- A loop engine's supervision: OVERRUN stops the activation, later ones do not run, the next cell is late (R192, R93); RESEL stands until
the next activation (R202); a write while programs run goes through the write buffer in order, or stalls on a full one (R182). -/
def Obligations.LoopCommands : Prop :=
  (∀ l (n : Fin 4), Does l (.overrun l n) fun _ M => (M.eng n.val).act = none ∧ (M.eng n.val).due = [] ∧
    M.ozl.shLate = true ∧ M.get F.LOOP_DONE_DONE n.val = 1 ∧ M.flagged Ev.LOOP_OVERRUN n.val) ∧
  (∀ l (n : Fin 4) (m : Fin 8), Does l (.resel l n m) fun L M => L.sets F.LOOP_PRG_SRC_RESEL 1 M n.val m.val ∧
    L.only [F.LOOP_PRG_SRC_RESEL.reg.addr n.val m.val] M) ∧
  (∀ l (n : Fin 4) addr val, DoesWhen l (.wbufWrite l n addr val) (fun L => L.is F.LOOP_ECTL_RUN n.val = false ∧ (L.eng n.val).wbuf = [])
    fun L M => M.dm n.val addr.toNat = val.toInt ∧ L.onlyWord n.val addr.toNat M) ∧
  (∀ l (n : Fin 4) addr val, DoesWhen l (.wbufWrite l n addr val) (fun L => (L.is F.LOOP_ECTL_RUN n.val = true ∨ (L.eng n.val).wbuf ≠ []) ∧
    (L.eng n.val).wbuf.length < 16 ∧ (L.eng n.val).stalled = []) fun L M =>
      (M.eng n.val).wbuf = (L.eng n.val).wbuf ++ [(addr.toNat, val)] ∧ (M.eng n.val).stalled = [] ∧ L.only [] M) ∧
  (∀ l (n : Fin 4) addr val, DoesWhen l (.wbufWrite l n addr val) (fun L => (L.is F.LOOP_ECTL_RUN n.val = true ∨ (L.eng n.val).wbuf ≠ []) ∧
    (16 ≤ (L.eng n.val).wbuf.length ∨ (L.eng n.val).stalled ≠ [])) fun L M =>
      (M.eng n.val).stalled = (L.eng n.val).stalled ++ [(addr.toNat, val)] ∧ (M.eng n.val).wbuf = (L.eng n.val).wbuf ∧
      M.shows Ev.LOOP_WBUF_STALL n.val ∧ L.only (evRegs .loop n.val) M) ∧
  (∀ l (n : Fin 4), Does l (.wbufDrain l n) fun L M => ∀ a v rest, (L.eng n.val).wbuf = (a, v) :: rest → M.dm n.val a = v.toInt ∧
    L.onlyWord n.val a M ∧ (M.eng n.val).stalled = (L.eng n.val).stalled.drop 1 ∧
    (M.eng n.val).wbuf = rest ++ (L.eng n.val).stalled.take 1)

/-- Format D on a data word inside the program's window (Table 5.4, R183 to R187): the word in the accumulators' format is loaded, added,
subtracted, compared, multiplied by K; X and K take words; division rounds to nearest; the index register steps by the mode. A word
outside the window is program fault 3 (R188). Stores (Table 5.4, R184): ST puts the accumulator's Q1.15 conversion into the data word its
address names, STX the index register; every other byte of memory and every register reads as before. The quotient by 0 is a free value
(log 118). -/
def Obligations.MiokinMemoryForms : Prop :=
  (
  let inside (n : Fin 4) (e : Ea) (L : Lane) (A : LoopAct) : Prop := L.inData n.val A.prog (A.ea e) = true
  let outside (n : Fin 4) (e : Ea) (L : Lane) (A : LoopAct) : Prop := L.inData n.val A.prog (A.ea e) = false
  (∀ l n a e, Miokin l n.val (.ld l n a e) 1 (inside n e) fun L A => (A.eaStep e).setAcc a (L.dm n.val (A.ea e) * 2 ^ 15)) ∧
  (∀ l n a e, Miokin l n.val (.add l n a e) 1 (inside n e) fun L A => (A.eaStep e).setAcc a (A.accOf a + L.dm n.val (A.ea e) * 2 ^ 15)) ∧
  (∀ l n a e, Miokin l n.val (.sub l n a e) 1 (inside n e) fun L A => (A.eaStep e).setAcc a (A.accOf a - L.dm n.val (A.ea e) * 2 ^ 15)) ∧
  (∀ l n e, Miokin l n.val (.ldk l n e) 1 (inside n e) fun L A => { A.eaStep e with k := L.dm n.val (A.ea e) }) ∧
  (∀ l n a e, Miokin l n.val (.mpy l n a e) 1 (inside n e) fun L A => (A.eaStep e).setAcc a (A.k * L.dm n.val (A.ea e))) ∧
  (∀ l n a e, Miokin l n.val (.mac l n a e) 1 (inside n e) fun L A => (A.eaStep e).setAcc a (A.accOf a + A.k * L.dm n.val (A.ea e))) ∧
  (∀ l n a e, Miokin l n.val (.msu l n a e) 1 (inside n e) fun L A => (A.eaStep e).setAcc a (A.accOf a - A.k * L.dm n.val (A.ea e))) ∧
  (∀ l n a e, Miokin l n.val (.cmp l n a e) 1 (inside n e) fun L A => (A.eaStep e).flags (A.accOf a - L.dm n.val (A.ea e) * 2 ^ 15)) ∧
  (∀ l n x ad, Miokin l n.val (.ldx l n x ad) 1 (fun L A => L.inData n.val A.prog ad.toNat = true) fun L A => A.setX x (L.dm n.val ad.toNat)) ∧
  (∀ l n a e, Miokin l n.val (.divA l n a e) 18 (fun L A => inside n e L A ∧ L.dm n.val (A.ea e) ≠ 0) fun L A =>
    (A.eaStep e).setAcc a (roundDiv (A.accOf a * 2 ^ 15) (L.dm n.val (A.ea e)))) ∧
  (∀ l n a e, Miokin l n.val (.divA l n a e) 18 (fun L A => inside n e L A ∧ L.dm n.val (A.ea e) = 0) fun _ A =>
    { (A.eaStep e).setAcc a (divValue (A.accOf a) 0) with sat := true }) ∧
  (∀ l n a e, Miokin l n.val (.lim l n a e) 1 (fun L A => inside n e L A ∧ L.inData n.val A.prog (A.ea e + 1) = true) fun L A =>
    let r := min (max (A.accOf a) (L.dm n.val (A.ea e) * 2 ^ 15)) (L.dm n.val (A.ea e + 1) * 2 ^ 15)
    { (A.eaStep e).setAcc a r with clp := r != A.accOf a }) ∧
  (∀ l n a e, Miokin l n.val (.lut l n a e) 4 (fun L A =>
      let sg := L.dm n.val (A.ea e)
      let i := min ((qConv (A.accOf a) + 32768) * sg / 65536) (sg - 1)
      inside n e L A ∧ 1 ≤ sg ∧ sg ≤ 255 ∧ L.inData n.val A.prog (A.ea e + 1 + i.toNat) = true ∧
        L.inData n.val A.prog (A.ea e + 1 + i.toNat + 1) = true) fun L A =>
    let sg := L.dm n.val (A.ea e)
    let num := (qConv (A.accOf a) + 32768) * sg
    let i := min (num / 65536) (sg - 1)
    let y0 := L.dm n.val (A.ea e + 1 + i.toNat)
    let y1 := L.dm n.val (A.ea e + 1 + i.toNat + 1)
    ((A.eaStep e).qFlag (A.accOf a)).setAcc a (roundDiv (y0 * 65536 + (y1 - y0) * (num - 65536 * i)) 2)) ∧
  (∀ l n a e, MiokinFault l n.val (.ld l n a e) 3 (outside n e)) ∧
  (∀ l n a e, MiokinFault l n.val (.st l n a e) 3 (outside n e)) ∧
  (∀ l n a e, MiokinFault l n.val (.lut l n a e) 3 (fun L A => inside n e L A ∧ (L.dm n.val (A.ea e) < 1 ∨ 255 < L.dm n.val (A.ea e)))))
  ∧
  (
  (∀ l (n : Fin 4) a e, Does l (.st l n a e) fun L M => ∀ A, (L.eng n.val).act = some A → L.inData n.val A.prog (A.ea e) = true →
    M.dm n.val (A.ea e) = qConv (A.accOf a) ∧ L.onlyWord n.val (A.ea e) M ∧
    (M.eng n.val).act = some (((A.eaStep e).qFlag (A.accOf a)).past 1)) ∧
  (∀ l (n : Fin 4) x ad, Does l (.stx l n x ad) fun L M => ∀ A, (L.eng n.val).act = some A → L.inData n.val A.prog ad.toNat = true →
    A.xOf x < 4096 → M.dm n.val ad.toNat = A.xOf x ∧ L.onlyWord n.val ad.toNat M ∧ (M.eng n.val).act = some (A.past 1)))

/-- Formats P, R and I (Table 5.4): products of two words, arithmetic among the accumulators, shifts, limits, conversions to K, immediates and
index registers. -/
def Obligations.MiokinRegisterForms : Prop :=
  let always (_ : Lane) (_ : LoopAct) : Prop := True
  let both (n : Fin 4) (p q : PEa) (L : Lane) (A : LoopAct) : Prop :=
    L.inData n.val A.prog (A.xOf p.x) = true ∧ L.inData n.val A.prog (A.xOf q.x) = true
  let prod (n : Fin 4) (p q : PEa) (L : Lane) (A : LoopAct) : Int := L.dm n.val (A.xOf p.x) * L.dm n.val (A.xOf q.x)
  (∀ l n a p q, Miokin l n.val (.mpyp l n a p q) 1 (both n p q) fun L A => ((A.pStep p).pStep q).setAcc a (prod n p q L A)) ∧
  (∀ l n a p q, Miokin l n.val (.macp l n a p q) 1 (both n p q) fun L A => ((A.pStep p).pStep q).setAcc a (A.accOf a + prod n p q L A)) ∧
  (∀ l n a p q, Miokin l n.val (.msbp l n a p q) 1 (both n p q) fun L A => ((A.pStep p).pStep q).setAcc a (A.accOf a - prod n p q L A)) ∧
  (∀ l n a b, Miokin l n.val (.movA l n a b) 1 always fun _ A => A.setAcc a (A.accOf b)) ∧
  (∀ l n a b, Miokin l n.val (.adda l n a b) 1 always fun _ A => A.setAcc a (A.accOf a + A.accOf b)) ∧
  (∀ l n a b, Miokin l n.val (.suba l n a b) 1 always fun _ A => A.setAcc a (A.accOf a - A.accOf b)) ∧
  (∀ l n a, Miokin l n.val (.neg l n a) 1 always fun _ A => A.setAcc a (0 - A.accOf a)) ∧
  (∀ l n a, Miokin l n.val (.absA l n a) 1 always fun _ A => A.setAcc a (if A.accOf a < 0 then 0 - A.accOf a else A.accOf a)) ∧
  (∀ l n a, Miokin l n.val (.clr l n a) 1 always fun _ A => A.setAcc a 0) ∧
  (∀ l n a k, 0 ≤ BitVec.toInt k → Miokin l n.val (.sha l n a k) 1 always fun _ A => A.setAcc a (A.accOf a * 2 ^ k.toInt.toNat)) ∧
  (∀ l n a k, BitVec.toInt k < 0 → Miokin l n.val (.sha l n a k) 1 always fun _ A => A.setAcc a (A.accOf a / 2 ^ (-k.toInt).toNat)) ∧
  (∀ l n a, Miokin l n.val (.sat l n a) 1 always fun _ A =>
    let r := max (-0x8000 * 2 ^ 15) (min (0x7FFF * 2 ^ 15) (A.accOf a))
    { A.setAcc a r with clp := r != A.accOf a }) ∧
  (∀ l n a b, Miokin l n.val (.maxA l n a b) 1 always fun _ A => A.setAcc a (max (A.accOf a) (A.accOf b))) ∧
  (∀ l n a b, Miokin l n.val (.minA l n a b) 1 always fun _ A => A.setAcc a (min (A.accOf a) (A.accOf b))) ∧
  (∀ l n a b, Miokin l n.val (.mulk l n a b) 1 always fun _ A => (A.qFlag (A.accOf b)).setAcc a (A.k * qConv (A.accOf b))) ∧
  (∀ l n a b, Miokin l n.val (.cmpa l n a b) 1 always fun _ A => A.flags (A.accOf a - A.accOf b)) ∧
  (∀ l n a, Miokin l n.val (.movk l n a) 1 always fun _ A => { A.qFlag (A.accOf a) with k := qConv (A.accOf a) }) ∧
  (∀ l n a (imm : Half), Miokin l n.val (.ldi l n a imm) 1 always fun _ A => A.setAcc a (imm.toInt * 2 ^ 15)) ∧
  (∀ l n a (imm : Half), Miokin l n.val (.addi l n a imm) 1 always fun _ A => A.setAcc a (A.accOf a + imm.toInt * 2 ^ 15)) ∧
  (∀ l n (imm : Half), Miokin l n.val (.lki l n imm) 1 always fun _ A => { A with k := imm.toInt }) ∧
  (∀ l n x (imm : BitVec 12), Miokin l n.val (.lxi l n x imm) 1 always fun _ A => { A with x := A.x.set x.toNat imm.toNat }) ∧
  (∀ l n x (imm : BitVec 12), Miokin l n.val (.axi l n x imm) 1 always fun _ A =>
    { A with x := A.x.set x.toNat (((A.xOf x : Int) + imm.toInt) % 4096).toNat }) ∧
  (∀ l n, Miokin l n.val (.nop l n) 1 always fun _ A => A)

/-- Repetition, inputs, outputs and flow (Tables 5.4, 5.5, 5.6, R186, R188, R196, R197): REP holds the next instruction, GET takes an item of
the snapshot, OUT stages a port the program owns and is fault 5 for any other, jumps and calls go to their target, RET to the word behind
its CALL, an empty or full return stack is fault 4, END commits the staged outputs and the next due program starts 4 cycles on. A program
fault shows FAULT, its code and its address (R188), and an accumulator saturates to Q10.30 with SAT set, Z and N from the result (R183,
R185). Z, N and CLP start an activation false (log 135). -/
def Obligations.MiokinControlAndFaults : Prop :=
  (
  let goes (l : LaneId) (n : Fin 4) (i : Instr) (c : Lane → LoopAct → Prop) (f : LoopAct → LoopAct) : Prop :=
    ∀ s A, i.ready (s.lane l) = true → ((s.lane l).eng n.val).act = some A → c (s.lane l) A →
      exec i s = .next (s.setLane l ((s.lane l).onEng n.val (fun e => { e with act := some (f A) })))
  (∀ l n imm, goes l n (.rep l n imm) (fun L A => L.inCode n.val A.prog (A.pc + 1) = true ∧ L.fetchM n.val (A.pc + 1) = some .nop)
    fun A => { A with rep := imm.toNat + 1, pc := A.pc + 1, cycles := A.cycles + 1 }) ∧
  (∀ l n imm, MiokinFault l n.val (.rep l n imm) 6
    (fun L A => L.inCode n.val A.prog (A.pc + 1) = true ∧ L.fetchM n.val (A.pc + 1) = some .ret)) ∧
  (∀ l n a, Miokin l n.val (.get l n a 0) 1 (fun _ _ => True) fun L A => A.setAcc a ((L.snapOf n.val A.prog).fb * 2 ^ 15)) ∧
  (∀ l n a, Miokin l n.val (.get l n a 1) 1 (fun _ _ => True) fun L A => A.setAcc a ((L.snapOf n.val A.prog).spr * 2 ^ 15)) ∧
  (∀ l n a, Miokin l n.val (.get l n a 2) 1 (fun _ _ => True) fun L A => A.setAcc a ((L.snapOf n.val A.prog).spt * 2 ^ 15)) ∧
  (∀ l n a, Miokin l n.val (.get l n a 5) 1 (fun L _ => (L.eng n.val).share = 3) fun _ A => A.setAcc a (0x2AAB * 2 ^ 15)) ∧
  (∀ l n a p share, Miokin l n.val (.outP l n a p share) 1 (fun L A => p.toNat ∈ L.ownedPorts n.val A.prog) fun L A =>
    let d := if share then (L.eng n.val).shareOf else 1
    { A.qFlag (A.accOf a) d with staged := A.staged.set p.toNat (some (satS 16 (roundDiv (A.accOf a) (2 ^ 15 * d)))) }) ∧
  (∀ l n a p share, MiokinFault l n.val (.outP l n a p share) 5 (fun L A => p.toNat ∉ L.ownedPorts n.val A.prog)) ∧
  (∀ l n c t, goes l n (.jmp l n c t) (fun L A => condHolds A (L.snapOf n.val A.prog) c.toNat = true)
    fun A => { A with pc := t.toNat, cycles := A.cycles + 2 }) ∧
  (∀ l n c t, goes l n (.jmp l n c t) (fun L A => condHolds A (L.snapOf n.val A.prog) c.toNat = false)
    fun A => { A with pc := A.pc + 1, cycles := A.cycles + 1 }) ∧
  (∀ l n t, goes l n (.call l n t) (fun _ A => A.stack.length < 4)
    fun A => { A with pc := t.toNat, stack := (A.pc + 1) :: A.stack, cycles := A.cycles + 2 }) ∧
  (∀ l n t, MiokinFault l n.val (.call l n t) 4 (fun _ A => 4 ≤ A.stack.length)) ∧
  (∀ l n, goes l n (.ret l n) (fun _ A => A.stack ≠ [])
    fun A => { A with pc := A.stack.headD 0, stack := A.stack.tail, cycles := A.cycles + 2 }) ∧
  (∀ l n, MiokinFault l n.val (.ret l n) 4 (fun _ A => A.stack = [])) ∧
  (∀ l n, Does l (.endAct l n) fun L M => ∀ A, (L.eng n.val).act = some A →
    (∀ p v, p < 8 → A.staged.getD p none = some v → M.get F.LOOP_OUT_VALUE n.val p = ofSigned 16 v) ∧
    ((L.eng n.val).due = [] → (M.eng n.val).act = none ∧ M.get F.LOOP_DONE_DONE n.val = 1) ∧
    (∀ m rest, (L.eng n.val).due = m :: rest → (M.eng n.val).due = rest ∧ (M.eng n.val).act =
      some { prog := m, pc := L.get F.LOOP_PRG_CODE_ENTRY n.val m, startAt := A.startAt + A.cycles + 1 + 4 })))
  ∧
  (
  (∀ (L : Lane) n A code fpc, n < L.loops.length → L.calm Ev.LOOP_PRG_FAULT n = true → L.outOfService (.loop n) = false → n < 4 → A.prog < 8 →
    (L.eng n).due = [] → let M := L.progFault n A code fpc
    M.get F.LOOP_PRG_STAT_FAULT n A.prog = 1 ∧ M.get F.LOOP_PRG_STAT_FCODE n A.prog = code % 2 ^ F.LOOP_PRG_STAT_FCODE.w ∧
    M.get F.LOOP_PRG_STAT_FPC n A.prog = fpc % 2 ^ F.LOOP_PRG_STAT_FPC.w ∧ (M.eng n).act = none ∧ M.flagged Ev.LOOP_PRG_FAULT n) ∧
  (∀ (A : LoopAct) (a : BitVec 2) v, A.acc.length = 4 →
    let B := A.setAcc a v
    B.accOf a = max (-(2 ^ 39)) (min (2 ^ 39 - 1) v) ∧ B.z = decide (B.accOf a = 0) ∧ B.n = decide (B.accOf a < 0) ∧
    (B.sat = true ↔ A.sat = true ∨ v < -(2 ^ 39) ∨ 2 ^ 39 - 1 < v) ∧ (∀ b, b ≠ a → B.accOf b = A.accOf b) ∧ B.x = A.x ∧ B.k = A.k))

/-- Drive frames and decisions (R213, R214, R217, R296, R305, R313): both converters in service deliver the codes scaled for the decision to
come, without iW while a check conversion takes slot 3, one alone a cover frame without iW, none no frame; a frame within 85 ns of its
decision comes too late for it. A decision of an idle engine keeps every leg OFF, one without its frame keeps the legs and counts, one
with it decides. The rules of a decision (R214, R222, R225 to R228): the frame's current and the comparators with their hysteresis, Z the
zero vector of fewer leg changes, and the two filters: a change to OFF passes, any other waits until its hold is over and a whole token is
there, which it takes. A decision without its frame goes on as log 136 says. -/
def Obligations.DriveFramesAndDecisions : Prop :=
  (
  let frame (L : Lane) (k : Fin 4) (iu iv iw vm : BitVec 12) (whole cover : Bool) : Option DrvFrame :=
    some ⟨L.mtN + L.toDecision k.val, L.scaleI k.val iu.toInt, L.scaleI k.val iv.toInt,
      if whole then some (L.scaleI k.val iw.toInt) else none, L.scaleV k.val vm.toNat, cover⟩
  (∀ l (k : Fin 4) iu iv iw vm chk, DoesWhen l (.driveFrame l k iu iv iw vm chk)
    (fun L => L.cnvAway (2 * k.val) = false ∧ L.cnvAway (2 * k.val + 1) = false ∧ 17 ≤ L.toDecision k.val) fun L M =>
      (M.drv k.val).frame = frame L k iu iv iw vm (L.checkSlot k.val == none) false ∧ M.get F.CNV_STAT_FRAME (2 * k.val) = 1 ∧
      M.get F.CNV_STAT_FRAME (2 * k.val + 1) = 1) ∧
  (∀ l (k : Fin 4) iu iv iw vm chk, DoesWhen l (.driveFrame l k iu iv iw vm chk)
    (fun L => L.cnvAway (2 * k.val) = false ∧ L.cnvAway (2 * k.val + 1) = false ∧ L.toDecision k.val < 17) fun L M =>
      (M.drv k.val).frame = (L.drv k.val).frame ∧ M.get F.CNV_STAT_FRAME (2 * k.val) = 1) ∧
  (∀ l (k : Fin 4) iu iv iw vm chk, DoesWhen l (.driveFrame l k iu iv iw vm chk)
    (fun L => L.cnvAway (2 * k.val) = true ∧ L.cnvAway (2 * k.val + 1) = false ∧ 17 ≤ L.toDecision k.val) fun L M =>
      (M.drv k.val).frame = frame L k iu iv iw vm false true ∧ M.get F.CNV_STAT_COVER (2 * k.val + 1) = 1) ∧
  (∀ l (k : Fin 4) iu iv iw vm chk, DoesWhen l (.driveFrame l k iu iv iw vm chk)
    (fun L => L.cnvAway (2 * k.val) = false ∧ L.cnvAway (2 * k.val + 1) = true ∧ 17 ≤ L.toDecision k.val) fun L M =>
      (M.drv k.val).frame = frame L k iu iv iw vm false true ∧ M.get F.CNV_STAT_COVER (2 * k.val) = 1) ∧
  (∀ l (k : Fin 4) iu iv iw vm chk, DoesWhen l (.driveFrame l k iu iv iw vm chk)
    (fun L => L.cnvAway (2 * k.val) = true ∧ L.cnvAway (2 * k.val + 1) = true) fun L M => M.drive = L.drive ∧
      M.get F.CNV_STAT_FRAME (2 * k.val) = 0 ∧ M.get F.CNV_STAT_FRAME (2 * k.val + 1) = 0) ∧
  (∀ l (k : Fin 4), DoesIn l (.decision l k) (fun s => (s.lane l).drvIdle k.val = true) fun s t =>
    ((t.lane l).drv k.val).legs = [0, 0, 0] ∧ (t.lane l).link.lastLegSent = (s.lane l).now ∧
    (t.lane l).drvState k.val = (s.lane l).drvState k.val ∧ (t.lane l).get F.DRV_EST_T_TIME k.val = (s.lane l).mtN % 2 ^ 32) ∧
  (∀ l (k : Fin 4), DoesIn l (.decision l k) (fun s => (s.lane l).drvIdle k.val = false ∧ (s.lane l).frameNow k.val = none) fun s t =>
    (t.lane l).flagged Ev.DRV_SAMPLE_LATE k.val ∧ (t.lane l).link.lastLegSent = (s.lane l).now ∧
    ((t.lane l).drvIdle k.val = false → ((t.lane l).drv k.val).legs = ((s.lane l).drv k.val).legs ∧
      ((t.lane l).drv k.val).lateRun = ((s.lane l).drv k.val).lateRun + 1)) ∧
  (∀ l (k : Fin 4) f, DoesIn l (.decision l k) (fun s => (s.lane l).drvIdle k.val = false ∧ (s.lane l).frameNow k.val = some f) fun s t =>
    ((t.lane l).drv k.val).prev = some f ∧ ((t.lane l).drv k.val).frame = none ∧ ((t.lane l).drv k.val).decN = ((s.lane l).drv k.val).decN + 1 ∧
    ∃ j, t.lane l = ((s.lane l).onDrv k.val (fun d => { d with decN := d.decN + 1 })).switchDecision k.val j))
  ∧
  (
  (∀ (L : Lane) k f, k < L.drive.eng.length → ((L.takeFrame k f).drv k).prev = some f ∧ ((L.takeFrame k f).drv k).frame = none ∧
    ((L.takeFrame k f).drv k).i.1 = f.iu ∧ (L.takeFrame k f).getS F.DRV_IAB_IALPHA k = toReg f.iu) ∧
  (∀ ht e ct : Int, 0 < ht → (ht ≤ e → torqueComp ht e ct = 1) ∧ (e ≤ -ht → torqueComp ht e ct = -1) ∧
    (-ht < e → e < ht → ct = 1 → torqueComp ht e ct = if e ≤ 0 then 0 else 1) ∧
    (-ht < e → e < ht → ct = -1 → torqueComp ht e ct = if 0 ≤ e then 0 else -1) ∧ (-ht < e → e < ht → ct = 0 → torqueComp ht e ct = 0)) ∧
  (∀ hf e cf : Int, 0 < hf → (hf ≤ e → fluxComp hf e cf = 1) ∧ (e ≤ -hf → fluxComp hf e cf = -1) ∧
    (-hf < e → e < hf → fluxComp hf e cf = cf)) ∧
  (∀ legs : List (BitVec 2), anyOff legs = true → zeroVec legs = 0) ∧
  (∀ legs : List (BitVec 2), anyOff legs = false → legDiff legs (vecLegs (zeroVec legs)) ≤ legDiff legs (vecLegs 0) ∧
    legDiff legs (vecLegs (zeroVec legs)) ≤ legDiff legs (vecLegs 7)) ∧
  (∀ cur want n freeAt credit minp, let r := legFilter cur want n freeAt credit minp
    (r.changed = true → r.st = want ∧ r.freeAt = n + minp) ∧
    (r.changed = false → r.st = cur ∧ r.freeAt = freeAt ∧ r.credit = credit) ∧ (want = 0 → r.st = 0 ∧ r.credit = credit) ∧
    (cur ≠ want → want ≠ 0 → (r.changed = true ↔ freeAt ≤ n ∧ 1000000 ≤ credit) ∧
      (r.changed = true → r.credit + 1000000 = credit))))

/-- States of a drive engine (Table 6.5, R217, R234, R235, R246): MAGNETISE to RUN with the position aligned (R244), the time-outs and lost
frames that end in FAULT and prune the engine, RAMPDOWN to OFF; voted ASC shorts the winding, voted ENA leads from OFF to PRECHARGE, to
HOFF while the Hedge overrides. Voted ENA and ASC change nothing in FAULT or while pruned (log 53). -/
def Obligations.DriveStates : Prop :=
  (∀ l (k : Fin 4), Does l (.magnetised l k) fun L M => M.drvState k.val = 3 ∧ (M.drv k.val).posAcc =
    (if L.dget F.DRV_PSRC_PSEL k.val ≤ 9 then (L.quant (L.dget F.DRV_PSRC_PSEL k.val)).val else 0) * 2 ^ 48) ∧
  (∀ l (k : Fin 4), Does l (.sampleLost l k) fun _ M => M.drvGone Ev.DRV_SAMPLE_LOST k.val ∧ (M.drv k.val).lateRun = 0) ∧
  (∀ l (k : Fin 4), Does l (.catchFail l k) fun _ M => M.drvGone Ev.DRV_CATCH_FAIL k.val) ∧
  (∀ l (k : Fin 4), Does l (.prechargeTimeout l k) fun _ M => M.drvGone Ev.DRV_MAG_FAIL k.val) ∧
  (∀ l (k : Fin 4), Does l (.magnetiseTimeout l k) fun _ M => M.drvGone Ev.DRV_MAG_FAIL k.val) ∧
  (∀ l (k : Fin 4), Does l (.rampdownTimeout l k) fun L M => M.drvState k.val = 0 ∧ (M.drv k.val).legs = [0, 0, 0] ∧
    M.link.lastLegSent = L.now) ∧
  (∀ l (k : Fin 4), Does l (.sixEnter l k) fun L M => L.sets F.DRV_STATE_SIX 1 M k.val ∧ (M.drv k.val).cf = 1 ∧
    M.shows Ev.DRV_SIX_ENTER k.val ∧ L.only (F.DRV_STATE_SIX.reg.addr k.val 0 :: evRegs .drv k.val) M) ∧
  (∀ (L : Lane) k ena, k < L.drive.eng.length → L.drvState k ≠ 8 → L.drvState k ≠ 7 → (L.drv k).asc = false →
    (L.drvVoted k ena true).drvState k = 5 ∧ ((L.drvVoted k ena true).drv k).legs = [1, 1, 1]) ∧
  (∀ (L : Lane) k, k < L.drive.eng.length → L.drvState k = 0 → (L.drv k).ena = false → (L.drv k).asc = false → L.drvConfigOk k = true →
    (L.drvVoted k true false).drvState k = if (L.drv k).ovr then 7 else 1)

/-- The angle source and the catch (R242, R243, R245): the estimate takes command, a re-arm is asked for and refused after 1 ms; a lost
observer in command starts the catch, its windows follow one another, the caught angle seeds the estimate and CATCH returns to RUN.
Reports of a drive engine: the current sum (R218), no regeneration cleared (R231), the current limit (R230), the switch counter's upper
word latched by a read of the lower (R250). Trigonometry, speed estimates and probe windows are free values (logs 17 and 137). -/
def Obligations.AngleCatchAndReports : Prop :=
  (
  (∀ l (k : Fin 4), Does l (.takeover l k) fun L M => M.get F.DRV_STATE_ASRC k.val = 1 ∧ M.get F.DRV_EVT_TAKEOVER k.val = 1 ∧
    ((L.drv k.val).sensorOk = false → M.shows Ev.DRV_TAKEOVER k.val ∧ L.sets F.DRV_STATE_ASRC 1 M k.val)) ∧
  (∀ l (k : Fin 4), Does l (.rearm l k) fun L M => L.sets F.DRV_MODE_REARM 1 M k.val ∧ (M.drv k.val).rearmAt = some L.now ∧
    L.only [F.DRV_MODE_REARM.reg.addr k.val 0] M) ∧
  (∀ l (k : Fin 4), Does l (.rearmRefused l k) fun L M => L.sets F.DRV_MODE_REARM 0 M k.val ∧ (M.drv k.val).rearmAt = none ∧
    M.shows Ev.DRV_REARM_REFUSED k.val ∧ L.only (F.DRV_MODE_REARM.reg.addr k.val 0 :: evRegs .drv k.val) M) ∧
  (∀ l (k : Fin 4), Does l (.obsLost l k) fun L M => (M.drv k.val).lost = true ∧ M.get F.DRV_EVT_LOST k.val = 1 ∧
    (L.is F.DRV_STATE_ASRC k.val = true → L.drvState k.val = 3 → M.drvState k.val = 6 ∧ M.get F.DRV_STATE_WIN k.val = 1 ∧
      (M.drv k.val).lossAt = L.now ∧ (M.drv k.val).winAt = L.now) ∧
    (L.is F.DRV_STATE_ASRC k.val = false → (L.drv k.val).sensorOk = true → M.drvState k.val = L.drvState k.val ∧
      M.shows Ev.DRV_OBS_LOST k.val)) ∧
  (∀ l (k : Fin 4), Does l (.catchWindow l k) fun L M => (M.drv k.val).winAt = L.now ∧ (M.drv k.val).probe = none ∧
    (M.drv k.val).winFail = false ∧ (L.drvState k.val = 6 → M.get F.DRV_STATE_WIN k.val = min 10 (L.get F.DRV_STATE_WIN k.val + 1)) ∧
    L.only [F.DRV_STATE_WIN.reg.addr k.val 0] M) ∧
  (∀ l (k : Fin 4), Does l (.catchDone l k) fun L M => ∀ p, (L.drv k.val).caught = some p → (M.drv k.val).w = p.w ∧
    M.get F.DRV_ANG_E_THETA_E k.val = p.theta % 2 ^ 32 ∧ (M.drv k.val).caught = none ∧ M.shows Ev.DRV_CATCH_DONE k.val ∧
    (L.drvState k.val = 6 → M.drvState k.val = 3 ∧ (M.drv k.val).heldTq = true) ∧ (L.drvState k.val = 2 → M.drvState k.val = 2)))
  ∧
  (
  (∀ l (k : Fin 4), Does l (.isum l k) fun L M => (M.drv k.val).isumArmed = false ∧ M.flagged Ev.DRV_ISUM k.val ∧
    (L.calm Ev.DRV_ISUM k.val = true → L.only (tokRegs .drv k.val) M)) ∧
  (∀ l (k : Fin 4), Does l (.noregClear l k) fun L M => L.sets F.DRV_STATE_NOREG 0 M k.val ∧ M.drive = L.drive ∧
    L.only [F.DRV_STATE_NOREG.reg.addr k.val 0] M) ∧
  (∀ l (k : Fin 4), Does l (.clim l k) fun L M => (M.drv k.val).climDone = true ∧ M.shows Ev.DRV_CLIM k.val ∧ L.only (evRegs .drv k.val) M) ∧
  (∀ l m (k : Fin 4), Does l (.swcntRead l m k) fun L M => M.cmdq.busData = BitVec.ofNat 32 (L.drv k.val).swcnt ∧
    M.get F.DRV_SWCNT_HI_CNT_HI k.val = (L.drv k.val).swcnt / 2 ^ 32 % 2 ^ 32 ∧ L.only [F.DRV_SWCNT_HI_CNT_HI.reg.addr k.val 0] M))

/-- Gate supplies (R252 to R254, R263): a lock-out of a high side turns the bridge's high sides off, of VGL the whole bridge, of the charge
pump every high side; released supplies, GRDY, OFF_CMD 101 us after the voted ENA and ASC fell, the charge pump after 10 ms. The motor
supply (R272 to R278): BRK_x on above OV1 where a chopper is fitted and off below it, chopper faults, ASC_H of the regenerating bridges
above OV2 with the chopper bad. -/
def Obligations.GateAndMotorSupplies : Prop :=
  (
  (∀ l (leg : Fin 12), Does l (.uvloHs l leg) fun L M => M.fbit F.GD_UVLO_HS leg.val = true ∧
    (∀ j, j < 3 → M.highOff (3 * (leg.val / 3) + j)) ∧ (L.fbit F.GD_GMODE_GRDY (leg.val / 3) = true → M.flagged Ev.GD_UVLO_HS) ∧
    (L.calm Ev.GD_UVLO_HS 0 (leg.val / 3) = true → L.only (F.GD_UVLO_HS.reg.addr 0 0 :: gateRegs ++ tokRegs .gd 0) M)) ∧
  (∀ l (b : Fin 4), Does l (.uvloLs l b) fun L M => M.fbit F.GD_UVLO_LS b.val = true ∧
    M.bridgeOff b.val ∧ (L.fbit F.GD_GMODE_GRDY b.val = true → M.flagged Ev.GD_UVLO_LS) ∧
    (L.calm Ev.GD_UVLO_LS 0 b.val = true → L.only (F.GD_UVLO_LS.reg.addr 0 0 :: gateRegs ++ tokRegs .gd 0) M)) ∧
  (∀ l, Does l (.uvloCp l) fun L M => M.get F.GD_UVLO_CP = 1 ∧ (∀ leg, leg < 12 → M.highOff leg) ∧
    (L.get F.GD_GMODE_GRDY ≠ 0 → M.shows Ev.GD_UVLO_CP) ∧ L.only (F.GD_UVLO_CP.reg.addr 0 0 :: gateRegs ++ evRegs .gd 0) M) ∧
  (∀ l (i : Fin 17), Does l (.uvloRelease l i) fun L M => (i.val < 12 → M.fbit F.GD_UVLO_HS i.val = false) ∧
    (12 ≤ i.val → i.val < 16 → M.fbit F.GD_UVLO_LS (i.val - 12) = false) ∧ (i.val = 16 → M.get F.GD_UVLO_CP = 0) ∧
    L.only ([F.GD_UVLO_HS.reg.addr 0 0, F.GD_UVLO_LS.reg.addr 0 0, F.GD_UVLO_CP.reg.addr 0 0] ++ gateRegs) M) ∧
  (∀ l (b : Fin 4), Does l (.grdy l b) fun L M => M.fbit F.GD_GMODE_GRDY b.val = true ∧ nthB M.gate.precharge b.val = false ∧ L.only gateRegs M) ∧
  (∀ l (b : Fin 4), Does l (.offCmd l b) fun L M => nthB M.gate.offCmd b.val = true ∧ M.fbit F.GD_GMODE_GRDY b.val = false ∧
    (L.fbit F.GD_GMODE_HASC b.val = false → M.bridgeOff b.val) ∧ L.only gateRegs M) ∧
  (∀ l, Does l (.chargePumpStop l) fun L M => M.gate = { L.gate with cpRun := false } ∧ L.only [] M))
  ∧
  (
  (∀ l, Does l (.ov1 l) fun L M => M.get F.PROT_VM_OVR1 = 1 ∧ (L.is F.PROT_BRK_EN = true → M.get F.PROT_VM_BRK_ON = 1) ∧
    M.shows Ev.PROT_OV1 ∧ L.only (F.PROT_VM_OVR1.reg.addr 0 0 :: evRegs .prot 0) M) ∧
  (∀ l, Does l (.vmBelowOv1 l) fun L M => M.get F.PROT_VM_OVR1 = 0 ∧ M.get F.PROT_VM_OVR2 = 0 ∧ L.only [F.PROT_VM_OVR1.reg.addr 0 0] M) ∧
  (∀ l, Does l (.brkOff l) fun L M => M.get F.PROT_VM_BRK_ON = 0 ∧
    L.only [F.PROT_VM_BRK_ON.reg.addr 0 0, F.PROT_BRKCNT_ONMS.reg.addr 0 0] M) ∧
  (∀ l, Does l (.chopFault l) fun L M => L.sets F.PROT_VM_CHOP_FAULT 1 M ∧ M.shows Ev.PROT_CHOP_FAULT ∧
    L.only (F.PROT_VM_CHOP_FAULT.reg.addr 0 0 :: evRegs .prot 0) M) ∧
  (∀ l, Does l (.chopStuck l) fun L M => L.sets F.PROT_VM_CHOP_STUCK 1 M ∧ M.shows Ev.PROT_CHOP_STUCK ∧
    L.only (F.PROT_VM_CHOP_STUCK.reg.addr 0 0 :: evRegs .prot 0) M) ∧
  (∀ l, Does l (.ov2 l) fun L M => L.sets F.PROT_VM_OVR2 1 M ∧ (L.chopBad = false → M.shows Ev.PROT_OV2) ∧
    (L.chopBad = true → L.only [F.PROT_VM_OVR2.reg.addr 0 0] M) ∧ L.only (F.PROT_VM_OVR2.reg.addr 0 0 :: evRegs .prot 0) M) ∧
  (∀ l, Does l (.hwAsc l) fun L M => M.get F.PROT_VM_OVR2 = 1 ∧ M.gate.hwAsc = true ∧
    M.get F.GD_GMODE_HASC = L.get F.GD_GMODE_HASC ||| L.get F.PROT_REG_REGEN ∧ (L.get F.PROT_REG_REGEN ≠ 0 → M.shows Ev.PROT_HW_ASC) ∧
    (L.gate.odRun = none → L.only (F.PROT_VM_OVR2.reg.addr 0 0 :: gateRegs ++ evRegs .prot 0) M)) ∧
  (∀ l (b : Fin 4) regen, Does l (.regenerationChange l b regen) fun L M => M.fbit F.PROT_REG_REGEN b.val = regen ∧
    (regen = true → L.gate.hwAsc = true → L.is F.PROT_VM_OVR2 = true → L.chopBad = true → M.fbit F.GD_GMODE_HASC b.val = true) ∧
    (regen = false ∨ L.gate.hwAsc = false ∨ L.is F.PROT_VM_OVR2 = false ∨ L.chopBad = false → L.only [F.PROT_REG_REGEN.reg.addr 0 0] M)) ∧
  (∀ l, Does l (.hwAscEnd l) fun L M => M.get F.GD_GMODE_HASC = 0 ∧ M.gate.hwAsc = false ∧ L.only gateRegs M))

/-- Dead time and its fuses, the interlock latch (R257, R259, R261): no switch is on that its leg's state does not command, and a commanded
one turns on once its complement has been off for the dead time; a keyed fuse write starts or is DT_LOCKED, the read-back decides; an
interlock latch is released only with voted ENA and ASC 0 and no event in 1 ms. Short circuits (R268 to R271): a trip turns both switches
of its leg off, a second leg within 1 us latches the bridge, a lone one enters the hold after 1 us, which ends HOLD × 10 us later; a latch
is released with voted ENA and ASC 0 after a passed diagnostic. Lane stops (R264, R277, R278, R284): above OV3, below VM_UV and with STO_x
low every gate of the lane is off, and so after a lost LEG clock or a bad link clock (R23, R28); the causes clear again as R264 says. -/
def Obligations.GateLatchesAndLaneStops : Prop :=
  (
  (∀ l, Does l (.deadTime l) fun L M => L.only gateRegs M ∧ ∀ leg, leg < 12 → (L.wants leg ≠ 1 → M.lowOff leg) ∧ (L.wants leg ≠ 2 → M.highOff leg) ∧
    (L.gate.on.length = 24 → L.wants leg = 2 → nthB L.gate.on (2 * leg) = false →
      nthN L.gate.offAt (2 * leg) + L.deadTime (leg / 3) ≤ L.now → nthB M.gate.on (2 * leg + 1) = true) ∧
    (L.gate.on.length = 24 → L.wants leg = 1 → nthB L.gate.on (2 * leg + 1) = false →
      nthN L.gate.offAt (2 * leg + 1) + L.deadTime (leg / 3) ≤ L.now → nthB M.gate.on (2 * leg) = true)) ∧
  (∀ l m (val : Word) vbat, DoesWhen l (.dtFuse l m val vbat) (fun L => m = .trioM ∧ L.get F.SYS_LC_STATE = 1 ∧
      L.fbit F.GD_VCMD_ENA (bits val.toNat 16 2) = false ∧ L.fbit F.GD_VCMD_ASC (bits val.toNat 16 2) = false ∧ 8000 ≤ vbat ∧
      L.fbit F.GD_DT_FUSED (bits val.toNat 16 2) = false ∧ bit L.gate.dtFailed.toNat (bits val.toNat 16 2) = false ∧ L.gate.dtFuse = none)
    fun L M => M.gate = { L.gate with dtFuse := some (bits val.toNat 16 2, bits val.toNat 18 2), dtAt := L.now } ∧ L.only [] M) ∧
  (∀ l m (val : Word) vbat, DoesWhen l (.dtFuse l m val vbat) (fun L => m ≠ .trioM ∨ L.get F.SYS_LC_STATE ≠ 1 ∨
      L.fbit F.GD_VCMD_ENA (bits val.toNat 16 2) = true ∨ L.fbit F.GD_VCMD_ASC (bits val.toNat 16 2) = true ∨ vbat < 8000 ∨
      L.fbit F.GD_DT_FUSED (bits val.toNat 16 2) = true ∨ bit L.gate.dtFailed.toNat (bits val.toNat 16 2) = true ∨ L.gate.dtFuse ≠ none)
    fun L M => M.shows Ev.GD_DT_LOCKED ∧ M.gate = L.gate ∧ L.only (evRegs .gd 0) M) ∧
  (∀ l rb, Does l (.dtFuseDone l rb) fun L M => ∀ b code, L.gate.dtFuse = some (b, code) → M.gate.dtFuse = none ∧
    (rb.toNat = code → M.get (F.GD_DT_DT_0.nth 2 b) = code ∧ M.fbit F.GD_DT_FUSED b = true ∧ M.shows Ev.GD_DT_FUSED) ∧
    (rb.toNat ≠ code → bit M.gate.dtFailed.toNat b = true ∧ M.shows Ev.GD_DT_FUSE_ERR ∧ L.only (evRegs .gd 0) M)) ∧
  (∀ l (mask : BitVec 4), Does l (.ilkRelease l mask) fun L M => L.only (R.GD_ILK.addr 0 0 :: gateRegs) M ∧ ∀ b, b < 4 →
    M.fbit F.GD_STO_ILK b = (L.fbit F.GD_STO_ILK b && !(bit mask.toNat b && !L.fbit F.GD_VCMD_ENA b && !L.fbit F.GD_VCMD_ASC b &&
      (L.ilkRecent b).isEmpty))))
  ∧
  (
  (∀ l (sw : Fin 24) ds, Does l (.scDetect l sw ds) fun L M => M.fbit F.PROT_SCSTAT_TRIP sw.val = true ∧
    (L.gate.scFirst.getD (sw.val / 6) none = none → M.lowOff (sw.val / 2) ∧ M.highOff (sw.val / 2) ∧
      M.gate.scFirst.getD (sw.val / 6) none = some (sw.val / 2, L.now) ∧ L.only (F.PROT_SCSTAT_TRIP.reg.addr 0 0 :: gateRegs) M) ∧
    (∀ leg0 t0, L.gate.scFirst.getD (sw.val / 6) none = some (leg0, t0) → leg0 ≠ sw.val / 2 → L.now ≤ t0 + us 1 →
      M.fbit F.PROT_LATCH_LATCH (sw.val / 6) = true ∧ M.gate.scFirst.getD (sw.val / 6) none = none ∧ M.shows Ev.PROT_SC_MULTI)) ∧
  (∀ l (b : Fin 4), Does l (.scTrip l b) fun L M => M.gate.holdEnd.getD b.val none = some (L.now + us (10 * max 1 (L.get F.PROT_SCCFG_HOLD))) ∧
    M.gate.scFirst.getD b.val none = none ∧ M.flagged Ev.PROT_SC_TRIP ∧
    (L.calm Ev.PROT_SC_TRIP 0 b.val = true → L.only (gateRegs ++ tokRegs .prot 0) M)) ∧
  (∀ l (b : Fin 4), Does l (.scHoldEnd l b) fun L M => M.gate.holdEnd.getD b.val none = none ∧
    (∀ j, j < 3 → nthB M.gate.scOff (3 * b.val + j) = false) ∧ L.only gateRegs M) ∧
  (∀ l (mask : BitVec 4), Does l (.latchRelease l mask) fun L M => ∀ b, b < 4 →
    M.fbit F.PROT_LATCH_LATCH b = (L.fbit F.PROT_LATCH_LATCH b && !(bit mask.toNat b && !L.fbit F.GD_VCMD_ENA b &&
      !L.fbit F.GD_VCMD_ASC b && bit L.gate.odPass.toNat b))))
  ∧
  (
  (∀ l, Does l (.ov3 l) fun L M => M.get F.PROT_VM_OVR3 = 1 ∧ M.get F.GD_LSTOP_OV3 = 1 ∧ M.gatesOff ∧ M.shows Ev.PROT_OV3 ∧
    L.only (F.PROT_VM_OVR3.reg.addr 0 0 :: gateRegs ++ evRegs .prot 0 ++ evRegs .gd 0) M) ∧
  (∀ l, Does l (.vmUv l) fun L M => M.get F.PROT_VM_VMUV = 1 ∧ M.get F.GD_LSTOP_VMUV = 1 ∧ M.gatesOff ∧ M.shows Ev.PROT_VM_UV ∧
    L.only (F.PROT_VM_VMUV.reg.addr 0 0 :: gateRegs ++ evRegs .prot 0 ++ evRegs .gd 0) M) ∧
  (∀ l, Does l (.stoPin l) fun L M => M.get F.GD_STO_PIN = 0 ∧ M.get F.GD_LSTOP_STOPIN = 1 ∧ M.gatesOff ∧ M.shows Ev.GD_STO_PIN ∧
    M.get F.GD_STO_ACT = 0xF ∧ L.only (gateRegs ++ evRegs .gd 0) M) ∧
  (∀ l, Does l (.legTimeout l) fun _ M => M.gatesOff) ∧
  (∀ l, Does l (.clkmon l) fun L M => L.is F.GD_LSTOP_CLKMON = false → M.gatesOff) ∧
  (∀ l, Does l (.ov3Clear l) fun L M => M.get F.PROT_VM_OVR3 = 0 ∧ M.get F.PROT_VM_OVR2 = 0 ∧ M.get F.GD_LSTOP_OV3 = 0 ∧
    L.only (F.PROT_VM_OVR3.reg.addr 0 0 :: gateRegs) M) ∧
  (∀ l, Does l (.vmuvClear l) fun L M => M.get F.PROT_VM_VMUV = 0 ∧ M.get F.GD_LSTOP_VMUV = 0 ∧
    L.only (F.PROT_VM_VMUV.reg.addr 0 0 :: gateRegs) M) ∧
  (∀ l, Does l (.stoRelease l) fun L M => M.get F.GD_STO_PIN = 1 ∧ M.get F.GD_LSTOP_STOPIN = 0 ∧ L.only gateRegs M))

/-- Power-stage tests and the pins (R279 to R286): the steps of an off-state diagnostic and its verdict, the chopper test, the switch-off path
tests with their overdue mark, ALIVE_x and its kicks. -/
def Obligations.StageTestsAndAlive : Prop :=
  (∀ l (bs : BitVec 4) vm, DoesWhen l (.odiagStart l bs vm) (fun L => L.is F.PROT_ODIAG_BUSY = true) fun L M => M = L) ∧
  (∀ l (bs : BitVec 4) vm b rest, DoesWhen l (.odiagStart l bs vm) (fun L => L.is F.PROT_ODIAG_BUSY = false ∧
    bridgesOf bs.toNat = b :: rest ∧ L.odNotRun b vm = false) fun L M => M.gate.odRun = some (b, 0, 0) ∧ M.gate.odQueue = rest ∧
      M.gate.odAt = L.now ∧ M.get F.PROT_ODIAG_BUSY = 1 ∧ L.only [R.PROT_ODIAG.addr 0 0] M) ∧
  (∀ l (bs : BitVec 4) vm b, DoesWhen l (.odiagStart l bs vm) (fun L => L.is F.PROT_ODIAG_BUSY = false ∧ bridgesOf bs.toNat = [b] ∧
    L.odNotRun b vm = true) fun L M => M.get (F.PROT_ODIAG_RES_0.nth 4 b) = 8 ∧ M.get F.PROT_ODIAG_BUSY = 0 ∧
      L.only [R.PROT_ODIAG.addr 0 0] M) ∧
  (∀ l found vm, Does l (.odiagStepEnd l found vm) fun L M => ∀ b step acc, L.gate.odRun = some (b, step, acc) →
    (step = 0 → found = false →
      M.gate = { L.gate with odRun := some (b, 1, acc), odVm := vm, odAt := L.now } ∧ L.only [] M) ∧
    (step = 0 → found = true → b < 4 → L.gate.odQueue = [] → L.gate.odChop = false → M.get (F.PROT_ODIAG_RES_0.nth 4 b) = 8 ∧
      M.get F.PROT_ODIAG_BUSY = 0 ∧ M.gate.odRun = none ∧ L.only [R.PROT_ODIAG.addr 0 0] M) ∧
    (0 < step → step < 4 → M.gate = { L.gate with
      odRun := some (b, step + 1, if found then acc ||| 2 ^ (step - 1) else acc), odVm := vm, odAt := L.now } ∧ L.only [] M) ∧
    (step = 4 → b < 4 → acc < 16 → L.gate.odQueue = [] → L.gate.odChop = false → M.get (F.PROT_ODIAG_RES_0.nth 4 b) = acc ∧
      M.get F.PROT_ODIAG_BUSY = 0 ∧ M.gate.odRun = none ∧ (acc % 8 ≠ 0 → M.fbit F.PROT_LATCH_LATCH b = true ∧ M.shows Ev.PROT_ODIAG_FAIL) ∧
      (acc = 0 → bit M.gate.odPass.toNat b = true))) ∧
  (∀ l vm, DoesWhen l (.chopTest l vm) (fun L => L.is F.PROT_ODIAG_BUSY = false ∧ 12000 ≤ vm ∧ L.is F.PROT_BRK_EN = true) fun L M =>
    M.gate.chopRun = true ∧ M.get F.PROT_VM_BRK_ON = 1 ∧ M.get F.PROT_ODIAG_BUSY = 1 ∧
    L.only [R.PROT_ODIAG.addr 0 0, F.PROT_VM_BRK_ON.reg.addr 0 0] M) ∧
  (∀ l vm, DoesWhen l (.chopTest l vm) (fun L => L.is F.PROT_ODIAG_BUSY = false ∧ (vm < 12000 ∨ L.is F.PROT_BRK_EN = false)) fun L M =>
    M.get F.PROT_ODIAG_CHOPRES = 0 ∧ M.get F.PROT_ODIAG_BUSY = 0 ∧ L.only [R.PROT_ODIAG.addr 0 0] M) ∧
  (∀ l pass, Does l (.chopTestEnd l pass) fun _ M => M.gate.chopRun = false ∧ M.get F.PROT_ODIAG_BUSY = 0 ∧
    (pass = true → M.get F.PROT_ODIAG_CHOPRES = 1 ∧ M.get F.PROT_VM_CHOP_FAULT = 0 ∧ M.get F.PROT_VM_CHOP_STUCK = 0 ∧ M.shows Ev.PROT_CHOP_PASS) ∧
    (pass = false → M.get F.PROT_ODIAG_CHOPRES = 2 ∧ M.get F.PROT_VM_CHOP_FAULT = 1 ∧ M.shows Ev.PROT_CHOP_FAULT)) ∧
  (∀ l (sw : Fin 25), Does l (.sopTest l sw) fun L M => M.gate = { L.gate with sopRun := some sw.val, sopAt := L.now } ∧ L.only [] M) ∧
  (∀ l pass, Does l (.sopTestEnd l pass) fun L M => ∀ k, L.gate.sopRun = some k → M.gate.sopRun = none ∧
    (pass = true → nthB M.gate.sopPassed k = true ∧ M.fbit F.GD_SOPOVD_OVD k = false ∧ L.only [F.GD_SOPOVD_OVD.reg.addr 0 0] M) ∧
    (pass = false → M.fbit F.GD_SOPFAIL_FAIL k = true ∧ M.shows Ev.GD_SOP_FAIL ∧ (k < 24 → M.fbit F.PROT_LATCH_LATCH (k / 6) = true) ∧
      (k = 24 → M.get F.PROT_VM_CHOP_FAULT = 1))) ∧
  (∀ l (sw : Fin 25), Does l (.sopTestDue l sw) fun L M => nthN M.gate.sopDueAt sw.val = L.now ∧ nthB M.gate.sopPassed sw.val = false ∧
    (nthB L.gate.sopPassed sw.val = true → L.only [] M) ∧
    (nthB L.gate.sopPassed sw.val = false → 2 ≤ ((L.gate.sopMiss.getD sw.val []).filter (fun t => decide (L.now ≤ t + ms 100))).length →
      M.fbit F.GD_SOPOVD_OVD sw.val = true)) ∧
  (∀ l, Does l (.aliveToggle l) fun L M => M.gate.aliveAt = L.now ∧
    (L.aliveOk = true → M.gate.aliveLevel = !L.gate.aliveLevel ∧ M.get F.GD_ALIVE_RUN = 1 ∧ L.only [F.GD_ALIVE_RUN.reg.addr 0 0] M) ∧
    (L.aliveOk = false → M.gate.aliveLevel = false ∧ M.get F.GD_ALIVE_RUN = 0 ∧ (L.is F.GD_ALIVE_RUN = true → M.shows Ev.GD_ALIVE_STOP))) ∧
  (∀ l (key : Half), Does l (.aliveKick l key) fun L M => M.gate.lastKey = some key ∧ L.only [F.GD_ALIVE_KICK.reg.addr 0 0] M ∧
    let valid : Prop := (key = 0x5A5A ∨ key = 0xA5A5) ∧ L.gate.lastKey ≠ some key
    (valid → M.gate.kickAt = L.now ∧ (L.is F.GD_ALIVE_KICK = false → 1 ≤ L.gate.kickRun → M.get F.GD_ALIVE_KICK = 1) ∧
      (L.is F.GD_ALIVE_KICK = false → L.gate.kickRun = 0 → M.gate.kickRun = 1 ∧ M.get F.GD_ALIVE_KICK = 0)) ∧
    (¬ valid → M.get F.GD_ALIVE_KICK = 0 ∧ M.gate.kickRun = 0 ∧
      M.get F.GD_ALIVE_MISS = min (2 ^ F.GD_ALIVE_MISS.w - 1) (L.get F.GD_ALIVE_MISS + 1))) ∧
  (∀ l, Does l (.kickLapse l) fun L M => M.get F.GD_ALIVE_KICK = 0 ∧ M.gate.kickRun = 0 ∧
    M.get F.GD_ALIVE_MISS = min (2 ^ F.GD_ALIVE_MISS.w - 1) (L.get F.GD_ALIVE_MISS + 1) ∧ L.only [F.GD_ALIVE_KICK.reg.addr 0 0] M)

/-- Sequences (R298 to R302, R313): EN is set for legal settings alone, a trigger counts toward TDIV + 1 and starts a run or is missed, the
next entry starts in a slot that fits, an interleaved one with its partner's 100 ns later, and a conversion's end writes its code with
VALID and goes on to the next entry; a read clears VALID. -/
def Obligations.ConversionSequences : Prop :=
  let en (inj : Bool) : Fld := if inj then F.CNV_ISEQ_EN else F.CNV_RSEQ_EN
  let trig (L : Lane) (n : Fin 8) (inj : Bool) : Nat := if inj then (L.cnv n.val).iTrig else (L.cnv n.val).rTrig
  let next (L : Lane) (n : Fin 8) (inj : Bool) : Option Nat := if inj then (L.cnv n.val).iNext else (L.cnv n.val).rNext
  let busy (inj : Bool) : Fld := if inj then F.CNV_STAT_IBUSY else F.CNV_STAT_RBUSY
  let miss (inj : Bool) : Event := if inj then Ev.CNV_IMISS else Ev.CNV_RMISS
  let cnt (inj : Bool) : Fld := if inj then F.CNV_MISS_IMISS else F.CNV_MISS_RMISS
  let div (L : Lane) (n : Fin 8) (inj : Bool) : Nat := L.get (if inj then F.CNV_ISEQ_TDIV else F.CNV_RSEQ_TDIV) n.val
  let legal (L : Lane) (n : Fin 8) (inj : Bool) : Prop :=
    L.seqTrig n.val inj ≤ 6 ∧ ∀ i, i < L.seqLen n.val inj → selOk (L.entrySel n.val inj i) = true
  let idle (L : Lane) (n : Fin 8) (inj : Bool) : Prop := L.cnvAway n.val = false ∧ next L n inj = none ∧ (inj && L.ilvTaken n.val) = false
  let missed (L : Lane) (n : Fin 8) (inj : Bool) : Prop :=
    L.pruned (.cnv n.val) = false ∧ (L.cnvAway n.val = true ∨ next L n inj ≠ none) ∧ (inj && L.ilvTaken n.val) = false
  let starts (n : Fin 8) (inj : Bool) (L M : Lane) : Prop :=
    next M n inj = some 0 ∧ L.sets (busy inj) 1 M n.val ∧ L.only [(busy inj).reg.addr n.val 0] M
  let misses (n : Fin 8) (inj : Bool) (L M : Lane) : Prop :=
    M.shows (miss inj) n.val ∧ M.get (cnt inj) n.val = min 255 (L.get (cnt inj) n.val + 1) ∧ next M n inj = next L n inj
  let alone (L : Lane) (n : Fin 8) : Prop := n.val % 2 = 1 ∨ L.is F.CNV_ISEQ_ILV n.val = false ∨ ∀ i, L.nextUse n.val ≠ some (.injected i)
  (∀ l (n : Fin 8) inj, Does l (.sequenceEnable l n inj false) fun L M => L.sets (en inj) 0 M n.val ∧ L.only [(en inj).reg.addr n.val 0] M) ∧
  (∀ l (n : Fin 8) inj, DoesWhen l (.sequenceEnable l n inj true) (fun L => L.is (en inj) n.val = false ∧ legal L n inj) fun L M =>
    M.get (en inj) n.val = 1 ∧ trig M n inj = 0 ∧ L.only [(en inj).reg.addr n.val 0] M) ∧
  (∀ l (n : Fin 8) inj, DoesWhen l (.sequenceEnable l n inj true) (fun L => L.is (en inj) n.val = false ∧ ¬ legal L n inj) fun _ M =>
    M.get (en inj) n.val = 0 ∧ M.shows Ev.CNV_SEQ_CFG_ERR n.val) ∧
  (∀ l (n : Fin 8) inj, DoesWhen l (.sequenceEnable l n inj true) (fun L => L.is (en inj) n.val = true) fun L M =>
    M.shows Ev.CNV_SEQ_CFG_ERR n.val ∧ L.only (evRegs .cnv n.val) M) ∧
  (∀ l (n : Fin 8) inj, DoesWhen l (.sequenceTrigger l n inj) (fun L => trig L n inj + 1 ≤ div L n inj) fun L M =>
    trig M n inj = trig L n inj + 1 ∧ next M n inj = next L n inj ∧ L.only [] M) ∧
  (∀ l (n : Fin 8) inj, DoesWhen l (.sequenceTrigger l n inj) (fun L => div L n inj < trig L n inj + 1 ∧ idle L n inj) fun L M =>
    trig M n inj = 0 ∧ starts n inj L M) ∧
  (∀ l (n : Fin 8) inj, DoesWhen l (.sequenceTrigger l n inj) (fun L => div L n inj < trig L n inj + 1 ∧ missed L n inj) fun L M =>
    trig M n inj = 0 ∧ misses n inj L M) ∧
  (∀ l (n : Fin 8), DoesWhen l (.rseqGo l n) (fun L => idle L n false) (starts n false)) ∧
  (∀ l (n : Fin 8), DoesWhen l (.rseqGo l n) (fun L => missed L n false) (misses n false)) ∧
  (∀ l (n : Fin 8), DoesWhen l (.iseqGo l n) (fun L => idle L n true) (starts n true)) ∧
  (∀ l (n : Fin 8), DoesWhen l (.iseqGo l n) (fun L => missed L n true) (misses n true)) ∧
  (∀ l (n : Fin 8), DoesWhen l (.iseqGo l n) (fun L => L.ilvTaken n.val = true) fun L M => M = L) ∧
  (∀ l (n : Fin 8) half u, DoesWhen l (.entryStart l n half) (fun L => L.nextUse n.val = some u ∧
    L.slotFits n.val (2 * L.mtN + b2n half) = true ∧ alone L n) fun L M =>
      (M.cnv n.val).conv = some { what := u, sel := L.useSel n.val u, start := 2 * L.mtN + b2n half } ∧ L.only [] M) ∧
  (∀ l (n : Fin 8) half i, DoesWhen l (.entryStart l n half) (fun L => L.nextUse n.val = some (.injected i) ∧ n.val % 2 = 0 ∧
    L.is F.CNV_ISEQ_ILV n.val = true ∧ L.slotFits n.val (2 * L.mtN + b2n half) = true ∧ L.cnvAway (n.val + 1) = false ∧
    (L.cnv (n.val + 1)).conv = none ∧ L.slotFits (n.val + 1) (2 * L.mtN + b2n half + 40) = true ∧ L.cnvs.length = 8) fun L M =>
      (M.cnv n.val).conv = some { what := .injected i, sel := L.entrySel n.val true i, start := 2 * L.mtN + b2n half } ∧
      (M.cnv (n.val + 1)).conv = some { what := .injected i, sel := L.entrySel n.val true i, start := 2 * L.mtN + b2n half + 40 } ∧
      L.only [] M) ∧
  (∀ l (n : Fin 8) half, DoesWhen l (.entryStart l n half) (fun L => L.slotFits n.val (2 * L.mtN + b2n half) = false) fun L M => M = L) ∧
  (∀ l (n : Fin 8) code i, DoesWhen l (.conversionEnd l n code)
    (fun L => (L.cnv n.val).conv.map (·.what) = some (.regular i) ∧ i < 16) fun L M => ∀ c, (L.cnv n.val).conv = some c →
      (M.cnv n.val).conv = none ∧ M.get F.CNV_RES_CODE n.val i = ofSigned 16 (limitCode c.sel code).1 ∧
      M.get F.CNV_RES_VALID n.val i = 1 ∧ M.get F.CNV_RES_OVR n.val i = L.get F.CNV_RES_VALID n.val i ∧
      (i + 1 < L.seqLen n.val false → (M.cnv n.val).rNext = some (i + 1)) ∧
      (L.seqLen n.val false ≤ i + 1 → (M.cnv n.val).rNext = none ∧ M.get F.CNV_EVT_RDONE n.val = 1 ∧ M.get F.CNV_STAT_RBUSY n.val = 0)) ∧
  (∀ l (n : Fin 8) code i, DoesWhen l (.conversionEnd l n code)
    (fun L => (L.cnv n.val).conv.map (·.what) = some (.injected i) ∧ i < 4 ∧ L.ilvTaken n.val = false) fun L M =>
      ∀ c, (L.cnv n.val).conv = some c →
      (M.cnv n.val).conv = none ∧ M.get F.CNV_IRES_CODE n.val i = ofSigned 16 (limitCode c.sel code).1 ∧
      M.get F.CNV_IRES_VALID n.val i = 1 ∧
      (i + 1 < L.seqLen n.val true → (M.cnv n.val).iNext = some (i + 1)) ∧
      (L.seqLen n.val true ≤ i + 1 → (M.cnv n.val).iNext = none ∧ M.get F.CNV_EVT_IDONE n.val = 1 ∧ M.get F.CNV_STAT_IBUSY n.val = 0)) ∧
  (∀ l (n : Fin 8) code i, DoesWhen l (.conversionEnd l n code) (fun L => (L.cnv n.val).conv.map (·.what) = some (.check i)) fun L M =>
    ∀ c, (L.cnv n.val).conv = some c → (M.cnv n.val).conv = none ∧
      (M.cnv n.val).checks = (L.cnv n.val).checks ++ [(limitCode c.sel code).1] ∧ L.only [] M) ∧
  (∀ l m (n : Fin 8) inj (i : Fin 16), Does l (.resRead l m n inj i) fun L M =>
    let f : Fld := if inj then F.CNV_IRES_VALID else F.CNV_RES_VALID
    M.cmdq.busData = L.rd (f.reg.addr n.val i.val) ∧ L.sets f 0 M n.val i.val ∧ L.only [f.reg.addr n.val i.val] M)

/-- Calibration and the cross-check (R303, R304, R308 to R315): a self-calibration starts, is refused while the partner's runs, stores its
trims on a pass and prunes on a failure; ICV results, the verdict over compared channels, suspects judged, reference checks queued,
started and judged. A reference check with no code to judge is no deviation (log 54). -/
def Obligations.CalibrationAndCrossCheck : Prop :=
  (∀ l (n : Fin 8), DoesWhen l (.calGo l n) (fun L => (L.cnv n.val).calAt ≠ none) fun L M => M = L) ∧
  (∀ l (n : Fin 8), DoesWhen l (.calGo l n) (fun L => (L.cnv n.val).calAt = none ∧ ((L.cnv (partner n.val)).calAt ≠ none ∨
    (L.drvIdle (n.val / 2) = false ∧ L.drvPeriod (n.val / 2) < 120))) fun L M => M.get F.CNV_CAL_STAT_RESULT n.val = 3 ∧
      M.shows Ev.CNV_CAL_REFUSED n.val ∧ (M.cnv n.val).calAt = none ∧ L.only (R.CNV_CAL_STAT.addr n.val 0 :: evRegs .cnv n.val) M) ∧
  (∀ l (n : Fin 8), DoesWhen l (.calGo l n) (fun L => (L.cnv n.val).calAt = none ∧ (L.cnv (partner n.val)).calAt = none ∧
    (L.drvIdle (n.val / 2) = true ∨ 120 ≤ L.drvPeriod (n.val / 2)) ∧ (L.cnv n.val).conv = none) fun L M =>
      (M.cnv n.val).calAt = some L.now ∧ (M.cnv n.val).rNext = none ∧ (M.cnv n.val).iNext = none ∧ M.get F.CNV_STAT_CAL n.val = 1 ∧
      M.get F.CNV_CAL_STAT_BUSY n.val = 1 ∧ L.only [F.CNV_STAT_CAL.reg.addr n.val 0, R.CNV_CAL_STAT.addr n.val 0] M) ∧
  (∀ l (n : Fin 8) m, Does l (.calDone l n m) fun _ M => (M.cnv n.val).calAt = none ∧ M.get F.CNV_STAT_CAL n.val = 0 ∧
    M.get F.CNV_CAL_STAT_BUSY n.val = 0 ∧
    (calPass m = true → M.get F.CNV_CAL_OG_OFS n.val = ofSigned 12 m.ofs ∧ M.get F.CNV_CAL_OG_GAIN n.val = ofSigned 12 m.gain ∧
      M.get F.CNV_CAL_STAT_RESULT n.val = 1 ∧ M.get F.CNV_EVT_CALDONE n.val = 1 ∧ M.shows Ev.CNV_CAL_DONE n.val) ∧
    (calPass m = false → M.get F.CNV_CAL_STAT_RESULT n.val = 2 ∧ M.pruned (.cnv n.val) = true ∧ M.shows Ev.CNV_CAL_FAIL n.val)) ∧
  (∀ l counts ovl, Does l (.icvWindowEnd l counts ovl) fun L M => ∀ len te, L.icv.due = some (len, te) → M.icv.due = none ∧
    M.icv.results = true ∧ M.icv.len = len ∧ M.get F.ICV_WSTAT_WDONE = 1 ∧ M.get F.ICV_WEND_TIME = te % 2 ^ 32 ∧
    ∀ n, n < 8 → L.fbit F.ICV_CHEN_EN n = true → bit L.icv.wheld n = false →
      M.get F.ICV_RES_N 0 n = ofSigned 24 (clampI (-(len : Int)) len (counts.getD n 0))) ∧
  (∀ l, Does l (.crossCheck l) fun L M => M.icv.results = false ∧ ((∀ n, n < 8 → L.compared n = false) → L.only [] M) ∧
    ∀ n, n < 8 → L.compared n = true →
      let ok := L.devOk (deviation (L.cnv n).wsum (L.cnv n).wcnt (L.getS F.ICV_RES_N 0 n) L.icv.len)
      M.fbit F.CNV_SQ_XSTAT_PASS n = ok ∧ M.fbit F.CNV_SQ_XSTAT_FAIL n = !ok) ∧
  (∀ l (n : Fin 8), Does l (.suspectFallback l n) fun L M => (M.cnv n.val).fallback = true ∧ L.only [] M) ∧
  (∀ l (n : Fin 8), Does l (.suspectCheckDone l n) fun L M =>
    let sar := checksWithin 8 ((L.cnv n.val).checks.getD 0 0) ((L.cnv n.val).checks.getD 1 0) ((L.cnv n.val).checks.getD 2 0)
    (M.cnv n.val).suspectAt = none ∧ M.get F.CNV_STAT_SUSPECT n.val = 0 ∧
    (sar = true → L.icv.refOk = true → M.pruned (.drv (n.val / 2)) = true ∧ M.shows Ev.CNV_XCHK_PATH n.val) ∧
    (sar = false → L.icv.refOk = true → M.pruned (.cnv n.val) = true ∧ M.shows Ev.CNV_SAR_REF_FAIL n.val) ∧
    (L.icv.refOk = false → M.pruned .icv = true)) ∧
  (∀ l, Does l (.refchkGo l) fun L M => M.get F.CNV_SQ_REFCHK_BUSY = 1 ∧ L.only [R.CNV_SQ_REFCHK.addr 0 0] M ∧
    M.icv.queue = L.icv.queue ++ [{ mask := L.get F.CNV_SQ_REFCHK_MASK, win := max 100 (min 20000 (L.get F.CNV_SQ_REFCHK_WIN)), by_ := .write, askedAt := L.mtN }]) ∧
  (∀ l, Does l (.refcheckStart l) fun L M => L.only [R.ICV_WSTAT.addr 0 0] M ∧ ∀ r rest, L.icv.queue = r :: rest → M.icv.queue = rest ∧
    ∃ run, M.icv.run = some run ∧ run.req = r ∧ run.stim = L.stimMask r.mask ∧ run.startAt = L.mtN ∧ L.mtN + 200 * r.win ≤ run.endAt) ∧
  (∀ l meas, Does l (.refcheckEnd l meas) fun L M => ∀ r, L.icv.run = some r → M.icv.run = none ∧
    ∀ n, n < 8 → bit (M.reg R.CNV_SQ_REFRES) n = (bit r.req.mask n && !bit r.notRun n &&
      ((L.cnv n).refDevs (bit r.stim n) r.len (meas.getD n { n1 := 0, n2 := 0, ovl := false })).all L.devOk))

/-- Decoders (R322, R323, R326, R338, R342): a quadrature or Hall step counts by one in the direction of the lines, an illegal event is
counted and the fourth within 1 ms faults the channel, the Hedge's own decoder counts apart, an index sets the zero or corrects the count,
and a channel is enabled with a legal configuration alone. Probes, reads, compare units and speed (R320, R333, R335 to R337). -/
def Obligations.PositionAndProbes : Prop :=
  (
  (∀ l (n : Fin 4) a b, Does l (.quadEdge l false n a b) fun L M =>
    let k := quadKind (L.enc n.val) (b2n a + 2 * b2n b)
    (M.enc n.val).lines = b2n a + 2 * b2n b ∧
    (∀ up, k = .step up → M.get F.POS_ENC_CNT_CNT 0 n.val =
      ofSigned 32 (L.getS F.POS_ENC_CNT_CNT 0 n.val + if up = L.is F.POS_ENC_CFG_DIR 0 n.val then -1 else 1)) ∧
    (k = .first ∨ k = .same → L.only [] M) ∧
    (k = .illegal → ((L.enc n.val).illAt.filter (fun t => decide (L.now ≤ t + ms 1))).length < 3 → M.shows Ev.POS_ILLEGAL ∧
      M.get F.POS_ENC_ERR_ILLEGAL 0 n.val = min (2 ^ F.POS_ENC_ERR_ILLEGAL.w - 1) (L.get F.POS_ENC_ERR_ILLEGAL 0 n.val + 1) ∧
      (M.quant n.val).uDec = true ∧ L.only (F.POS_ENC_ERR_ILLEGAL.reg.addr 0 n.val :: evRegs .pos 0) M) ∧
    (k = .illegal → 3 ≤ ((L.enc n.val).illAt.filter (fun t => decide (L.now ≤ t + ms 1))).length → M.pruned (.pos n.val) = true)) ∧
  (∀ l (n : Fin 4) a b, Does l (.quadEdge l true n a b) fun L M => L.only [R.HSF_DEC_STAT.addr 0 0] M ∧
    ∀ up, quadKind (L.pos.henc.getD n.val {}) (b2n a + 2 * b2n b) = .step up → M.pos.hcnt.getD n.val 0 = L.pos.hcnt.getD n.val 0 +
      (if up = L.is (if n.val = 0 then F.HSF_DEC_CFG_E0DIR else F.HSF_DEC_CFG_E1DIR) then -1 else 1)) ∧
  (∀ l (n : Fin 4) h, Does l (.hallStep l false n h) fun L M =>
    let k := hallKind (L.enc n.val) (L.is F.POS_ENC_CFG_DIR 0 n.val) h.toNat
    (∀ up, k = .step up → M.get F.POS_ENC_CNT_CNT 0 n.val = ofSigned 32 (L.getS F.POS_ENC_CNT_CNT 0 n.val + if up then 1 else -1)) ∧
    (∀ s, k = .first → sigma (L.is F.POS_ENC_CFG_DIR 0 n.val) h.toNat = some s → M.get F.POS_ENC_CNT_CNT 0 n.val = s ∧
      M.get F.POS_ENC_ZREF_ZREF 0 n.val = 0 ∧ (M.quant n.val).avalid = true) ∧
    (k = .illegal → ((L.enc n.val).illAt.filter (fun t => decide (L.now ≤ t + ms 1))).length < 3 → M.shows Ev.POS_ILLEGAL ∧
      M.get F.POS_ENC_ERR_ILLEGAL 0 n.val = min (2 ^ F.POS_ENC_ERR_ILLEGAL.w - 1) (L.get F.POS_ENC_ERR_ILLEGAL 0 n.val + 1))) ∧
  (∀ l (n : Fin 4) h, Does l (.hallStep l true n h) fun L M => L.only [R.HSF_DEC_STAT.addr 0 0] M ∧
    ∀ up, hallKind (L.pos.henc.getD n.val {}) (L.is (if n.val = 0 then F.HSF_DEC_CFG_E0DIR else F.HSF_DEC_CFG_E1DIR)) h.toNat = .step up →
      M.pos.hcnt.getD n.val 0 = L.pos.hcnt.getD n.val 0 + if up then 1 else -1) ∧
  (∀ l (n : Fin 4) rising, Does l (.indexEvent l n rising) fun L M =>
    ((L.quant n.val).avalid = false → M.get F.POS_ENC_ZREF_ZREF 0 n.val = L.get F.POS_ENC_CNT_CNT 0 n.val ∧ (M.quant n.val).avalid = true ∧
      M.get F.POS_ENC_CNT_CNT 0 n.val = L.get F.POS_ENC_CNT_CNT 0 n.val) ∧
    ((L.quant n.val).avalid = true →
      let z := L.getS F.POS_ENC_ZREF_ZREF 0 n.val
      let cpt := max 1 (L.get F.POS_ENC_CPT_CPT 0 n.val)
      let goal := z + roundTowardZero (L.getS F.POS_ENC_CNT_CNT 0 n.val - z) cpt * cpt
      let d := L.getS F.POS_ENC_CNT_CNT 0 n.val - goal
      (d.natAbs ≤ max 1 (L.get F.POS_ENC_CPT_ITOL 0 n.val) → d ≠ 0 → M.get F.POS_ENC_CNT_CNT 0 n.val = ofSigned 32 goal ∧
        M.shows Ev.POS_IDX_CORR ∧ (M.enc n.val).idxFails = 0) ∧
      (max 1 (L.get F.POS_ENC_CPT_ITOL 0 n.val) < d.natAbs → L.calm Ev.POS_IDX_ERR 0 n.val = true → (L.enc n.val).idxFails < 2 →
        M.get F.POS_ENC_CNT_CNT 0 n.val = L.get F.POS_ENC_CNT_CNT 0 n.val ∧ M.flagged Ev.POS_IDX_ERR ∧
        (M.enc n.val).idxFails = (L.enc n.val).idxFails + 1))) ∧
  (∀ l (c : Fin 10), Does l (.posChannelEnable l c false) fun _ M => M.chanOn c.val = false ∧
    ∀ q, q ∈ quantsOf c.val → (M.quant q).valid = false) ∧
  (∀ l (c : Fin 10), Does l (.posChannelEnable l c true) fun L M => (L.chanOn c.val = true → M = L) ∧
    (L.chanOn c.val = false → L.chanConfigOk c.val = true → M.chanOn c.val = true ∧
      (c.val < 4 → (M.quant c.val).valid = !(L.quant c.val).fault)) ∧
    (L.chanOn c.val = false → L.chanConfigOk c.val = false → M.chanOn c.val = false ∧ M.shows Ev.POS_CFG_ERR)))
  ∧
  (
  (∀ l (p : Fin 2) rising, Does l (.probeEdge l p rising) fun L M =>
    let q := L.get F.POS_PRB_CFG_QSEL 0 p.val
    M.get F.POS_PRB_VAL_VAL 0 p.val = ofSigned 32 (L.quant (if q ≤ 9 then q else 0)).val ∧ M.get F.POS_PRB_CFG_VALID 0 p.val = 1 ∧
    (L.is F.POS_PRB_CFG_VALID 0 p.val = true → M.get F.POS_PRB_CFG_OVR 0 p.val = 1 ∧ M.shows Ev.POS_PRB_OVR) ∧
    (L.is F.POS_PRB_CFG_VALID 0 p.val = false → L.only [R.POS_PRB_VAL.addr 0 p.val, R.POS_PRB_CFG.addr 0 p.val] M)) ∧
  (∀ l m (p : Fin 2), Does l (.prbValRead l m p) fun L M => M.cmdq.busData = L.rd (R.POS_PRB_VAL.addr 0 p.val) ∧
    M.rd (R.POS_PRB_T.addr 0 p.val) = L.pos.prbT.getD p.val 0 ∧ L.only [R.POS_PRB_T.addr 0 p.val] M) ∧
  (∀ l m (p : Fin 2), Does l (.prbTRead l m p) fun L M => M.cmdq.busData = L.rd (R.POS_PRB_T.addr 0 p.val) ∧
    M.get F.POS_PRB_CFG_VALID 0 p.val = 0 ∧ M.get F.POS_PRB_CFG_OVR 0 p.val = 0 ∧ L.only [R.POS_PRB_CFG.addr 0 p.val] M) ∧
  (∀ l m (q : Fin 14), Does l (.qValRead l m q) fun L M => M.cmdq.busData = L.rd (R.POS_Q_VAL.addr 0 q.val) ∧
    M.get F.POS_Q_ANG_ANG 0 q.val = (L.quant q.val).ang % 2 ^ 32 ∧ M.rd (R.POS_Q_T.addr 0 q.val) = L.quantT q.val ∧
    M.rd (R.POS_Q_STAT.addr 0 q.val) = BitVec.ofNat 32 (L.quant q.val).stat ∧
    L.only ([R.POS_Q_ANG, R.POS_Q_T, R.POS_Q_SPD, R.POS_Q_STAT, R.POS_Q_ST].map (fun r => r.addr 0 q.val)) M) ∧
  (∀ l (q : Fin 10) (u : Fin 2) val, Does l (.cmpTgtWrite l q u false val) fun L M =>
    M.get (cmpFld F.POS_CMP_TGT_TGT u.val) 0 q.val = val.toNat ∧
    (L.is (cmpFld F.POS_CMP_CTL_ARM u.val) 0 q.val = false → L.only [(cmpFld F.POS_CMP_TGT_TGT u.val).reg.addr 0 q.val] M) ∧
    (L.is (cmpFld F.POS_CMP_CTL_ARM u.val) 0 q.val = true → val.toInt = (L.quant q.val).val →
      M.get (cmpFld F.POS_CMP_CTL_HIT u.val) 0 q.val = 1)) ∧
  (∀ l (q : Fin 10) (u : Fin 2) val, bit val.toNat 0 = false → Does l (.cmpTgtWrite l q u true val) fun L M =>
    L.only [(cmpFld F.POS_CMP_CTL_HIT u.val).reg.addr 0 q.val] M ∧ M.get (cmpFld F.POS_CMP_CTL_BEHIND u.val) 0 q.val = 0) ∧
  (∀ l (q : Fin 10) (u : Fin 2) (val : Word), DoesWhen l (.cmpTgtWrite l q u true val) (fun L => bit val.toNat 0 = true ∧
    L.is (cmpFld F.POS_CMP_CTL_ARM u.val) 0 q.val = false ∧ L.getS (cmpFld F.POS_CMP_TGT_TGT u.val) 0 q.val = (L.quant q.val).val)
    fun _ M => M.get (cmpFld F.POS_CMP_CTL_HIT u.val) 0 q.val = 1) ∧
  (∀ l, Does l (.speedUpdate l) fun L M => L.only [] M ∧
    (∀ c, c < 10 → L.chanRuns c = true → (M.quant c).sUpd = true ∧ (M.quant c).st = L.mtLo) ∧
    ∀ c, c < 10 → L.chanRuns c = false → M.quant c = L.quant c) ∧
  (∀ l (n : Fin 4), Does l (.speedZero l n) fun L M => (M.quant n.val).spd = 0 ∧ (M.quant n.val).val = (L.quant n.val).val ∧ L.only [] M))

/-- Resolvers and SENT receivers (R327 to R332, R338): a trigger at the excitation peak, its pair accepted, discarded or rejected by its
amplitude, loss of signal, the tracked angle each us; a frame's data taken or its error counted, a time-out, a trigger pulse. A pair that
never comes, and the time-out, are read as logs 51 and 52 say. -/
def Obligations.ResolversAndSent : Prop :=
  (∀ l (r : Fin 2), Does l (.rpeak l r) fun L M => (M.resl r.val).trigAt = some L.mtN ∧
    ((L.resl r.val).trigAt ≠ none → M.get F.POS_RES_ERR_SKIP 0 r.val =
      min (2 ^ F.POS_RES_ERR_SKIP.w - 1) (L.get F.POS_RES_ERR_SKIP 0 r.val + 1) ∧ (M.resl r.val).bad = (L.resl r.val).bad + 1)) ∧
  (∀ l (r : Fin 2), Does l (.resSamplePair l r) fun L M =>
    let k := L.get F.POS_RES_CFG_PAIR 0 r.val
    let j := L.get F.POS_RES_CFG_ENT 0 r.val
    let ta := L.reg R.CNV_ITS (2 * k) j
    let sg : Int := if (L.resl r.val).neg then -1 else 1
    let sn := sg * L.getS F.CNV_IRES_CODE (2 * k) j
    let cs := sg * L.getS F.CNV_IRES_CODE (2 * k + 1) j
    let a2 := (sn * sn + cs * cs).toNat
    let lo := L.get F.POS_RES_AMP_AMIN 0 r.val
    let hi := L.get F.POS_RES_AMP_AMAX 0 r.val
    (M.resl r.val).trigAt = none ∧
    (ta ≠ L.reg R.CNV_ITS (2 * k + 1) j → (M.resl r.val).bad = (L.resl r.val).bad + 1 ∧ L.only [R.POS_RES_ERR.addr 0 r.val] M) ∧
    (ta = L.reg R.CNV_ITS (2 * k + 1) j → afterTrig ta ((L.resl r.val).trigAt.getD 0) ≤ 200 →
      (a2 < lo * lo ∨ hi * hi < a2 → M.shows Ev.POS_RES_AMP ∧ (M.resl r.val).bad = (L.resl r.val).bad + 1) ∧
      (lo * lo ≤ a2 → a2 ≤ hi * hi → M.get F.POS_RES_RAW_ANG16 0 r.val = angle32 cs sn / 65536 % 65536 ∧ (M.resl r.val).bad = 0 ∧
        (M.resl r.val).pairAt = some L.mtN))) ∧
  (∀ l (r : Fin 2), Does l (.resLos l r) fun _ M => (M.quant (4 + r.val)).valid = false ∧ M.get F.POS_RES_ERR_LOS 0 r.val = 1 ∧
    M.flagged Ev.POS_RES_LOS) ∧
  (∀ l (r : Fin 2), Does l (.resTrackStep l r) fun L M => (M.resl r.val).stepAt = L.mtN ∧ (M.quant (4 + r.val)).t = L.mtLo ∧
    (M.resl r.val).theta = ofSigned 32 ((L.resl r.val).theta + divR (L.resl r.val).speed 1000000)) ∧
  (∀ l (n : Fin 4) f, Does l (.sentFrame l false n f) fun L M =>
    let got := sentNibbles (L.get F.POS_SENT_CFG_FMT 0 n.val) (L.get F.POS_SENT_CFG_TICK 0 n.val) (L.sent n.val).prevCal f
    let good (vals : List Nat) : Bool := sentCrcOk (L.is F.POS_SENT_CFG_CRCM 0 n.val) vals
    (∀ vals, got = some vals → good vals = true → M.reg R.POS_SENT_DATA 0 n.val =
        ((sentFields (L.get F.POS_SENT_CFG_FMT 0 n.val) (vals.drop 1)).fc1 +
        0x10000 * (sentFields (L.get F.POS_SENT_CFG_FMT 0 n.val) (vals.drop 1)).fc2) % 2 ^ 32 ∧ (M.sent n.val).lost = false ∧
        (M.sent n.val).tmoAt = L.now ∧ (M.sent n.val).prevCal = some f.cal) ∧
    (∀ vals, got = some vals → good vals = false → M.flagged Ev.POS_SENT_CRC ∧ M.reg R.POS_SENT_DATA 0 n.val = L.reg R.POS_SENT_DATA 0 n.val ∧
      M.get F.POS_SENT_ERR_CRCERR 0 n.val = min (2 ^ F.POS_SENT_ERR_CRCERR.w - 1) (L.get F.POS_SENT_ERR_CRCERR 0 n.val + 1)) ∧
    (got = none → M.flagged Ev.POS_SENT_FRAME ∧ M.reg R.POS_SENT_DATA 0 n.val = L.reg R.POS_SENT_DATA 0 n.val ∧
      M.get F.POS_SENT_ERR_FRMERR 0 n.val = min (2 ^ F.POS_SENT_ERR_FRMERR.w - 1) (L.get F.POS_SENT_ERR_FRMERR 0 n.val + 1))) ∧
  (∀ l f, Does l (.sentFrame l true 0 f) fun L M =>
    let got := sentNibbles (L.get F.HSF_DEC_CFG_S0FMT) (L.get F.HSF_DEC_CFG_S0TICK) L.pos.hsent.prevCal f
    let good (vals : List Nat) : Bool := sentCrcOk (L.is F.HSF_DEC_CFG_S0CRCM) vals
    L.only [R.HSF_DEC_STAT.addr 0 0] M ∧ M.pos.hsent.prevCal = some f.cal ∧ (got = none → M.pos.hs0 = L.pos.hs0) ∧
    (∀ vals, got = some vals → good vals = false → M.pos.hs0 = L.pos.hs0) ∧
    (∀ vals, got = some vals → good vals = true → ∃ rc, M.pos.hs0 =
      some (BitVec.ofNat 16 (sentFields (L.get F.HSF_DEC_CFG_S0FMT) (vals.drop 1)).fc1, rc, L.now))) ∧
  (∀ l (n : Fin 4), Does l (.sentTimeout l n) fun _ M => (M.sent n.val).lost = true ∧ (M.quant (6 + n.val)).valid = false ∧
    (M.quant (10 + n.val)).valid = false ∧ M.flagged Ev.POS_SENT_TIMEOUT) ∧
  (∀ l (n : Fin 4), Does l (.sentTrigger l n) fun L M => (M.sent n.val).trigAt = some ((L.sent n.val).trigAt.getD L.now) ∧ L.only [] M)

/-- The processor path's reactions (R344, R348 to R350, R355, R356): a violation confirmed and recorded, STO with its bridge ramping down to
DISABLED, the lower limit 100 ms after a fall, L1_LATE, the end of the hold check. -/
def Obligations.SafetyReactions : Prop :=
  (∀ l fn act, Does l (.violationConfirm l fn act) fun L M => M.saf.conf.getD (safIdx fn.val act.val) none = some L.now ∧
    M.shows (safEvent fn.val) ∧ (fn.val = 0 → M.is F.SAF_VIOL_SLA = true) ∧ (fn.val = 1 → M.is F.SAF_VIOL_SLR = true) ∧
    (fn.val = 2 → M.fbit F.SAF_VIOL_SDI act.val = true) ∧
    (L.cmdq.queue = [] → L.only (R.SAF_VIOL.addr 0 0 :: evRegs .saf 0) M)) ∧
  (∀ l act, Does l (.safSto l act) fun L M => M.fbit F.SAF_VIOL_STO act.val = true ∧ M.shows Ev.SAF_SAF_STO ∧
    ((L.act act.val).bridge = .disabled → (M.act act.val).bridge = .disabled) ∧
    ((L.act act.val).bridge ≠ .disabled → (M.act act.val).bridge = .disabling ∧
      (M.act act.val).disableAt = L.now + L.periodT + us 101) ∧
    L.only (R.SAF_VIOL.addr 0 0 :: evRegs .saf 0) M) ∧
  (∀ l t lv rest, DoesWhen l (.slrLimitChange l false) (fun L => L.saf.lim.falls = (t, lv) :: rest) fun L M =>
    L.only [] M ∧ M.saf.lim.held = lv ∧ M.saf.lim.falls = rest) ∧
  (∀ l t lv rest, DoesWhen l (.slrLimitChange l true) (fun L => L.hsf.lim.falls = (t, lv) :: rest) fun L M =>
    L.only [] M ∧ M.hsf.lim.held = lv ∧ M.hsf.lim.falls = rest) ∧
  (∀ l, Does l (.l1Late l) fun L M => M.saf.l1Done = true ∧ M.shows Ev.SAF_L1_LATE ∧ L.only (evRegs .saf 0) M) ∧
  (∀ l act, DoesWhen l (.sbhCheckEnd l act) (fun L => (L.saf.sbh.getD act.val {}).failed = false) fun L M =>
    (M.saf.sbh.getD act.val {}).phase = .hold ∧ M.shows Ev.SAF_SBH_PASS ∧ (L.holdCmd act.val = none → L.only (evRegs .saf 0) M)) ∧
  (∀ l act, DoesWhen l (.sbhCheckEnd l act) (fun L => (L.saf.sbh.getD act.val {}).failed = true) fun _ M =>
    (M.saf.sbh.getD act.val {}).phase = .none ∧ M.shows Ev.SAF_SBH_FAIL ∧
    M.fbit F.SAF_ARM_SBH act.val = false ∧ M.fbit F.HSF_ARM_SBH act.val = false)

/-- Hard-wired safe torque off (R351, R352, R354, R355): a limit exceeded N times and a request latch their bridge with its first cause and
turn its gates off; a release opens a latch whose bridge is inside its limits with voted ENA and ASC 0 and no request in the same write. -/
def Obligations.HardWiredTorqueOff : Prop :=
  (∀ l fn, Does l (.hsfStop l fn) fun L M => M.fbit F.HSF_STO_ACT (L.hsfBridge fn.val) = true ∧
    bit M.hsf.lat.toNat (L.hsfBridge fn.val) = true ∧ M.fbit F.GD_STO_HSF (L.hsfBridge fn.val) = true ∧ M.bridgeOff (L.hsfBridge fn.val) ∧
    (L.fbit F.HSF_STO_ACT (L.hsfBridge fn.val) = false → M.get (F.HSF_STO_CAUSE_0.nth 3 (L.hsfBridge fn.val)) = min 3 (fn.val + 1)) ∧
    M.shows (if fn.val = 0 then Ev.HSF_HSLA else if fn.val = 1 then Ev.HSF_HSLR else Ev.HSF_HSDI) ∧
    nthB M.hsf.done fn.val = true ∧ L.only (stoRegs ++ evRegs .hsf 0) M) ∧
  (∀ l (req : BitVec 4), Does l (.hsfStoReq l req) fun L M => L.only (stoRegs ++ evRegs .hsf 0) M ∧ (req = 0 → M = L) ∧
    (req ≠ 0 → M.shows Ev.HSF_HSTO_REQ) ∧ ∀ b, b < 4 → bit req.toNat b = true → bit M.hsf.lat.toNat b = true ∧
      M.fbit F.HSF_STO_REQ b = true ∧ M.fbit F.HSF_STO_ACT b = true ∧ M.bridgeOff b ∧
      (L.fbit F.HSF_STO_ACT b = false → L.fbit F.HSF_ARM_SBH b = false → M.get (F.HSF_STO_CAUSE_0.nth 3 b) = 4)) ∧
  (∀ l (req rel : BitVec 4), Does l (.hsfStoRel l req rel) fun L M => L.only (stoRegs ++ evRegs .hsf 0) M ∧ ∀ b, b < 4 →
    bit M.hsf.lat.toNat b = (bit req.toNat b || (bit L.hsf.lat.toNat b && (!bit rel.toNat b || L.hsfExceeded b ||
      L.fbit F.GD_VCMD_ENA b || L.fbit F.GD_VCMD_ASC b)))) ∧
  (∀ l inp, Does l (.hunavail l inp) fun L M => L.sets (if inp.val = 0 then F.HSF_VIOL_UNAV_S0 else if inp.val = 1 then
    F.HSF_VIOL_UNAV_E0 else F.HSF_VIOL_UNAV_E1) 1 M ∧ M.shows Ev.HSF_HUNAVAIL ∧ L.only (R.HSF_VIOL.addr 0 0 :: evRegs .hsf 0) M)

/-- The Seal of either party (R364 to R366, R370): a computation over the values of this instant, ignored while BUSY; its end with MATCH; the
lock, which takes an unlocked party whose Seal equals its reference and is SEAL_MISMATCH otherwise; the recheck, which writes the Seal
anew, changes nothing else where it still matches, and else takes the lane out of the vote, the Hedge's party losing its lock. When two
Seals are equal, when the values are taken, and a party without a Seal are read as logs 36, 59 and 83 say. -/
def Obligations.SealCommands : Prop :=
  (∀ l, DoesWhen l (.sealChk l) (fun L => L.is F.SAF_SEALCTL_BUSY = true) fun L M => M = L) ∧
  (∀ l, DoesWhen l (.sealChk l) (fun L => L.is F.SAF_SEALCTL_BUSY = false) fun L M => L.sets F.SAF_SEALCTL_BUSY 1 M ∧
    M.saf.run = some { endAt := L.now + ms 2, val := L.trioSeal } ∧ L.only [R.SAF_SEALCTL.addr 0 0] M) ∧
  (∀ l, DoesWhen l (.hsealChk l) (fun L => L.is F.HSF_SEALCMD_BUSY = true) fun L M => M = L) ∧
  (∀ l, DoesWhen l (.hsealChk l) (fun L => L.is F.HSF_SEALCMD_BUSY = false) fun L M => L.sets F.HSF_SEALCMD_BUSY 1 M ∧
    M.hsf.run = some { endAt := L.now + ms 1, val := L.hedgeSeal } ∧ L.only [R.HSF_SEALCMD.addr 0 0] M) ∧
  (∀ l (r : SealRun), DoesWhen l (.sealDone l false) (fun L => L.saf.run = some r) fun L M =>
    let v := if L.link.trained then r.val else none
    M.rd (R.SAF_SEAL.addr 0 0) = v.getD 0 ∧ M.get F.SAF_SEALCTL_BUSY = 0 ∧ M.saf.run = none ∧
    M.is F.SAF_SEALCTL_MATCH = (v == some (L.rd (R.SAF_SEALREF.addr 0 0))) ∧
    L.only [R.SAF_SEAL.addr 0 0, R.SAF_SEALCTL.addr 0 0, R.HSF_SEALCMD.addr 0 0] M) ∧
  (∀ l (r : SealRun), DoesWhen l (.sealDone l true) (fun L => L.hsf.run = some r) fun L M =>
    M.rd (R.HSF_SEAL.addr 0 0) = r.val.getD 0 ∧ M.get F.HSF_SEALCMD_BUSY = 0 ∧ M.hsf.run = none ∧
    M.is F.HSF_SEALCMD_MATCH = (r.val == some (L.rd (R.HSF_SEALREF.addr 0 0))) ∧ (r.val = none → M.shows Ev.HSF_MIR_ERR) ∧
    L.only ([R.HSF_SEAL.addr 0 0, R.SAF_SEALCTL.addr 0 0, R.HSF_SEALCMD.addr 0 0] ++ evRegs .hsf 0) M) ∧
  (∀ l key, DoesWhen l (.sealLock l key)
    (fun L => L.is F.SAF_SEALCTL_LOCKED = false ∧ L.saf.hasSeal = true ∧ L.reg R.SAF_SEAL = L.reg R.SAF_SEALREF) fun L M =>
      M.get F.SAF_SEALCTL_LOCKED = 1 ∧ M.shows Ev.SAF_SEAL_LOCKED ∧ M.saf.recheckAt = L.now ∧
      ∀ b n, b.isHedge = false → n < b.count → M.is (H.STAT_LOCKED b) n = true) ∧
  (∀ l key, DoesWhen l (.sealLock l key)
    (fun L => L.is F.SAF_SEALCTL_LOCKED = true ∨ L.saf.hasSeal = false ∨ L.reg R.SAF_SEAL ≠ L.reg R.SAF_SEALREF) fun L M =>
      M.shows Ev.SAF_SEAL_MISMATCH ∧ L.only (evRegs .saf 0) M) ∧
  (∀ l, DoesWhen l (.hsealLock l)
    (fun L => L.is F.HSF_SEALCMD_LOCKED = false ∧ L.hsf.hasSeal = true ∧ L.reg R.HSF_SEAL = L.reg R.HSF_SEALREF) fun L M =>
      M.get F.HSF_SEALCMD_LOCKED = 1 ∧ M.shows Ev.HSF_HSEAL_LOCKED ∧ M.hsf.recheckAt = L.now ∧
      ∀ b n, b.isHedge = true → n < b.count → M.is (H.STAT_LOCKED b) n = true) ∧
  (∀ l, DoesWhen l (.hsealLock l)
    (fun L => L.is F.HSF_SEALCMD_LOCKED = true ∨ L.hsf.hasSeal = false ∨ L.reg R.HSF_SEAL ≠ L.reg R.HSF_SEALREF) fun L M =>
      M.shows Ev.HSF_SEAL_MISMATCH ∧ L.only (evRegs .hsf 0) M) ∧
  (∀ l, DoesWhen l (.sealRecheck l false) (fun L => L.trioSeal = none ∨ L.trioSeal = some (L.rd (R.SAF_SEALREF.addr 0 0))) fun L M =>
    M.saf.recheckAt = L.now ∧ M.rd (R.SAF_SEAL.addr 0 0) = L.trioSeal.getD 0 ∧ M.saf.hasSeal = L.trioSeal.isSome ∧
    L.only [R.SAF_SEAL.addr 0 0, R.SAF_SEALCTL.addr 0 0, R.HSF_SEALCMD.addr 0 0] M) ∧
  (∀ l v, DoesWhen l (.sealRecheck l false) (fun L => L.trioSeal = some v ∧ v ≠ L.rd (R.SAF_SEALREF.addr 0 0)) fun L M =>
    M.saf.recheckAt = L.now ∧ M.flagged Ev.SAF_SEAL_LOST ∧ M.get F.TRIO_MODE_NOVOTE = 1 ∧ M.hsf.sealLost = L.hsf.sealLost + 1 ∧
    M.rd (R.SAF_SEAL.addr 0 0) = v ∧ (1 ≤ L.hsf.sealLost → M.own = 4) ∧ (L.hsf.sealLost = 0 → L.active = true → M.own = 3)) ∧
  (∀ l, DoesWhen l (.sealRecheck l true) (fun L => L.hedgeSeal = some (L.rd (R.HSF_SEALREF.addr 0 0))) fun L M =>
    M.hsf.recheckAt = L.now ∧ M.rd (R.HSF_SEAL.addr 0 0) = L.rd (R.HSF_SEALREF.addr 0 0) ∧
    L.only [R.HSF_SEAL.addr 0 0, R.SAF_SEALCTL.addr 0 0, R.HSF_SEALCMD.addr 0 0] M) ∧
  (∀ l, DoesWhen l (.sealRecheck l true) (fun L => L.hedgeSeal ≠ some (L.rd (R.HSF_SEALREF.addr 0 0))) fun L M =>
    M.hsf.recheckAt = L.now ∧ M.flagged Ev.HSF_HSEAL_LOST ∧ M.get F.HSF_SEALCMD_LOCKED = 0 ∧ M.sdl.held = true ∧
    M.hsf.sealLost = L.hsf.sealLost + 1 ∧ M.get F.TRIO_MODE_NOVOTE = 1 ∧ (1 ≤ L.hsf.sealLost → M.own = 4) ∧
    (L.hsf.sealLost = 0 → L.active = true → M.own = 3))

/-- Weeding slices (R383 to R388): the service pair takes the next element whose cover has held; GO chooses one or reads RESULT 4; at a
boundary the chosen element is isolated, or does not start; the end writes RESULT, DONE and BUSY and returns or prunes the element; an
abort is RESULT 3. The verdict of a slice is an operand of its row (log 73); SLICE_PASS is read as log 74 says. -/
def Obligations.WeedingSlices : Prop :=
  (∀ l e, e ≠ Elem.svc → DoesIn l (.sliceSchedule l) (fun s => (s.lane l).noGraft = true ∧
      turnElems.getD ((s.lane l).test.turn % 43) .svc = e ∧ 10 ≤ nthN (s.lane l).test.cover ((s.lane l).test.turn % 43) ∧
      sliceReady s l e = true ∧ (s.lane l).pruned e = false) fun s t =>
    (t.lane l).test.slice = some { elem := e, sched := true, cmd := none, startAt := none } ∧ (t.lane l).get F.BIST_SLICE_BUSY = 1 ∧
    (t.lane l).get F.BIST_SLICE_SCHED = 1 ∧ (t.lane l).test.schedAt = (s.lane l).now ∧
    (t.lane l).test.turn = ((s.lane l).test.turn % 43 + 1) % 43 ∧ t = s.setLane l (t.lane l) ∧
    (s.lane l).only [R.BIST_SLICE.addr 0 0] (t.lane l)) ∧
  (∀ l cls idx e, elemAt cls.toNat idx.toNat = some e → DoesIn l (.sliceGo l cls idx) (fun s => sliceReady s l e = true) fun s t =>
    (t.lane l).test.slice = some { elem := e, sched := false, cmd := none, startAt := none } ∧ (t.lane l).get F.BIST_SLICE_BUSY = 1 ∧
    (t.lane l).get F.BIST_SLICE_CLASS = cls.toNat ∧ (t.lane l).get F.BIST_SLICE_INDEX = idx.toNat ∧
    t = s.setLane l (t.lane l) ∧ (s.lane l).only [R.BIST_SLICE.addr 0 0] (t.lane l)) ∧
  (∀ l cls idx, DoesIn l (.sliceGo l cls idx) (fun s => ∀ e, elemAt cls.toNat idx.toNat = some e → sliceReady s l e = false) fun s t =>
    (t.lane l).get F.BIST_SLICE_RESULT = 4 ∧ (t.lane l).shows Ev.BIST_SLICE_REFUSED ∧ (t.lane l).test = (s.lane l).test ∧
    (s.lane l).only (R.BIST_SLICE.addr 0 0 :: evRegs .bist 0) (t.lane l)) ∧
  (∀ l x, DoesIn l (.sliceStart l) (fun s => (s.lane l).test.slice = some x ∧ coverOk s l x.elem = true ∧ (s.lane l).active = true) fun s t =>
    (t.lane l).isolated = some x.elem ∧ (t.lane l).test.slice = some { x with startAt := some (s.lane l).now }) ∧
  (∀ l x, DoesIn l (.sliceStart l) (fun s => (s.lane l).test.slice = some x ∧ (coverOk s l x.elem && (s.lane l).active) = false ∧
      x.cmd = none) fun s t =>
    (t.lane l).test.slice = none ∧ (t.lane l).get F.BIST_SLICE_BUSY = 0 ∧
    (x.sched = false → (t.lane l).get F.BIST_SLICE_RESULT = 4 ∧ (t.lane l).shows Ev.BIST_SLICE_REFUSED) ∧
    (s.lane l).only (R.BIST_SLICE.addr 0 0 :: evRegs .bist 0) (t.lane l)) ∧
  (∀ l x, DoesIn l (.sliceEnd l true) (fun s => (s.lane l).test.slice = some x ∧ x.elem ∈ turnElems ∧
      (s.lane l).test.sliceBad = false) fun _ t =>
    (t.lane l).test.slice = none ∧ (t.lane l).isolated = none ∧ (t.lane l).get F.BIST_SLICE_RESULT = 1 ∧
    (t.lane l).get F.BIST_SLICE_DONE = 1 ∧ (t.lane l).get F.BIST_SLICE_BUSY = 0 ∧
    (sliceReturns x.elem = true → (t.lane l).pruned x.elem = false)) ∧
  (∀ l passed x, DoesIn l (.sliceEnd l passed) (fun s => (s.lane l).test.slice = some x ∧ x.elem ∈ turnElems ∧
      (passed = false ∨ (s.lane l).test.sliceBad = true) ∧ ∀ k, x.elem ≠ .sram k) fun _ t =>
    (t.lane l).test.slice = none ∧ (t.lane l).isolated = none ∧ (t.lane l).get F.BIST_SLICE_RESULT = 2 ∧
    (t.lane l).get F.BIST_SLICE_DONE = 1 ∧ (t.lane l).get F.BIST_SLICE_BUSY = 0 ∧ (t.lane l).pruned x.elem = true) ∧
  (∀ l od x, DoesIn l (.sliceAbort l od) (fun s => (s.lane l).test.slice = some x ∧ x.elem ∈ turnElems ∧
      (s.lane l).test.sliceBad = false ∧ sliceHit s l x.elem od = true) fun _ t =>
    (t.lane l).test.slice = none ∧ (t.lane l).isolated = none ∧ (t.lane l).get F.BIST_SLICE_RESULT = 3 ∧
    (t.lane l).get F.BIST_SLICE_DONE = 1 ∧ (t.lane l).get F.BIST_SLICE_BUSY = 0 ∧ (t.lane l).flagged Ev.BIST_SLICE_ABORT) ∧
  (∀ l od x, DoesIn l (.sliceAbort l od) (fun s => (s.lane l).test.slice = some x ∧
      ((s.lane l).test.sliceBad = true ∨ sliceHit s l x.elem od = false)) fun s t => t = s)

/-- Memory protection (R397 to R404): a scrub pass begins and is late over a running one, its end counts the pass and its corrections and
pulses source 119, a word corrected is written back and a word that is not is poisoned; the copy into the reserve ends with REMAP, a spare
NVM block is taken, and each decoder test counts with its outcome. Bit errors are read back with a scrub pass (log 78), the code's symbols
lie as log 143 says, the bucket is read as log 27 says. -/
def Obligations.MemoryProtection : Prop :=
  (∀ l, DoesWhen l (.scrubPass l) (fun L => L.test.scrubAt = none) fun L M => M.test.scrubAt = some L.now ∧ L.only [] M) ∧
  (∀ l, DoesWhen l (.scrubPass l) (fun L => L.test.scrubAt ≠ none) fun L M => M.test.scrubAt = some L.now ∧
    M.get F.MSUP_PASS_LATE = 1 ∧ M.flagged Ev.MSUP_SCRUB_LATE) ∧
  (∀ l (f : List ScrubFind), (∀ x, x ∈ f → memDecode (wordAt x.addr.toNat) (x.stored.map BitVec.toNat) = .clean) →
    DoesIn l (.scrubPassEnd l f) (fun s => (s.lane l).banksDue [] = []) fun s t => (t.lane l).test.scrubAt = none ∧
    (t.lane l).test.fixedLast = (s.lane l).test.fixedNow ∧ (t.lane l).test.fixedNow = [] ∧
    (t.lane l).get F.MSUP_PASS_COUNT = ((s.lane l).get F.MSUP_PASS_COUNT + 1) % 2 ^ F.MSUP_PASS_COUNT.w ∧
    (t.lane l).get F.MSUP_PASS_LATE = 0 ∧ (t.lane l).get F.MSUP_CE_LAST = min 65535 (s.lane l).test.fixedNow.length ∧
    (s.lane l).pulsed (t.lane l) 119 ∧ t = s.setLane l (t.lane l) ∧
    (s.lane l).only [R.MSUP_PASS.addr 0 0, F.MSUP_CE_LAST.reg.addr 0 0] (t.lane l)) ∧
  (∀ l (f : ScrubFind) n data, memDecode (wordAt f.addr.toNat) (f.stored.map BitVec.toNat) = .fixed n data → data.length = 16 →
    DoesIn l (.scrubPassEnd l [f]) (fun s => (s.lane l).test.fixedNow = [] ∧
      (s.lane l).test.fixedLast.contains (wordAt f.addr.toNat) = false ∧ (s.lane l).banksDue [] = []) fun _ t =>
    (t.lane l).test.fixedLast = [wordAt f.addr.toNat] ∧ (t.lane l).reg R.MSUP_ADDR = wordAt f.addr.toNat ∧
    (t.lane l).get F.MSUP_CE_LAST = 1 ∧ (t.lane l).flagged Ev.MSUP_CE ∧
    (t.lane l).memBytes (wordAt f.addr.toNat) 16 = data.map (BitVec.ofNat 8)) ∧
  (∀ l (f : ScrubFind) ad, memDecode (wordAt f.addr.toNat) (f.stored.map BitVec.toNat) = .bad ad →
    loopMemOf (wordAt f.addr.toNat) = none →
    DoesIn l (.scrubPassEnd l [f]) (fun s => (s.lane l).test.ueSeen.contains (wordAt f.addr.toNat) = false ∧
      (s.lane l).banksDue [] = [] ∧ sramOf (wordAt f.addr.toNat) = none) fun s t =>
    (t.lane l).poisoned (wordAt f.addr.toNat) = true ∧ (t.lane l).reg R.MSUP_ADDR = wordAt f.addr.toNat ∧
    (t.lane l).get F.MSUP_LAST_ADDRERR = b2n ad ∧ (s.lane l).memKept (t.lane l)) ∧
  (∀ l k t0, DoesWhen l (.remapDone l) (fun L => L.test.remap = some (k, t0)) fun L M => M.test.remap = none ∧
    M.shows Ev.MSUP_REMAP_DONE ∧ L.sets F.MSUP_SRAM_REMAP (2 ^ k) M ∧ L.only (F.MSUP_SRAM_REMAP.reg.addr 0 0 :: evRegs .msup 0) M) ∧
  (∀ l, DoesWhen l (.nvmSpared l) (fun L => L.get F.MSUP_REPAIR_NVM < 128) fun L M =>
    L.sets F.MSUP_REPAIR_NVM (L.get F.MSUP_REPAIR_NVM + 1) M ∧ M.shows Ev.MSUP_NVM_SPARED ∧
    L.only (R.MSUP_REPAIR.addr 0 0 :: evRegs .msup 0) M) ∧
  (∀ l, DoesWhen l (.nvmSpared l) (fun L => 128 ≤ L.get F.MSUP_REPAIR_NVM) fun L M =>
    M.shows Ev.MSUP_NVM_SPARE_OUT ∧ L.only (evRegs .msup 0) M) ∧
  (∀ l, Does l (.decoderTest l none) fun L M => M.test.decAt = L.now ∧ M.get F.MSUP_DECCHK_LAST_OK = 1 ∧
    M.get F.MSUP_DECCHK_RUNS = (L.get F.MSUP_DECCHK_RUNS + 1) % 2 ^ F.MSUP_DECCHK_RUNS.w ∧ L.only [R.MSUP_DECCHK.addr 0 0] M) ∧
  (∀ l n, n < 8 → Does l (.decoderTest l (some (.elem (.cnv n)))) fun _ M => M.get F.MSUP_DECCHK_LAST_OK = 0 ∧
    M.flagged Ev.MSUP_DEC_FAULT ∧ M.pruned (.cnv n) = true) ∧
  (∀ l, Does l (.decoderTest l (some .trioTcm)) fun L M => M.get F.MSUP_DECCHK_LAST_OK = 0 ∧
    M.flagged Ev.MSUP_DEC_FAULT ∧ M.flagged Ev.TRIO_CHK_FAULT ∧ M.ozl.chkFaults = L.ozl.chkFaults + 1)

/-- Reception on CAN and the read locks (R406, R411 to R413, R416): a frame in a format not enabled is a protocol exception, an error sets LEC
and REC, a frame that no object accepts is counted, one that an object accepts is stored there whole, and nowhere else; a read of word
0x00 takes a free lock, the holder's read of 0x7C and 20 us release it. A CAN controller's modes (R407, R416, R418 to R421): bus-off
recovery, an enable with legal timing alone, integration, the wake filter's cause, the vote withdrawn after 1 s. The error counters follow
the family's rule (log 62). -/
def Obligations.CanReceptionAndModes : Prop :=
  (
  (∀ l (n : Fin 4) f err, DoesAny l (.canRxFrame l n f err) fun L M =>
    let bad : Prop := (f.fmt = 1 ∧ L.is F.CAN_MODE_FDOE n.val = false) ∨ (f.fmt = 2 ∧ L.is F.CAN_MODE_XLOE n.val = false)
    (bad → (M.canSt n.val).intg = false ∧ M.shows Ev.CAN_PROT_EXC n.val ∧ L.only (evRegs .can n.val) M) ∧
    (¬ bad → err ≠ 0 → M.get F.CAN_ERR_LEC n.val = err.toNat ∧ M.get F.CAN_ERR_REC n.val = min 255 (L.get F.CAN_ERR_REC n.val + 1) ∧
      L.only (R.CAN_ERR.addr n.val 0 :: evRegs .can n.val) M) ∧
    (¬ bad → err = 0 → (∀ m, m < 128 → L.objAccepts n.val m f = false) →
      M.get F.CAN_CNT_RXDROP n.val = min 255 (L.get F.CAN_CNT_RXDROP n.val + 1) ∧ (M.canSt n.val).lastFrame = L.now ∧ L.memKept M ∧
      L.outside canBlks M) ∧
    (¬ bad → err = 0 → ∀ m, m < 128 → L.objAccepts n.val m f = true → (∀ j, j < m → L.objAccepts n.val j f = false) →
      f.data.length ≤ 64 → (L.canSt n.val).lockOf m = none → M.og n.val m 0 16 1 = 1 ∧ M.og n.val m 0x04 0 29 = f.id.toNat ∧
      M.og n.val m 0x14 0 12 = f.data.length ∧ M.og n.val m 0x18 0 32 = f.ts.toNat ∧
      M.memBytes (objAddr n.val m 0x1C) f.data.length = f.data ∧ (L.og n.val m 0 16 1 = 1 → M.og n.val m 0 17 1 = 1) ∧
      M.og n.val m 0x7C 0 16 = (L.og n.val m 0x7C 0 16 + 1) % 2 ^ 16 ∧ bit (M.reg R.CAN_RXEV n.val (m / 32)) (m % 32) = true ∧
      L.objKept M n.val m ∧ L.outside canBlks M)) ∧
  (∀ l (n : Fin 4) (m : Fin 128) w, Does l (.objLockRead l n m w) fun L M => M.cmdq.busData = L.memWord (objAddr n.val m.val 0) ∧
    L.objKept M n.val m.val ∧ L.outside [] M ∧
    ((L.canSt n.val).lockOf m.val = none → M.og n.val m.val 0 18 1 = 1 ∧
      (M.canSt n.val).lockOf m.val = some { obj := m.val, who := w, at_ := L.now }) ∧
    ((L.canSt n.val).lockOf m.val ≠ none → L.only [] M ∧ M.can = L.can)) ∧
  (∀ l (n : Fin 4) (m : Fin 128) w, Does l (.objUnlockRead l n m w) fun L M => M.cmdq.busData = L.memWord (objAddr n.val m.val 0x7C) ∧
    (∀ k, (L.canSt n.val).lockOf m.val = some k → k.who ≠ w → L.only [] M ∧ M.can = L.can) ∧
    (∀ k, (L.canSt n.val).lockOf m.val = some k → k.who = w → (M.canSt n.val).lockOf m.val = none ∧
      ((L.canSt n.val).hold.filter (fun h => h.1 == m.val) = [] → M.og n.val m.val 0 16 3 = 0 ∧ L.objKept M n.val m.val ∧ L.outside [] M))) ∧
  (∀ l (n : Fin 5) (m : Fin 128), n.val < 4 → Does l (.lockLapse l n m) fun L M => (M.canSt n.val).lockOf m.val = none ∧
    ((L.canSt n.val).hold.filter (fun h => h.1 == m.val) = [] → M.shows Ev.CAN_LOCK_LAPSE n.val ∧ M.og n.val m.val 0 18 1 = 0 ∧
      L.objKept M n.val m.val ∧ L.outside [.can, .alm] M)) ∧
  (∀ l (m : Fin 128), Does l (.lockLapse l 4 m) fun L M => M.flx.lockOf m.val = none ∧
    (L.flx.shadow.filter (fun h => h.1 == m.val) = [] → L.flx.seconds.filter (fun h => h.1 == m.val) = [] → M.shows Ev.FLX_LOCK_LAPSE ∧ M.bg m.val 8 7 1 = 0 ∧
      L.memOutside M (bufAddr m.val 8) (bufAddr m.val 12) ∧ L.only (evRegs .flx 0) { M with mem := L.mem })))
  ∧
  (
  (∀ l n, Does l (.recover l n) fun L M => (M.canSt n.val).recovering = true ∧ L.only [] M) ∧
  (∀ l n, Does l (.busOffRecovery l n) fun L M => M.get F.CAN_ERR_BO n.val = 0 ∧ M.get F.CAN_ERR_EP n.val = 0 ∧
    M.get F.CAN_ERR_TEC n.val = 0 ∧ M.get F.CAN_ERR_REC n.val = 0 ∧ (M.canSt n.val).recovering = false ∧ (M.canSt n.val).intg = true ∧
    L.only [R.CAN_ERR.addr n.val 0] M) ∧
  (∀ l n, Does l (.canEnable l n false) fun L M => L.sets F.CAN_MODE_EN 0 M n.val ∧ (M.canSt n.val).intg = false ∧
    (M.canSt n.val).tx = none ∧ L.only [R.CAN_MODE.addr n.val 0] M) ∧
  (∀ l n, Does l (.canEnable l n true) fun L M =>
    (L.canBadTiming n.val = true → M.shows Ev.CAN_CFG_ERR n.val ∧ L.only (evRegs .can n.val) M) ∧
    (L.canBadTiming n.val = false → L.sets F.CAN_MODE_EN 1 M n.val ∧ (M.canSt n.val).intg = false ∧ L.only [R.CAN_MODE.addr n.val 0] M)) ∧
  (∀ l n, Does l (.canIntegration l n) fun L M => (M.canSt n.val).intg = true ∧ L.only [] M) ∧
  (∀ l n, Does l (.canVoteLapse l n) fun L M => M.voteOf 10 (4 + n.val) = 0 ∧ L.memKept M ∧ L.outside [.pwr, .alm] M) ∧
  (∀ l n, Does l (.canWakeEdge l n) fun L M => M.get F.CAN_WKSTAT_CAUSE n.val = 1 ∧ M.get F.CAN_WKSTAT_WOKE n.val = 1 ∧
    L.woken M 1 n.val) ∧
  (∀ l n w, Does l (.canWakeFrame l n w) fun L M =>
    (w = .skipped → M = L) ∧
    (w = .other → L.sets F.CAN_WKSTAT_FEC (L.get F.CAN_WKSTAT_FEC n.val - 1) M n.val ∧ L.only [R.CAN_WKSTAT.addr n.val 0] M) ∧
    (∀ f, w = .data f → L.isWakeFrame n.val f = true → M.get F.CAN_WKSTAT_CAUSE n.val = 2 ∧ L.woken M 2 n.val) ∧
    (∀ f, w = .data f → L.isWakeFrame n.val f = false → M.pwr = L.pwr ∧ L.only [R.CAN_WKSTAT.addr n.val 0] M) ∧
    (w = .error → L.get F.CAN_WKSTAT_FEC n.val = 31 → M.get F.CAN_WKSTAT_CAUSE n.val = 3 ∧ L.woken M 3 n.val) ∧
    (w = .error → L.get F.CAN_WKSTAT_FEC n.val ≠ 31 → M.get F.CAN_WKSTAT_FEC n.val = min 32 (L.get F.CAN_WKSTAT_FEC n.val + 1) ∧
      L.only [R.CAN_WKSTAT.addr n.val 0] M)))

/-- Transmission on CAN (R410, R414 to R416): a request of an object of MODE 2 is pending, a cancel of a pending one ends it with TXRES 3 or
is late, the arbitration's winner goes to the bus, and its end writes TXRES and TXEV, or leaves it pending for the next attempt. The
arbitration order of identifiers, cancels on the bus and error counts are the model's (logs 22, 61 and 62). -/
def Obligations.CanTransmission : Prop :=
  (∀ l (n : Fin 4) (k : Fin 4) mask, Does l (.txrq l n k mask) fun L M =>
    L.memOutside M (objAddr n.val (32 * k.val) 0) (objAddr n.val (32 * k.val + 32) 0) ∧ L.outside canBlks M ∧ ∀ i, i < 32 →
    (bit mask.toNat i = true → L.og n.val (32 * k.val + i) 0 0 2 = 2 → L.og n.val (32 * k.val + i) 0x14 0 12 ≤ 64 →
      (L.canSt n.val).cancNow.1 ≠ L.now → M.og n.val (32 * k.val + i) 0 19 1 = 1) ∧
    (bit mask.toNat i = true → L.og n.val (32 * k.val + i) 0 0 2 ≠ 2 → M.og n.val (32 * k.val + i) 0 19 1 = L.og n.val (32 * k.val + i) 0 19 1 ∧
      M.flagged Ev.CAN_CFG_ERR n.val) ∧
    (bit mask.toNat i = false → ∀ a, objAddr n.val (32 * k.val + i) 0 ≤ a → a < objAddr n.val (32 * k.val + i) 0x80 → M.byte a = L.byte a)) ∧
  (∀ l (n : Fin 4) (k : Fin 4) mask, Does l (.txcan l n k mask) fun L M =>
    L.memOutside M (objAddr n.val (32 * k.val) 0) (objAddr n.val (32 * k.val + 32) 0) ∧ L.outside [.can] M ∧ ∀ i, i < 32 →
    let m := 32 * k.val + i
    (bit mask.toNat i = true → (L.canSt n.val).tx ≠ some m → L.og n.val m 0 19 1 = 1 → M.og n.val m 0 19 1 = 0 ∧ M.og n.val m 0 20 2 = 3 ∧
      bit (M.reg R.CAN_TXEV n.val k.val) i = true) ∧
    (bit mask.toNat i = true → (L.canSt n.val).tx = some m → m ∈ (M.canSt n.val).cancels ∧ M.og n.val m 0 19 1 = L.og n.val m 0 19 1) ∧
    (bit mask.toNat i = false → M.og n.val m 0 0 32 = L.og n.val m 0 0 32)) ∧
  (∀ l (n : Fin 4) e, Does l (.arbitration l n e) fun L M => (L.arbWinner n.val = none → M = L) ∧
    (∀ m, L.arbWinner n.val = some m → e = false → L.objPoison n.val m = none → (M.canSt n.val).tx = some m ∧ L.only [] M) ∧
    (∀ m, L.arbWinner n.val = some m → e = true ∨ L.objPoison n.val m ≠ none → (M.canSt n.val).tx = none ∧
      M.og n.val m 0 19 1 = 0 ∧ M.og n.val m 0 20 2 = 2 ∧ M.flagged Ev.CAN_MEMERR n.val ∧ L.objKept M n.val m)) ∧
  (∀ l (n : Fin 4) ts tdcv, Does l (.canTxEnd l n .sent ts tdcv) fun L M => ∀ m, (L.canSt n.val).tx = some m → m < 128 →
    L.is F.CAN_MODE_LBACK n.val = false → (L.canSt n.val).cancels.contains m = false → (M.canSt n.val).tx = none ∧
    M.og n.val m 0 19 1 = 0 ∧ M.og n.val m 0 20 2 = 1 ∧ M.og n.val m 0 23 1 = 0 ∧ M.og n.val m 0x18 0 32 = ts.toNat ∧
    bit (M.reg R.CAN_TXEV n.val (m / 32)) (m % 32) = true ∧ M.get F.CAN_ERR_TEC n.val = L.get F.CAN_ERR_TEC n.val - 1 ∧
    (M.canSt n.val).lastFrame = L.now ∧ L.objKept M n.val m ∧ L.outside canBlks M) ∧
  (∀ l (n : Fin 4) ts tdcv, Does l (.canTxEnd l n .lost ts tdcv) fun L M => ∀ m, (L.canSt n.val).tx = some m → m < 128 →
    (M.canSt n.val).tx = none ∧ ((L.canSt n.val).cancels.contains m = false → L.og n.val m 0 2 1 = 0 →
      M.og n.val m 0 19 1 = L.og n.val m 0 19 1 ∧ M.og n.val m 0 23 1 = 0) ∧
    ((L.canSt n.val).cancels.contains m = true → M.og n.val m 0 19 1 = 0 ∧ M.og n.val m 0 20 2 = 3) ∧
    ((L.canSt n.val).cancels.contains m = false → L.og n.val m 0 2 1 = 1 → M.og n.val m 0 19 1 = 0 ∧ M.og n.val m 0 20 2 = 2) ∧
    L.objKept M n.val m) ∧
  (∀ l (n : Fin 4) lec ts tdcv, Does l (.canTxEnd l n (.error lec) ts tdcv) fun L M => ∀ m, (L.canSt n.val).tx = some m → m < 128 →
    L.og n.val m 0 4 3 < 2 → L.get F.CAN_ERR_TEC n.val + 8 ≤ 255 → lec ≠ 3 → M.get F.CAN_ERR_LEC n.val = lec.toNat ∧
    (M.canSt n.val).tx = none ∧ M.get F.CAN_ERR_TEC n.val = L.get F.CAN_ERR_TEC n.val + 8 ∧ (128 ≤ L.get F.CAN_ERR_TEC n.val + 8 →
      M.get F.CAN_ERR_EP n.val = 1) ∧ L.objKept M n.val m) ∧
  (∀ l (n : Fin 4) lec ts tdcv, Does l (.canTxEnd l n (.collide lec) ts tdcv) fun L M => ∀ m, (L.canSt n.val).tx = some m → m < 128 →
    L.get F.CAN_ERR_TEC n.val + 8 ≤ 255 →
    M.flagged Ev.CAN_ID_COLLIDE n.val ∧ M.get F.CAN_CNT_COLL n.val = min 255 (L.get F.CAN_CNT_COLL n.val + 1) ∧
    M.og n.val m 0 23 1 = 1 ∧ M.og n.val m 0 25 3 = min 4 (L.og n.val m 0 25 3 + 1) ∧ M.get F.CAN_ERR_LEC n.val = lec.toNat)

/-- FlexRay's states (R424 to R429, R435 to R439, R441): an enable with a legal configuration leads to READY, a cold-starter heard nothing
contends or gives up, an integration leads to NORMAL_ACTIVE or the cautious hold, a cycle start stamps MTCS, the correction at the end of
an odd cycle leads to NORMAL_PASSIVE, a cycle-position unit fires, a wakeup pattern is sent in READY alone and wakes with cause 4. An
enable goes to READY (log 63). -/
def Obligations.FlexRayStates : Prop :=
  (∀ l, Does l (.flxEnable l false) fun L M => M.get F.FLX_CTL_EN = 0 ∧ M.poc = 0 ∧ M.get F.FLX_POC_CAUTHOLD = 0 ∧
    M.get F.FLX_POC_TXINH = 0 ∧ L.memKept M ∧ L.outside [.flx, .pwr, .alm] M) ∧
  (∀ l, Does l (.flxEnable l true) fun L M => (L.flxBad = true → M.shows Ev.FLX_CFG_ERR ∧ M.flx = L.flx ∧ L.only (evRegs .flx 0) M) ∧
    (L.flxBad = false → M.get F.FLX_CTL_EN = 1 ∧ M.poc = 1 ∧ M.flx.attempts = 0 ∧ M.flx.listenAt = L.now ∧ L.memKept M ∧
      L.outside [.flx, .pwr, .alm] M)) ∧
  (∀ l, Does l (.listenTimeout l) fun L M => M.flx.listenAt = L.now ∧
    (L.get F.FLX_INTEG_CSATT ≤ L.flx.attempts → L.sets F.FLX_POC_COLDINH 1 M ∧ M.shows Ev.FLX_CS_ABANDON ∧ M.poc = L.poc ∧
      L.only (R.FLX_POC.addr 0 0 :: evRegs .flx 0) M) ∧
    (L.flx.attempts < L.get F.FLX_INTEG_CSATT → M.poc = 3 ∧ M.flx.attempts = L.flx.attempts + 1 ∧ L.memKept M ∧ L.outside [.flx, .pwr, .alm] M)) ∧
  (∀ l cyc, Does l (.integration l cyc) fun L M => M.get F.FLX_POC_CYCLE = cyc.toNat ∧ M.flx.attempts = 0 ∧
    (L.is F.FLX_CTL_CAUT = false → L.flx.cautNext = false → M.poc = 4 ∧ M.get F.FLX_POC_CAUTHOLD = 0) ∧
    (L.is F.FLX_CTL_CAUT = true ∨ L.flx.cautNext = true → M.poc = 3 ∧ M.get F.FLX_POC_CAUTHOLD = 1) ∧ L.memKept M ∧ L.outside [.flx, .pwr, .alm] M) ∧
  (∀ l a b, Does l (.cycleStart l a b) fun L M => M.reg R.FLX_MTCS = L.mtLo.toNat ∧ M.get F.FLX_EVT_CYCST = 1 ∧
    M.get F.FLX_POC_CYCLE = (L.get F.FLX_POC_CYCLE + 1) % 64 ∧ M.flx.rxNow = [] ∧
    (L.flx.started = true → M.reg R.FLX_MTPER = (L.mtLo.toNat + 2 ^ 32 - L.reg R.FLX_MTCS) % 2 ^ 32) ∧
    M.flx.cpiDone = [false, false, false, false] ∧ L.memKept M ∧ L.outside [.flx, .pwr, .alm] M ∧
    (L.is F.FLX_POC_CAUTHOLD = true → L.flx.holdFull = true → L.syncEnough a b = true →
      L.corrIn (L.getS F.FLX_CORR_OFS) (L.getS F.FLX_CORR_RATE) = true → L.flx.cycBad = false → M.poc = 4 ∧ M.get F.FLX_POC_CAUTHOLD = 0)) ∧
  (∀ l (k : Fin 4), Does l (.cpi l k) fun L M => M.fbit F.FLX_EVT_CPI k.val = true ∧ M.flx.cpiDone.getD k.val false = true ∧
    L.only [R.FLX_EVT.addr 0 0] M) ∧
  (∀ l ofs rate a b missing, Does l (.clockCorrection l ofs rate a b missing) fun L M =>
    M.getS F.FLX_CORR_OFS = satS 16 ofs ∧ M.getS F.FLX_CORR_RATE = satS 16 rate ∧ M.get F.FLX_POC_SYNCA = min 15 a ∧
    (L.poc = 4 → L.corrIn ofs rate = false → L.calm Ev.FLX_CC_LIMIT = true → M.poc = 5 ∧ M.get F.FLX_POC_TXINH = 1 ∧
      M.get F.FLX_POC_PCAUSE = 1 ∧ M.flagged Ev.FLX_CC_LIMIT) ∧
    (L.poc = 4 → L.corrIn ofs rate = true → missing = true → M.poc = 5 ∧ M.get F.FLX_POC_PCAUSE = 2) ∧
    (L.poc = 4 → L.corrIn ofs rate = true → missing = false → M.poc = 4 ∧ L.only [R.FLX_CORR.addr 0 0, R.FLX_POC.addr 0 0] M) ∧
    (L.poc = 5 → L.corrIn ofs rate = true → L.syncEnough a b = true → missing = false → max 1 (L.get F.FLX_CCLIM_PCP) ≤ L.flx.inLim + 1 →
      M.poc = 4 ∧ M.get F.FLX_POC_TXINH = 0 ∧ M.get F.FLX_POC_PCAUSE = 0)) ∧
  (∀ l, Does l (.waketx l) fun L M => (L.poc = 1 → M.flx.wakeOut = some (L.is F.FLX_CTL_WAKECH) ∧ L.only [] M) ∧
    (L.poc ≠ 1 → M.shows Ev.FLX_CFG_ERR ∧ M.flx = L.flx ∧ L.only (evRegs .flx 0) M)) ∧
  (∀ l, Does l (.flxWake l) fun L M => M.get F.FLX_POC_WCAUSE = 4 ∧ L.woken M 4 0)

/-- FlexRay's buffers (R430 to R434, R437, R440): a faulty frame and a slot boundary violation are counted, the first frame of a slot goes
into its buffer alone, the read lock is taken and released, a commit makes the buffer pending, and its payload is taken for its slot. A
buffer keeps at most PLEN words (log 64). -/
def Obligations.FlexRayBuffers : Prop :=
  (∀ l f, Does l (.flxRxFrame l f) fun L M => M.flx.listenAt = L.now ∧
    let inWin : Prop := f.ofsUt.natAbs ≤ max 1 (L.get F.FLX_INTEG_APWIN) ∧ f.overrun = false
    (f.syntaxErr = true → M.flagged Ev.FLX_SYNTAX ∧ M.flx.cycBad = true ∧
      M.get F.FLX_CNT_SYNTAX = min (2 ^ F.FLX_CNT_SYNTAX.w - 1) (L.get F.FLX_CNT_SYNTAX + 1) ∧ L.memKept M) ∧
    (f.syntaxErr = false → L.flxRuns = false → L.only [] M) ∧
    (f.syntaxErr = false → L.flxRuns = true → ¬ inWin → M.flx.cycBad = true ∧
      M.get F.FLX_CNT_SBV = min (2 ^ F.FLX_CNT_SBV.w - 1) (L.get F.FLX_CNT_SBV + 1) ∧
      ∀ m, L.bufFor f = some m → M.bg m 8 4 1 = 1 ∧ M.shows Ev.FLX_SLOT_BOUNDARY) ∧
    (f.syntaxErr = false → L.flxRuns = true → inWin → L.bufFor f = none → L.only [] M) ∧
    (∀ m, f.syntaxErr = false → L.flxRuns = true → inWin → L.bufFor f = some m → L.flx.rxNow.contains m = false → L.flx.lockOf m = none →
      f.nullF = false → M.bg m 8 0 1 = 1 ∧ M.bg m 0xC 0 32 = f.ts.toNat ∧
      m ∈ M.flx.rxNow ∧ M.memBytes (flxPool (8 * L.bg m 4 8 12)) (L.bufPart m f).length = L.bufPart m f ∧
      bit (M.reg R.FLX_RXEV 0 (m / 32)) (m % 32) = true ∧ L.outside [.flx, .msup] M ∧
      ∀ a, (a < bufAddr m 8 ∨ bufAddr m 16 ≤ a) → (a < flxPool (8 * L.bg m 4 8 12) ∨
        flxPool (8 * L.bg m 4 8 12) + (L.bufPart m f).length ≤ a) → M.byte a = L.byte a)) ∧
  (∀ l (m : Fin 128) w, Does l (.flxLockRead l m w) fun L M => M.cmdq.busData = L.memWord (bufAddr m.val 8) ∧ L.outside [] M ∧
    L.memOutside M (bufAddr m.val 8) (bufAddr m.val 12) ∧
    (L.flx.lockOf m.val = none → M.bg m.val 8 7 1 = 1 ∧ M.flx.lockOf m.val = some { obj := m.val, who := w, at_ := L.now }) ∧
    (L.flx.lockOf m.val ≠ none → L.only [] M ∧ M.flx = L.flx)) ∧
  (∀ l (m : Fin 128) w, Does l (.flxUnlockRead l m w) fun L M => M.cmdq.busData = L.memWord (bufAddr m.val 0xC) ∧
    (∀ k, L.flx.lockOf m.val = some k → k.who ≠ w → L.only [] M ∧ M.flx = L.flx) ∧
    (∀ k, L.flx.lockOf m.val = some k → k.who = w → M.flx.lockOf m.val = none ∧
      (L.flx.shadow.filter (fun h => h.1 == m.val) = [] → L.flx.seconds.filter (fun h => h.1 == m.val) = [] → M.bg m.val 8 0 2 = 0 ∧ M.bg m.val 8 7 1 = 0 ∧
        L.memOutside M (bufAddr m.val 8) (bufAddr m.val 12) ∧ L.outside [] M))) ∧
  (∀ l (k : Fin 4) mask, Does l (.flxTxrq l k mask) fun L M => L.memOutside M (bufAddr (32 * k.val) 0) (bufAddr (32 * k.val + 32) 0) ∧
    L.outside [.pwr, .alm] M ∧ ∀ i, i < 32 →
    (bit mask.toNat i = true → L.bg (32 * k.val + i) 0 0 2 = 2 → M.bg (32 * k.val + i) 8 8 1 = 1) ∧
    (bit mask.toNat i = false ∨ L.bg (32 * k.val + i) 0 0 2 ≠ 2 → M.bg (32 * k.val + i) 8 0 32 = L.bg (32 * k.val + i) 8 0 32)) ∧
  (∀ l (m : Fin 128) slot, Does l (.payloadTake l m slot false) fun L M => m.val ∈ M.flx.txNow ∧
    L.memOutside M (bufAddr m.val 8) (bufAddr m.val 12) ∧
    (L.bg m.val 0 4 11 ≤ L.get F.FLX_CYC_NSS → L.bufReady m.val = true → L.flx.lockOf m.val = none → L.bufPoison m.val = none →
      M.flx.sent = some (m.val, L.memBytes (flxPool (8 * L.bg m.val 4 8 12)) (2 * L.bg m.val 4 0 7)) ∧
      bit (M.reg R.FLX_TXEV 0 (m.val / 32)) (m.val % 32) = true ∧ (L.bg m.val 0 25 1 = 0 → M.bg m.val 8 8 1 = 0) ∧
      L.outside [.flx, .pwr, .alm] M) ∧
    (L.bg m.val 0 4 11 ≤ L.get F.FLX_CYC_NSS → L.bufReady m.val = false → L.bg m.val 0 25 1 = 0 →
      M.flx.sent = some (m.val, []) ∧ L.only [] M) ∧
    (L.get F.FLX_CYC_NSS < L.bg m.val 0 4 11 → L.bufReady m.val = true → L.get F.FLX_DYN_LATEST < slot →
      M.bg m.val 8 8 1 = 1 ∧ M.flx.sent = L.flx.sent ∧
      M.get F.FLX_CNT_DYNLATE = min (2 ^ F.FLX_CNT_DYNLATE.w - 1) (L.get F.FLX_CNT_DYNLATE + 1) ∧ L.only [R.FLX_CNT.addr 0 0] M)) ∧
  (∀ l (m : Fin 128) slot, DoesWhen l (.payloadTake l m slot true) (fun L => L.bufReady m.val = true ∧ L.flx.lockOf m.val = none ∧
      L.bg m.val 0 4 11 ≤ L.get F.FLX_CYC_NSS) fun _ M =>
    M.bg m.val 8 8 1 = 0 ∧ M.flx.sent = some (m.val, []) ∧ M.flagged Ev.FLX_MEMERR ∧ M.get F.MSUP_LAST_KIND = 3)

/-- Sending twin-path frames (R449 to R453, R463): a request past LEN or a MULTI one without SEQ is CFG_ERR and sends nothing, nor does a
MULTI one of a lane that is no member; any other takes the entry's next SEQ, or the one written, and places its frame, with its safety
header and CRC, on each path in service. Receiving twin-path frames (R454 to R458, R461): a copy on no entry changes nothing in TWP, one
that fails a check is counted with its event, the first of a SEQ opens a comparison, an equal second one is accepted and an unequal one
discarded as COPY_DIFF; a window's end accepts a lone copy on a ONE entry alone; POP removes the oldest frame; a silent partner is shown.
The comparison and the choice of the entry are read as logs 24 and 65 say, path B and PHY delays as log 146. -/
def Obligations.TwinPathFrames : Prop :=
  (
  (∀ l (e : Fin 64) p, DoesWhen l (.twpTxreq l e p) (fun L => L.didUnread e.val = false ∧ (L.dg e.val 4 16 11 < p.length ∨
      (L.dg e.val 0 18 1 = 1 ∧ L.twp.txSeqNext = none))) fun L M =>
    M.shows Ev.TWP_CFG_ERR ∧ M.twp = L.twp ∧ L.only (evRegs .twp 0) M) ∧
  (∀ l (e : Fin 64) p, DoesWhen l (.twpTxreq l e p) (fun L => L.didUnread e.val = false ∧ p.length ≤ L.dg e.val 4 16 11 ∧
      L.dg e.val 0 18 1 = 0) fun L M =>
    let q := L.twp.txSeq.getD e.val 0 + 1
    M.twp.txSeq.getD e.val 0 = q ∧
      (L.pathA e.val = false → L.pathB e.val = false → L.only [] M ∧ M.twp.outB = L.twp.outB) ∧
      (L.pathA e.val = false → L.pathB e.val = true → M.twp.outB.head? = some ⟨L.dg e.val 8 13 6, BitVec.ofNat 16 q.toNat,
        L.twpFrame e.val q p true true⟩ ∧ M.dg e.val 0x10 0 32 = q.toNat ∧
        M.dg e.val 0x14 0 16 = min 65535 (L.dg e.val 0x14 0 16 + 1) ∧ L.memOutside M (didAddr e.val 0x10) (didAddr e.val 0x18) ∧
        L.outside [.pwr, .alm] M) ∧
      (L.pathA e.val = true → L.aCar e.val = 2 → p.length ≤ 40 → M.dg e.val 0x10 0 32 = q.toNat ∧
        M.memBytes (objAddr (L.dg e.val 8 3 2) (L.dg e.val 8 5 7) 0x1C) (24 + p.length) =
          L.twpFrame e.val q p (!L.pathB e.val) false ∧ L.outside [.can, .pwr, .alm] M)) ∧
  (∀ l (e : Fin 64) p q, DoesWhen l (.twpTxreq l e p) (fun L => L.didUnread e.val = false ∧ p.length ≤ L.dg e.val 4 16 11 ∧
      L.dg e.val 0 18 1 = 1 ∧ L.twp.txSeqNext = some q) fun L M => M.twp.txSeqNext = none ∧ M.twp.txSeq = L.twp.txSeq ∧
    (L.isMember L.strap = false → L.only [] M ∧ M.twp.outB = L.twp.outB) ∧
    (L.isMember L.strap = true → L.standby = false → L.pathA e.val = false → L.pathB e.val = true → M.twp.outB.head? =
      some ⟨L.dg e.val 8 13 6, BitVec.ofNat 16 q.toNat, L.twpFrame e.val q p true true⟩ ∧ M.dg e.val 0x10 0 32 = q.toNat)) ∧
  (∀ (L : Lane) i q p single pathB, (L.twpFrame i q p single pathB).length = 24 + p.length ∧
    fieldBE (L.twpFrame i q p single pathB) 4 4 = q.toNat ∧
    fieldBE (L.twpFrame i q p single pathB) 20 4 = (twpCrc (L.dg i 0 0 16) ((L.twpFrame i q p single pathB).take 20) p).toNat ∧
    (L.twpFrame i q p single pathB).drop 24 = p))
  ∧
  (
  (∀ l car f, DoesWhen l (.copy l car f) (fun L => ∀ i, L.twpEntry car f = some i → L.didUnread i = false) fun L M =>
    (L.twpEntry car f = none → M.twp = L.twp ∧ L.memKept M ∧ L.outside [.pwr, .alm] M) ∧
    (∀ i e, L.twpEntry car f = some i → L.twpCheck i f = some e → M.twp = L.twp ∧ M.shows e ∧
      M.dg i 0x1C 0 16 = min 65535 (L.dg i 0x1C 0 16 + 1) ∧ L.memOutside M (didAddr i 0x1C) (didAddr i 0x20)) ∧
    (∀ i, L.twpEntry car f = some i → L.twpCheck i f = none → L.twp.opens = [] → L.twp.closed = [] →
      (seqOf f).toNat ≠ L.dg i 0x10 0 32 → bit (fieldBE f 14 1) 0 = false →
      M.twp = { L.twp with opens := [⟨i, seqOf f, onPathB f, f, L.now + L.winT i⟩] } ∧ L.memKept M ∧ L.outside [.pwr, .alm] M) ∧
    (∀ i g e, L.twpEntry car f = some i → L.twpCheck i f = none → L.twp.opens = [⟨i, seqOf f, !onPathB f, g, e⟩] → L.now ≤ e →
      L.twp.closed = [] → (seqOf f).toNat ≠ L.dg i 0x10 0 32 → M.twp.opens = [] ∧ M.dg i 0x10 0 32 = (seqOf f).toNat ∧
      L.outside ethBlks M ∧
      (comparedPart f = comparedPart g → L.twp.rxq.length < 32 → M.twp.rxq = L.twp.rxq ++ [⟨i, false, g⟩] ∧
        M.dg i 0x14 0 16 = min 65535 (L.dg i 0x14 0 16 + 1) ∧ M.get F.TWP_RXQ_COUNT = L.twp.rxq.length + 1) ∧
      (comparedPart f ≠ comparedPart g → M.twp.rxq = L.twp.rxq ∧ M.shows Ev.TWP_COPY_DIFF ∧ L.pulsed M 110 ∧
        M.dg i 0x18 0 16 = min 65535 (L.dg i 0x18 0 16 + 1)))) ∧
  (∀ l (i : Fin 64), Does l (.comparisonEnd l i) fun L M =>
    ((∀ o ∈ L.twp.opens, o.entry = i.val → L.now < o.endAt) → M = L) ∧
    (∀ o, L.twp.opens = [o] → o.entry = i.val → o.endAt ≤ L.now → M.twp.opens = [] ∧ M.dg i.val 0x10 0 32 = o.seq.toNat ∧
      L.outside ethBlks M ∧
      (L.dg i.val 0 19 1 = 1 → L.twp.rxq.length < 32 → M.twp.rxq = L.twp.rxq ++ [⟨i.val, true, o.frame⟩] ∧
        M.shows Ev.TWP_ACCEPT_DEGRADED) ∧
      (L.dg i.val 0 19 1 = 0 → M.twp.rxq = L.twp.rxq ∧ M.shows Ev.TWP_LONE_DROP ∧
        M.dg i.val 0x18 16 16 = min 65535 (L.dg i.val 0x18 16 16 + 1)))) ∧
  (∀ l, Does l (.rxqPop l) fun L M => M.twp = { L.twp with rxq := L.twp.rxq.tail } ∧ 
    (∀ a, a ≠ R.TWP_RXQ.addr 0 0 → a ≠ F.MSUP_UE_POISON.reg.addr 0 0 → M.rd a = L.rd a) ∧
    M.get F.TWP_RXQ_COUNT = (L.twp.rxq.length - 1) % 64 ∧
    ∀ a x y r, L.twp.rxq = x :: y :: r → y.frame.length ≤ 0x418 → a < 0x40172000 ∨ 0x40172418 ≤ a → M.byte a = L.byte a) ∧
  (∀ l, Does l (.pairSilent l) fun L M => L.sets F.TWP_PAIROFS_SILENT 1 M ∧ M.shows Ev.TWP_PAIR_SILENT ∧
    L.only (R.TWP_PAIROFS.addr 0 0 :: evRegs .twp 0) M) ∧
  (∀ l (i : Fin 64), Does l (.didEnable l i true) fun L M => L.memOutside M (didAddr i.val 0) (didAddr i.val 4) ∧
    (L.didBad i.val = true → M.dg i.val 0 16 1 = 0 ∧ M.shows Ev.TWP_CFG_ERR) ∧ (L.didBad i.val = false → M.dg i.val 0 16 1 = 1 ∧ L.outside [] M) ∧
    M.dg i.val 0 0 16 = L.dg i.val 0 0 16 ∧ M.dg i.val 0 17 15 = L.dg i.val 0 17 15) ∧
  (∀ l (i : Fin 64), Does l (.didEnable l i false) fun L M => M.dg i.val 0 16 1 = 0 ∧ M.dg i.val 0 0 16 = L.dg i.val 0 0 16 ∧
    M.dg i.val 0 17 15 = L.dg i.val 0 17 15 ∧ L.memOutside M (didAddr i.val 0) (didAddr i.val 4) ∧ L.outside [] M))

/-- The switch (R444 to R448, R464, R465): the offset of domain V, a grandmaster's change with source 102, the admin list requested and taken
over with source 103, the gates of a port, PLCA lost and back, a wake with cause 5, links and the vote. How ETH's tables hold the gate
list is an opaque function (logs 107 and 148); clock quality is a free value (log 147). -/
def Obligations.SwitchCommands : Prop :=
  (∀ l (p : Fin 3) t, Does l (.sync l p t) fun L M =>
    M.getS F.ETH_PTP_OFSV_OFS = satS 32 ((t.toNat : Int) - 5 * (((L.mtN : Int) - nsTicks (L.get F.ETH_PORT_DLY_RXD 0 p.val) +
      L.getS F.TWP_PAIROFS_OFS) % (2 : Int) ^ 64)) ∧
    M.get F.ETH_PTP_SLVV = 1 ∧ M.eth.lastFrame = L.now ∧ M.eth.rxTs.getD p.val none = some (L.ingressTs p.val) ∧ L.memKept M ∧
    L.outside [.eth, .pwr, .alm] M) ∧
  (∀ l domV best, Does l (.gptpAnnounce l domV best) fun L M =>
    let self := !domV && L.isMaster best
    let new := if self then some L.ownAnnounce.id else best.map (fun a => a.id)
    M.eth.gm.getD (b2n domV) none = new ∧ (domV = false → M.is F.ETH_PTP_GMMT = self) ∧ (domV = true → new = none → M.get F.ETH_PTP_SLVV = 0) ∧
    (new ≠ L.eth.gm.getD (b2n domV) none → M.shows Ev.ETH_GM_CHANGE ∧ L.pulsed M 102) ∧
    (new = L.eth.gm.getD (b2n domV) none → M.ip = L.ip ∧ L.only [R.ETH_PTP.addr 0 0] M) ∧
    L.only (R.ETH_PTP.addr 0 0 :: evRegs .eth 0) M) ∧
  (∀ l (p : Fin 3), DoesWhen l (.qbvSwap l p) (fun L => L.poisonedIn 0x40161000 0xF000 = false) fun L M =>
    L.sets F.ETH_QBV_PEND 1 M 0 p.val ∧ M.eth.admin.getD p.val none = some (L.adminList p.val) ∧ M.eth.oper = L.eth.oper ∧
    L.only [R.ETH_QBV.addr 0 p.val] M) ∧
  (∀ l (p : Fin 3), DoesWhen l (.qbvSwap l p) (fun L => L.poisonedIn 0x40161000 0xF000 = true) fun L M =>
    M.flagged Ev.ETH_MEMERR ∧ M.eth.admin = L.eth.admin ∧ M.is F.ETH_QBV_PEND 0 p.val = L.is F.ETH_QBV_PEND 0 p.val) ∧
  (∀ l (p : Fin 3) g, DoesWhen l (.gclTakeover l p) (fun L => L.eth.admin.getD p.val none = some g) fun L M =>
    L.sets F.ETH_QBV_PEND 0 M 0 p.val ∧ M.eth.oper.getD p.val none = some { g with base := L.pairTime } ∧
    M.eth.admin.getD p.val none = none ∧ L.pulsed M 103 ∧ L.only [R.ETH_QBV.addr 0 p.val] M) ∧
  (∀ l (p : Fin 3) g, DoesWhen l (.gateControlEvent l p) (fun L => L.gatesDue p.val = some g) fun L M =>
    M.eth.gates.getD p.val 0 = g ∧ M.eth.lastFrame = L.eth.lastFrame ∧ L.only [] M) ∧
  (∀ l, Does l (.plcaLost l) fun L M => L.sets F.ETH_T1S_FALLBK 1 M ∧ M.shows Ev.ETH_PLCA_LOST ∧
    L.only (R.ETH_T1S.addr 0 0 :: evRegs .eth 0) M) ∧
  (∀ l, Does l (.plcaBeacon l) fun L M => L.sets F.ETH_T1S_FALLBK 0 M ∧ L.only [R.ETH_T1S.addr 0 0] M) ∧
  (∀ l, Does l (.t1sWake l) fun L M => L.woken M 5 0) ∧
  (∀ l (p : Fin 3), Does l (.portLinkChange l p true) fun L M => M.get F.ETH_PORT_STAT_LINK 0 p.val = 1 ∧
    M.get F.ETH_PORT_STAT_LCHG 0 p.val = 1 ∧ M.voteOf 8 9 = 2 ∧ L.memKept M ∧ L.outside [.eth, .pwr, .alm] M) ∧
  (∀ l (p : Fin 3), Does l (.portLinkChange l p false) fun L M =>
    M.get F.ETH_PORT_STAT_LINK 0 p.val = 0 ∧ M.get F.ETH_PORT_STAT_LCHG 0 p.val = 1 ∧ M.flagged Ev.ETH_LINK_DOWN ∧
    L.memKept M ∧ (L.calm Ev.ETH_LINK_DOWN 0 p.val = true → L.outside [.eth, .pwr, .alm] M)) ∧
  (∀ l, Does l (.ethVoteLapse l) fun L M => M.voteOf 8 9 = 0 ∧ L.memKept M ∧ L.outside [.pwr, .alm] M)

/-- Votes and power domains (R470, R471, R473 to R479): a vote sets, replaces or withdraws its client's, one ruled out is a bus error; a drop
and a raise go through their steps, a bank lost in retention is shown and wiped, and a failed step leaves the domain OFF with its elements
pruned. -/
def Obligations.PowerDomains : Prop :=
  (∀ l m val, Does l (.pwrVote l m val) fun L M =>
    let d := bits val.toNat 0 5
    let v := bits val.toNat 8 2
    let c := bits val.toNat 16 8
    (mayVote m c = false ∨ (d ≠ 0x1F ∧ 20 < d) ∨ (v = 1 ∧ 0 < d ∧ d ≤ 20 ∧ L.retIgnored d = true) →
      M.shows (Ev.BUS_ERR .sys) ∧ L.only (evRegs .sys 0) M) ∧
    (mayVote m c = true → 0 < d → d ≤ 20 → v ≠ 3 → (v = 1 → L.retIgnored d = false) → L.pwr.sleep = .awake →
      M.voteOf d c = v ∧ L.memKept M ∧ L.outside [.pwr, .alm] M) ∧
    (mayVote m c = true → d ≤ 20 → v = 3 → M = L) ∧
    (mayVote m c = true → d = 0x1F → v = 0 → (∀ e, 0 < e → e ≤ 20 → M.voteOf e c = 0) ∧ L.memKept M ∧ L.outside [.pwr, .alm] M)) ∧
  (∀ l (d : Fin 21), Does l (.domainDrop l d) fun L M => ∀ step dst t, L.domPhase d.val = .drop step dst t → d.val ≠ 0 →
    (step = 1 → M.domPhase d.val = .drop (if dst = 1 then 2 else 3) dst L.now) ∧
    (step = 2 → M.domPhase d.val = .drop 3 dst L.now ∧ L.only [] M) ∧
    (step = 3 → M.domPhase d.val = .drop 4 dst L.now ∧ L.only [] M) ∧
    (step = 4 → dst < 2 → L.votesFor d.val = dst → M.domPhase d.val = .stable ∧ M.get F.PWR_D_STAT_STATE 0 d.val = dst ∧
      M.get F.PWR_D_STAT_LOGIC_RDY 0 d.val = 0 ∧ (dst = 0 → (∀ a, inDom d.val a = true → M.rd a = resetWord L.strap a) ∧
        ∀ r ∈ domMem d.val, ∀ a, r.1 ≤ a → a < r.2 → M.byte a = 0) ∧
      (dst = 1 → L.memKept M ∧ L.outside [.pwr, .alm] M))) ∧
  (∀ l (d : Fin 21), Does l (.retentionSigned l d) fun L M => (L.pwr.sleep ≠ .sign → M.domPhase d.val = .drop 3 1 L.now ∧ L.only [] M) ∧
    (L.pwr.sleep = .sign → (L.setDom d.val (.drop 3 1 L.now)).signing = true → M.pwr.sleep = .sign ∧ M.domPhase d.val = .drop 3 1 L.now) ∧
    (L.pwr.sleep = .sign → (L.setDom d.val (.drop 3 1 L.now)).signing = false → L.is F.PREQ_STAT_FAULT = false → M.pwr.sleep = .frames ∧
      L.only [] M)) ∧
  (∀ l (d : Fin 21) flips chain, Does l (.domainStepReady l d flips chain) fun L M => ∀ step t ret, L.domPhase d.val = .rise step t ret →
    (step = 1 → L.sets F.PWR_D_STAT_REG_RDY 1 M 0 d.val ∧ M.domPhase d.val = .rise 2 L.now ret ∧ L.only [R.PWR_D_STAT.addr 0 d.val] M) ∧
    (step = 2 → L.sets F.PWR_D_STAT_OSC_RDY 1 M 0 d.val ∧ M.domPhase d.val = .rise 3 L.now ret ∧ L.only [R.PWR_D_STAT.addr 0 d.val] M) ∧
    (step = 3 → ret = false ∨ (flips = [] ∧ chain = false) → L.sets F.PWR_D_STAT_MEM_RDY 1 M 0 d.val ∧
      M.domPhase d.val = .rise 4 L.now ret ∧ L.only [R.PWR_D_STAT.addr 0 d.val] M) ∧
    (step = 3 → ret = true → chain = false → 13 ≤ d.val → L.lostBanks d.val flips = [0] →
      bit (M.reg R.PWR_RETLOST) (d.val - 13) = true ∧ M.flagged Ev.PWR_RET_LOST ∧ M.get F.PWR_D_STAT_MEM_RDY 0 d.val = 1 ∧
      ∀ a, (0x20000000 + 0x80000 * (d.val - 13) ≤ a ∧ a < 0x20080000 + 0x80000 * (d.val - 13) → M.byte a = 0) ∧
        (a < 0x20000000 + 0x80000 * (d.val - 13) ∨ 0x20080000 + 0x80000 * (d.val - 13) ≤ a → M.byte a = L.byte a)) ∧
    (step = 4 → d.val ≠ 0 → L.anyVote d.val 2 = true → M.get F.PWR_D_STAT_STATE 0 d.val = 2 ∧ M.get F.PWR_D_STAT_LOGIC_RDY 0 d.val = 1 ∧
      M.domPhase d.val = .stable ∧ L.memKept M)) ∧
  (∀ l (d : Fin 21), Does l (.stepFail l d) fun _ M => M.get F.PWR_D_STAT_STATE 0 d.val = 0 ∧ M.domPhase d.val = .stable ∧
    M.flagged Ev.PWR_STEP_FAIL ∧ ∀ e ∈ domElems d.val, M.pruned e = true)

/-- Parked sleep and waking (R480, R489 to R497): a request is held, refused by an ON vote, aborted by a wake in its cycle, or the entry
begins; the pin and the third sample above BTH wake with causes 6 and 8; a cold formation wipes every retained memory. Domains a wake
needs come up by kernel votes (log 67). -/
def Obligations.SleepAndWake : Prop :=
  (∀ l wake, Does l (.sleepReq l wake) fun L M =>
    let held := (List.range 21).filter (fun d => d != 0 && (L.is F.PWR_D_VOTES_IMPL 0 d || L.anyVote d 2))
    (L.is F.CLK_LEVEL_BUSY = true → M.pwr.sleep = .held ∧ M.get F.PWR_SLEEP_BUSY = 1 ∧ L.only [R.PWR_SLEEP.addr 0 0] M) ∧
    (∀ c, L.is F.CLK_LEVEL_BUSY = false → wake = some c → M.pwr.sleep = .awake ∧ M.get F.PWR_SLEEP_RESULT = 3 ∧
      M.get F.PWR_SLEEP_BUSY = 0 ∧ M.get F.PWR_SLEEP_CODE = 0x81 + c.val ∧ M.flagged Ev.PWR_SLEEP_ABORTED) ∧
    (∀ d ds, L.is F.CLK_LEVEL_BUSY = false → wake = none → L.pwr.wakeDue = none → held = d :: ds → M.pwr.sleep = .awake ∧ M.get F.PWR_SLEEP_RESULT = 2 ∧
      M.get F.PWR_SLEEP_BUSY = 0 ∧ M.get F.PWR_SLEEP_CODE = L.lowClient d ∧ M.flagged Ev.PWR_SLEEP_REFUSED ∧
      M.get F.PWR_D_CNT_REFUSED 0 d = min 255 (L.get F.PWR_D_CNT_REFUSED 0 d + 1)) ∧
    (L.is F.CLK_LEVEL_BUSY = false → wake = none → L.pwr.wakeDue = none → held = [] → M.pwr.sleep ≠ .awake)) ∧
  (∀ l high, Does l (.wakePin l high) fun L M => L.woken M 6 0 ∧ (L.pwr.sleep = .awake → L.only [] M ∧ M.pwr.sleep = .awake ∧ M.pwr.keyOff = false)) ∧
  (∀ l mv, Does l (.bemfSample l mv) fun L M =>
    let past (b : Nat) : Bool := L.fbit F.PWR_BEMF_BR b && decide (50 * max 1 (L.get F.PWR_BEMF_BTH) < mv.getD b 0)
    (∀ b, b < 4 → M.pwr.bemf.getD b 0 = if past b then min 3 (L.pwr.bemf.getD b 0 + 1) else 0) ∧ M.pwr.bemfAt = L.now ∧
    (∀ b, b < 4 → past b = true → 2 ≤ L.pwr.bemf.getD b 0 → L.is F.PWR_WAKEEN_BEMF = true → L.woken M 8 0) ∧
    (L.is F.PWR_WAKEEN_BEMF = false → M.pwr.sleep = .parked ∧ L.only [] M)) ∧
  (∀ l, DoesIn l (.coldForm l) (fun s => ∀ x, x ≠ l → (s.lane x).ozl.readyAt = none ∨ (s.lane x).reg R.PWR_RETLOST ≠ 0) fun s t =>
    (t.lane l).reg R.PWR_RETLOST = 0 ∧ (t.lane l).get F.PWR_WAKE_WARM = 0 ∧
    (∀ a, (0x20000000 ≤ a ∧ a < 0x20400000) ∨ (0x10000000 ≤ a ∧ a < 0x10040000) ∨ (0x10100000 ≤ a ∧ a < 0x10120000) →
      (t.lane l).byte a = 0) ∧ t = s.setLane l (t.lane l) ∧ (s.lane l).outside [.pwr, .msup] (t.lane l))

/-- PREQ (R482 to R488): the request of the highest rank starts an exchange, after PMIC_FAULT a STATUS request alone; an echo ends it, keeps
it waiting, or sends it again; the six requests take their place by rank, and SET_RAIL outside R486's limits is refused. A rail's target
before any exchange is its nominal voltage (log 20). -/
def Obligations.PreqExchanges : Prop :=
  (∀ l, Does l (.preqExchange l) fun L M => ∀ r rest, L.pwr.queue = r :: rest → L.is F.PREQ_STAT_FAULT = false ∨ (r.cmd = 4 ∧ rest = []) →
    M.pwr = { L.pwr with queue := rest, run := some ⟨r, (L.get F.PREQ_STAT_SEQ + 1) % 16, 0, L.now + 680, L.now + 1760, false⟩ } ∧ M.get F.PREQ_STAT_BUSY = 1 ∧ M.get F.PREQ_STAT_SEQ = (L.get F.PREQ_STAT_SEQ + 1) % 16 ∧
    L.only [R.PREQ_STAT.addr 0 0] M) ∧
  (∀ l, DoesWhen l (.preqExchange l) (fun L => L.is F.PREQ_STAT_FAULT = true ∧ ∀ r, r ∈ L.pwr.queue → r.cmd ≠ 4) fun L M =>
    M.pwr.queue = [] ∧ M.pwr.run = none ∧ M.get F.PREQ_STAT_BUSY = L.get F.PREQ_STAT_BUSY) ∧
  (∀ l echo, Does l (.preqRead l echo) fun L M => ∀ x, L.pwr.run = some x →
    let st := bits echo.toNat 28 4
    let good : Prop := echo ≠ 0xFFFFFFFF ∧ preqCrcOk echo = true ∧ bits echo.toNat 8 4 = x.seq
    (good → st = 0 → x.req.rank = 3 → x.req.cmd = 1 → x.req.rail < 3 → M.pwr.run = none ∧ M.get F.PREQ_STAT_BUSY = 0 ∧ L.pulsed M 113 ∧
      M.get F.PREQ_STAT_LASTST = 0 ∧ M.get F.PREQ_RAIL_TARGET 0 x.req.rail = bits echo.toNat 12 12 ∧
      L.only [R.PREQ_STAT.addr 0 0, R.PREQ_RAIL.addr 0 x.req.rail] M) ∧
    (good → st = 2 ∨ st = 3 → x.req.rank = 3 → M.pwr.run = none ∧ M.shows Ev.PREQ_PREQ_NAK ∧ L.pulsed M 113 ∧
      M.get F.PREQ_CNT_NAK = min 255 (L.get F.PREQ_CNT_NAK + 1) ∧
      L.only ([R.PREQ_STAT.addr 0 0, R.PREQ_CNT.addr 0 0] ++ evRegs .preq 0) M) ∧
    (good → st = 4 → M.pwr.run = some { x with t0 := L.now, busy := true, nextAt := L.now + 2680 } ∧ L.only [R.PREQ_STAT.addr 0 0] M) ∧
    (good → st = 1 → x.req.rank = 3 → L.resent M x) ∧
    (good → 5 ≤ st → x.req.rank = 3 → M.pwr.run = none ∧ M.shows Ev.PREQ_PMIC_RAIL) ∧
    (echo = 0xFFFFFFFF → L.now < x.t0 + us 100 → x.busy = false → M.pwr.run = some { x with nextAt := L.now + 2680 } ∧ L.only [] M) ∧
    (echo ≠ 0xFFFFFFFF → preqCrcOk echo = false ∨ bits echo.toNat 8 4 ≠ x.seq → L.calm Ev.PREQ_PREQ_CRC = true → x.req.rank = 3 →
      M.get F.PREQ_CNT_CRCERR = min 255 (L.get F.PREQ_CNT_CRCERR + 1) ∧ M.flagged Ev.PREQ_PREQ_CRC ∧ L.resent M x)) ∧
  (∀ l, Does l (.preqTimeout l) fun L M => ∀ x, L.pwr.run = some x → L.calm Ev.PREQ_PREQ_TIMEOUT = true → x.req.rank = 3 →
    M.get F.PREQ_CNT_TMO = min 255 (L.get F.PREQ_CNT_TMO + 1) ∧ M.flagged Ev.PREQ_PREQ_TIMEOUT ∧ L.resent M x) ∧
  (∀ l, Does l (.pmicStatusPoll l) fun L M => M.pwr.pollAt = L.now ∧
    L.queued { M with pwr := { M.pwr with pollAt := L.pwr.pollAt } } { rank := 3, cmd := 4, rail := 0, value := 0 }) ∧
  (∀ l rail (value : BitVec 12), Does l (.setRail l rail value) fun L M =>
    let bad : Prop := (rail = 0 ∧ (value.toNat < 720 ∨ 880 < value.toNat)) ∨ (rail = 1 ∧ value ≠ 1800) ∨ (rail = 2 ∧ value ≠ 3300)
    (bad → M.shows Ev.PREQ_RAIL_REFUSED ∧ M.pwr = L.pwr ∧ L.only (evRegs .preq 0) M) ∧
    (¬ bad → L.queued M { rank := 3, cmd := 1, rail := rail.toNat, value := value.toNat })) ∧
  (∀ l (rail : BitVec 4) (value : BitVec 12),
    (Does l (.preqEnable l rail value) fun L M => L.queued M { rank := 3, cmd := 2, rail := rail.toNat, value := value.toNat }) ∧
    (Does l (.preqDisable l rail value) fun L M => L.queued M { rank := 3, cmd := 3, rail := rail.toNat, value := value.toNat }) ∧
    (Does l (.preqStatus l rail value) fun L M => L.queued M { rank := 3, cmd := 4, rail := rail.toNat, value := value.toNat }) ∧
    (Does l (.preqSleep l rail value) fun L M => L.queued M { rank := 3, cmd := 5, rail := rail.toNat, value := value.toNat }) ∧
    (Does l (.wakeCfg l rail value) fun L M => L.queued M { rank := 3, cmd := 6, rail := rail.toNat, value := value.toNat })) ∧
  (∀ head, head < 2 ^ 24 → preqCrcOk (preqFrame head) = true)

/-- Hard-wired thermal shutdown (R257, R508 to R513): a die sensor newly at T_SD and the second measurement past TRIP stop their bridges, the
stops clear again 100 ms after the last trip with their clear conditions, and an input is fused once, under the conditions of R257. The
trip points of the die sensors are inputs (log 68). -/
def Obligations.ThermalShutdown : Prop :=
  (∀ l (hot : BitVec 2), Does l (.dieSd l hot) fun L M => M.get F.THS_STAT_DIEHOT = hot.toNat ∧
    let new : Prop := ∃ i, i < 2 ∧ bit hot.toNat i = true ∧ L.fbit F.THS_STAT_DIEHOT i = false
    (new → M.get F.THS_STAT_DIESD = 1 ∧ M.shows Ev.THS_DIE_SD ∧ M.ths.dieAt = L.now ∧ (∀ b, b < 4 → M.bridgeOff b) ∧
      L.only (R.THS_STAT.addr 0 0 :: gateRegs ++ evRegs .ths 0) M) ∧
    (¬ new → M.ths = L.ths ∧ L.only [R.THS_STAT.addr 0 0] M)) ∧
  (∀ l (warm : BitVec 2), Does l (.thsRestart l warm) fun L M =>
    M.is F.THS_STAT_DIESD = (L.is F.THS_STAT_DIESD && !(warm == 0 && L.get F.THS_STAT_DIEHOT == 0 && L.since L.ths.dieAt (ms 100))) ∧
    (∀ n, n < 4 → M.fbit F.THS_STAT_TDSD n =
      (L.fbit F.THS_STAT_TDSD n && !(nAt L.ths.clear n == 2 && L.since (nAt L.ths.tdAt n) (ms 100)))) ∧
    M.is F.THS_STAT_REFSD = (L.is F.THS_STAT_REFSD && !(decide (3 ≤ L.ths.refGood) && L.since L.ths.refAt (ms 100))) ∧
    L.only (R.THS_STAT.addr 0 0 :: gateRegs) M) ∧
  (∀ l m val vbat, DoesWhen l (.tdFuse l m val vbat) (fun L => m = .trioM ∧ L.get F.SYS_LC_STATE = 1 ∧
      L.fbit F.GD_VCMD_ENA (bits val.toNat 16 2) = false ∧ L.fbit F.GD_VCMD_ASC (bits val.toNat 16 2) = false ∧ 8000 ≤ vbat ∧
      L.fbit F.THS_TDK_FUSED (bits val.toNat 16 2) = false ∧ bit L.ths.failed.toNat (bits val.toNat 16 2) = false ∧ L.ths.fuse = none) fun L M =>
    M.ths = { L.ths with fuse := some ⟨bits val.toNat 16 2, bits val.toNat 18 2, L.reg R.THS_TDFVAL, L.now⟩ } ∧ L.only [] M) ∧
  (∀ l m val vbat, DoesWhen l (.tdFuse l m val vbat) (fun L => m ≠ .trioM ∨ L.get F.SYS_LC_STATE ≠ 1 ∨
      L.fbit F.GD_VCMD_ENA (bits val.toNat 16 2) = true ∨ L.fbit F.GD_VCMD_ASC (bits val.toNat 16 2) = true ∨ vbat < 8000 ∨
      L.fbit F.THS_TDK_FUSED (bits val.toNat 16 2) = true ∨ bit L.ths.failed.toNat (bits val.toNat 16 2) = true ∨ L.ths.fuse ≠ none) fun L M =>
    M.shows Ev.THS_TD_LOCKED ∧ M.ths = L.ths ∧ L.only (evRegs .ths 0) M) ∧
  (∀ l kind val (f : TdFuse), DoesWhen l (.tdFuseDone l kind val) (fun L => L.ths.fuse = some f ∧ kind.toNat = f.kind ∧ val.toNat = f.val) fun L M =>
    M.ths.fuse = none ∧ M.tdKind f.input = f.kind ∧ M.fbit F.THS_TDK_FUSED f.input = true ∧
    M.get F.THS_TDF_TRIP 0 f.input = bits f.val 0 16 ∧ M.get F.THS_TDF_CLEAR 0 f.input = bits f.val 16 16 ∧ M.shows Ev.THS_TD_FUSED ∧
    L.only ([R.THS_TDK.addr 0 0, R.THS_TDF.addr 0 f.input] ++ evRegs .ths 0) M) ∧
  (∀ l kind val (f : TdFuse), DoesWhen l (.tdFuseDone l kind val) (fun L => L.ths.fuse = some f ∧ (kind.toNat ≠ f.kind ∨ val.toNat ≠ f.val)) fun L M =>
    M.ths.fuse = none ∧ bit M.ths.failed.toNat f.input = true ∧ M.shows Ev.THS_TD_FUSE_ERR ∧ L.only (evRegs .ths 0) M) ∧
  (∀ l raw (r : FurrowRun) n, DoesWhen l (.furrowSlot l raw) (fun L => L.ths.round = some r ∧ slotTd r.slot = some n ∧ L.tdKind n = 2 ∧
      (r.held || L.icvSliced) = false ∧ raw ≤ L.getS F.THS_TDF_TRIP 0 n ∧ raw.natAbs ≤ 1900 ∧ nAt L.ths.past n = 1 ∧
      L.fbit F.THS_STAT_TDSD n = false) fun _ M =>
    M.fbit F.THS_STAT_TDSD n = true ∧ M.bridgeOff n ∧ M.flagged Ev.THS_TD_SD)

/-- The furrow round (R499 to R507): it starts at slot 0, each slot delivers its RAW or is held during a slice of the ICV, the end judges the
references, shows the values in use and the throttle steps that follow from them, counts the round and pulses source 75; above LDLIM LDHOT
is set. The reference slots' full scale is read as log 25 says; conversions to degrees are free values (log 17). -/
def Obligations.FurrowRounds : Prop :=
  (∀ l, Does l (.furrowRound l) fun L M => M.ths = { L.ths with round := some ⟨L.now, 0, L.icvSliced, false⟩ } ∧
    (L.logicOn = true → L.sets F.HK_ROUND_SLOT 0 M) ∧ L.only [R.HK_ROUND.addr 0 0] M) ∧
  (∀ l raw (r : FurrowRun), DoesWhen l (.furrowSlot l raw) (fun L => L.ths.round = some r) fun L M =>
    M.ths.round = some (if r.slot = 23 then { r with endDue := true } else { r with slot := r.slot + 1, held := L.icvSliced }) ∧
    (L.logicOn = true → M.get F.HK_ROUND_SLOT = if r.slot = 23 then 23 else r.slot + 1) ∧
    ((r.held || L.icvSliced) = true → M.hk = L.hk ∧ (L.logicOn = true → M.get F.HK_ROUND_HELD = 1) ∧
      (L.logicOn = true → L.is F.HK_ROUND_HELD = false → M.shows Ev.HK_ROUND_HELD) ∧ L.only (R.HK_ROUND.addr 0 0 :: evRegs .hk 0) M) ∧
    ((r.held || L.icvSliced) = false → L.logicOn = true → L.link.trained = true → M.getS F.HK_SLOT_RAW 0 r.slot = satS 16 raw ∧
      M.get F.HK_ROUND_HELD = 0) ∧
    ((r.held || L.icvSliced) = false → r.slot = 0 → M.ths.refH = raw) ∧ ((r.held || L.icvSliced) = false → r.slot = 12 → M.ths.refZ = raw) ∧
    ((r.held || L.icvSliced) = false → slotTd r.slot = none → L.only ([R.HK_ROUND.addr 0 0, R.HK_SLOT.addr 0 r.slot] ++ evRegs .hk 0) M)) ∧
  (∀ l, Does l (.roundEnd l) fun L M => M.ths.round = none ∧
    M.ths.refBad = (if refPass L.ths.refH L.ths.refZ then 0 else min 3 (L.ths.refBad + 1)) ∧
    (refPass L.ths.refH L.ths.refZ = false → L.ths.refBad = 2 → M.get F.THS_STAT_REFSD = 1) ∧
    (L.logicOn = true → M.is F.HK_ROUND_REFOK = refPass (L.getS F.HK_SLOT_RAW 0 0) (L.getS F.HK_SLOT_RAW 0 12) ∧
      L.pulsed M 75 ∧ M.get F.HK_ROUND_COUNT = (L.get F.HK_ROUND_COUNT + 1) % 2 ^ 16 ∧
      (∀ i v, i < 8 → M.inUse i = some v → M.getS F.HK_TEMP_USE 0 i = satS 16 v) ∧
      (∀ b, b < 4 → M.get F.HK_THR_STEP 0 b = match maxTemp ((if M.hkKind b = 0 then [2, 3] else [4 + b, 2, 3]).filterMap M.inUse) with
        | some t => throttleStep (M.get F.HK_THR_TSTART 0 b) (M.get F.HK_THR_TSTEP 0 b) (L.get F.HK_THR_STEP 0 b) t
        | none => 4) ∧
      (L.hk.ldWarm = false → M.get F.HK_LD_LDHOT = 0) ∧ (L.hk.ldWarm = true → M.get F.HK_LD_LDHOT = L.get F.HK_LD_LDHOT)) ∧
    (L.logicOn = false → L.only (R.THS_STAT.addr 0 0 :: gateRegs ++ evRegs .ths 0) M)) ∧
  (∀ l t0 t1, Does l (.tlSample l t0 t1) fun L M => M.hk.own.getD 0 0 = clampI (-1024) 4000 t0 ∧ M.hk.own.getD 1 0 = clampI (-1024) 4000 t1 ∧
    let hot : Prop := 16 * (L.get F.HK_LD_LDLIM : Int) < t0 ∨ 16 * (L.get F.HK_LD_LDLIM : Int) < t1
    (hot → M.get F.HK_LD_LDHOT = 1) ∧ (hot → L.is F.HK_LD_LDHOT = false → M.shows Ev.HK_LD_HOT ∧ M.hk.ldWarm = true) ∧
    (¬ hot → L.only [] M) ∧ L.only (R.HK_LD.addr 0 0 :: evRegs .hk 0) M) ∧
  (∀ tstart tstep step t, throttleStep tstart tstep step t ≤ 4 ∧ (∀ s2, step ≤ s2 → throttleStep tstart tstep step t ≤ throttleStep tstart tstep s2 t) ∧
    (∀ t2, t ≤ t2 → throttleStep tstart tstep step t ≤ throttleStep tstart tstep step t2) ∧
    (16 * (tstart : Int) ≤ t → 1 ≤ throttleStep tstart tstep step t) ∧ (t < 16 * (tstart : Int) - 80 → throttleStep tstart tstep step t = 0))

/-- The Almanac (R518 to R522): the alarm pulses source 86, begins a write and wakes with cause 7; a write freezes the record, holds client
0x0A's votes and ends in the next slot with the next GEN, or tries the one after it; a snapshot copies the record for 20 us. Calendar and
life cycle (R87, R518, R520, R527): CALSET sets the calendar where the life-cycle state allows it and is CAL_REFUSED elsewhere, a second
counts, with the HOURS of its band while TRIO is ON; a transition not confirmed within 5 ms ends, and a recomputed digest is kept. The
first slot written is SLOT + 1 (log 70). -/
def Obligations.AlmanacAndLifeCycle : Prop :=
  (
  (∀ l, Does l (.almanacAlarm l) fun L M => M.alm.since = 0 ∧ L.pulsed M 86 ∧
    (L.reg R.ALM_WAKEAT = L.cal → M.reg R.ALM_WAKEAT = 0) ∧ (L.is F.PWR_WAKEEN_ALM = true → L.woken M 7 0) ∧
    (L.get F.SYS_LC_STATE ≠ 4 → L.is F.TRIO_SVC_PRUNED = false → M.get F.ALM_STAT_BUSY = 1) ∧
    (L.get F.SYS_LC_STATE ≠ 4 → L.is F.TRIO_SVC_PRUNED = false → L.is F.ALM_STAT_BUSY = false → M.alm.copy = L.alm.rcd ∧
      M.alm.snapEnd = L.now + us 20) ∧
    L.memKept M ∧ L.outside [.pwr, .alm, .twp] M) ∧
  (∀ l, DoesWhen l (.almWrite l) (fun L => L.is F.ALM_STAT_BUSY = true ∨ L.get F.SYS_LC_STATE = 4 ∨ L.is F.TRIO_SVC_PRUNED = true) fun L M => M = L) ∧
  (∀ l, DoesWhen l (.almWrite l) (fun L => L.is F.ALM_STAT_BUSY = false ∧ L.get F.SYS_LC_STATE ≠ 4 ∧ L.is F.TRIO_SVC_PRUNED = false) fun L M =>
    M.get F.ALM_STAT_BUSY = 1 ∧ M.alm.copy = L.alm.rcd ∧ M.alm.snapEnd = L.now + us 20 ∧
    (∀ d, d = 2 ∨ d = 11 ∨ d = 12 → M.voteOf d 10 = 2) ∧ L.memKept M ∧ L.outside [.pwr, .alm] M) ∧
  (∀ l, Does l (.snap l) fun L M => L.alm.queue = [] → M.alm = { L.alm with copy := L.alm.rcd, snapEnd := L.now + us 20 } ∧ L.only [] M) ∧
  (∀ l, Does l (.almanacWriteDone l true) fun L M => L.alm.queue = [] →
    let k := (L.get F.ALM_STAT_SLOT + 1) % 32
    M.get F.ALM_STAT_SLOT = k ∧ M.get F.ALM_STAT_BUSY = 0 ∧ L.pulsed M 85 ∧
    (∃ r, M.alm.slots.getD k none = some ⟨L.almGet 0x004 4 + 1, true, r⟩ ∧ (k % 2 = 1 → r = L.almRecord)) ∧
    (∀ r, L.alm.lc = some r → r.written = false → M.alm.lc = some { r with written := true, startAt := L.now }) ∧
    (k % 2 = 0 → M.alm.slots.getD (k + 1) none = none) ∧
    (∀ j, j < 32 → j ≠ k → j ≠ k + 1 → M.alm.slots.getD j none = L.alm.slots.getD j none) ∧
    (∀ d, 0 < d → d ≤ 20 → M.voteOf d 10 = 0) ∧ L.memKept M ∧ L.outside [.pwr, .alm] M) ∧
  (∀ l, Does l (.almanacWriteDone l false) fun L M => L.alm.queue = [] → L.calm Ev.ALM_WRITE_FAIL = true →
    let k := (L.get F.ALM_STAT_SLOT + 1) % 32
    M.get F.ALM_STAT_SLOT = k ∧ M.get F.ALM_STAT_BUSY = 1 ∧ M.flagged Ev.ALM_WRITE_FAIL ∧
    (∃ r, M.alm.slots.getD k none = some ⟨L.almGet 0x004 4 + 1, false, r⟩) ∧ M.pwr = L.pwr))
  ∧
  (
  (∀ l val, Does l (.calset l val) fun L M =>
    let st := L.get F.SYS_LC_STATE
    let near : Prop := val.toNat ≤ L.cal + 60 ∧ L.cal ≤ val.toNat + 60
    let ok : Prop := st = 0 ∨ st = 1 ∨ st = 3 ∨ (st = 2 ∧ near ∧ L.alm.calSet = false)
    (ok → M.reg R.ALM_CAL = val.toNat ∧ M.get F.ALM_STAT_CALSTALE = 0 ∧ M.almGet 0x015 1 = 0 ∧ (st = 2 → M.alm.calSet = true) ∧
      L.only [R.ALM_CAL.addr 0 0, R.ALM_STAT.addr 0 0] M) ∧
    (¬ ok → M.shows Ev.ALM_CAL_REFUSED ∧ L.only (evRegs .alm 0) M)) ∧
  (∀ l, Does l (.calendarSecond l) fun L M => M.reg R.ALM_CAL = (L.reg R.ALM_CAL + 1) % 2 ^ 32 ∧
    (L.domOn 1 = true → M.alm.since = L.alm.since + 1 ∧ M.almGet (0x020 + 4 * hoursBand L.dieTemp) 4 =
      min 0xFFFFFFFF (L.almGet (0x020 + 4 * hoursBand L.dieTemp) 4 + 1)) ∧
    (L.domOn 1 = false → M.alm = L.alm) ∧ L.only [R.ALM_CAL.addr 0 0] M) ∧
  (∀ l, Does l (.lcConfirmTimeout l) fun L M => M.alm.lc = none ∧ ∀ r, L.alm.lc = some r →
    (L.cmd r.tag r.net = none → M = L.onAlm (fun a => { a with lc := none })) ∧
    (∀ c, L.cmd r.tag r.net = some c → M = (L.onAlm (fun a => { a with lc := none })).finish c St.ABORTED)) ∧
  (∀ l ok, Does l (.digestRecheckDone l ok) fun L M => M.sdl = { L.sdl with recheckAt := none, digestOk := some ok } ∧ L.only [] M))

end Statements
end

