-- ==== Sys2Proof/Laws/Sparse.lean ====
section
/-!
SUPPORT. Laws/Sparse.lean: sparse lists: a read after a write, and the canonical form that every write keeps.
-/

namespace Sys2Proof.Machine

variable {α : Type}

theorem sget_serase_same (d : α) (a : Nat) : ∀ l : List (Nat × α), sget d a (serase a l) = d
  | [] => rfl
  | (b, v) :: t => by
    by_cases h : b = a
    · simp [serase, h, sget_serase_same d a t]
    · simp [serase, h, sget, sget_serase_same d a t]

theorem sget_serase_ne (d : α) {a b : Nat} (h : b ≠ a) : ∀ l : List (Nat × α), sget d b (serase a l) = sget d b l
  | [] => rfl
  | (c, v) :: t => by
    by_cases hc : c = a
    · subst hc; simp [serase, sget, Ne.symm h, sget_serase_ne d h t]
    · by_cases hb : c = b
      · subst hb; simp [serase, hc, sget]
      · simp [serase, hc, sget, hb, sget_serase_ne d h t]

theorem sget_sins_same (d : α) (a : Nat) (v : α) : ∀ l : List (Nat × α), sget d a (sins a v (serase a l)) = v
  | [] => by simp [serase, sins, sget]
  | (b, w) :: t => by
    by_cases h : b = a
    · simp [serase, h, sget_sins_same d a v t]
    · by_cases hl : a < b
      · simp [serase, h, sins, hl, sget]
      · simp [serase, h, sins, hl, sget, sget_sins_same d a v t]

theorem sget_sins_ne (d : α) {a b : Nat} (h : b ≠ a) (v : α) : ∀ l : List (Nat × α), sget d b (sins a v l) = sget d b l
  | [] => by simp [sins, sget, Ne.symm h]
  | (c, w) :: t => by
    by_cases hl : a < c
    · simp [sins, hl, sget, Ne.symm h]
    · by_cases hb : c = b
      · subst hb; simp [sins, hl, sget]
      · simp [sins, hl, sget, hb, sget_sins_ne d h v t]

/-- A read of the key written gives the value written. -/
@[simp] theorem sget_sput_same [DecidableEq α] (d : α) (a : Nat) (v : α) (l : List (Nat × α)) : sget d a (sput d a v l) = v := by
  unfold sput; split
  · rename_i h; rw [sget_serase_same, h]
  · exact sget_sins_same d a v l

/-- A write leaves every other key alone. -/
theorem sget_sput_ne [DecidableEq α] (d e : α) {a b : Nat} (h : b ≠ a) (v : α) (l : List (Nat × α)) :
    sget e b (sput d a v l) = sget e b l := by
  unfold sput; split
  · exact sget_serase_ne e h l
  · rw [sget_sins_ne e h, sget_serase_ne e h]

/-! ### The canonical form -/

theorem swfFrom_mono [DecidableEq α] (d : Nat → α) {j k : Nat} (h : j ≤ k) :
    ∀ l : List (Nat × α), swfFrom d k l = true → swfFrom d j l = true
  | [] => fun _ => rfl
  | (b, v) :: t => by
    simp only [swfFrom, Bool.and_eq_true, decide_eq_true_eq]
    exact fun ⟨⟨h1, h2⟩, h3⟩ => ⟨⟨by omega, h2⟩, h3⟩

theorem swfFrom_serase [DecidableEq α] (d : Nat → α) (a : Nat) :
    ∀ (l : List (Nat × α)) (k : Nat), swfFrom d k l = true → swfFrom d k (serase a l) = true
  | [], _ => fun _ => rfl
  | (b, v) :: t, k => by
    simp only [swfFrom, Bool.and_eq_true, decide_eq_true_eq]
    intro ⟨⟨h1, h2⟩, h3⟩
    by_cases h : b = a
    · simp only [serase, h, if_true]
      exact swfFrom_serase d a t k (swfFrom_mono d (by omega) t h3)
    · simp only [serase, h, if_false, swfFrom, Bool.and_eq_true, decide_eq_true_eq]
      exact ⟨⟨h1, h2⟩, swfFrom_serase d a t (b + 1) h3⟩

theorem swfFrom_sins [DecidableEq α] (d : Nat → α) (a : Nat) (v : α) (hv : v ≠ d a) :
    ∀ (l : List (Nat × α)) (k : Nat), k ≤ a → swfFrom d k l = true → swfFrom d k (sins a v (serase a l)) = true
  | [], k, hk => by simp [serase, sins, swfFrom, hk, hv]
  | (b, w) :: t, k, hk => by
    simp only [swfFrom, Bool.and_eq_true, decide_eq_true_eq]
    intro ⟨⟨h1, h2⟩, h3⟩
    by_cases h : b = a
    · simp only [serase, h, if_true]
      exact swfFrom_sins d a v hv t k hk (swfFrom_mono d (by omega) t h3)
    · by_cases hl : a < b
      · simp only [serase, h, if_false, sins, hl, if_true, swfFrom, Bool.and_eq_true, decide_eq_true_eq]
        exact ⟨⟨hk, hv⟩, ⟨by omega, h2⟩, swfFrom_serase d a t _ h3⟩
      · simp only [serase, h, if_false, sins, hl, swfFrom, Bool.and_eq_true, decide_eq_true_eq]
        exact ⟨⟨h1, h2⟩, swfFrom_sins d a v hv t (b + 1) (by omega) h3⟩

/-- Every write keeps the canonical form. -/
theorem swf_sput [DecidableEq α] (d : Nat → α) (a : Nat) (v : α) (l : List (Nat × α)) (h : swf d l = true) :
    swf d (sput (d a) a v l) = true := by
  unfold sput; split
  · exact swfFrom_serase d a l 0 h
  · rename_i hv; exact swfFrom_sins d a v hv l 0 (Nat.zero_le a) h

theorem swfFrom_filter [DecidableEq α] (d : Nat → α) (p : Nat × α → Bool) :
    ∀ (l : List (Nat × α)) (k : Nat), swfFrom d k l = true → swfFrom d k (l.filter p) = true
  | [], _ => fun _ => rfl
  | (b, v) :: t, k => by
    simp only [swfFrom, Bool.and_eq_true, decide_eq_true_eq]
    intro ⟨⟨h1, h2⟩, h3⟩
    by_cases h : p (b, v) = true
    · rw [List.filter_cons_of_pos h]
      simp only [swfFrom, Bool.and_eq_true, decide_eq_true_eq]
      exact ⟨⟨h1, h2⟩, swfFrom_filter d p t (b + 1) h3⟩
    · rw [List.filter_cons_of_neg h]
      exact swfFrom_filter d p t k (swfFrom_mono d (by omega) t h3)

/-- Dropping entries keeps the canonical form. -/
theorem swf_filter [DecidableEq α] (d : Nat → α) (p : Nat × α → Bool) (l : List (Nat × α)) (h : swf d l = true) :
    swf d (l.filter p) = true := swfFrom_filter d p l 0 h

end Sys2Proof.Machine
end

