-- ==== Sys2Proof/Laws/State.lean ====
section
/-!
SUPPORT. Laws/State.lean: one lemma per field of a lane and update of it, so that no proof unfolds a record update.
-/

namespace Sys2Proof.Machine

/-! ### The lanes of the module -/

@[simp] theorem State.setLane_lane (s : State) (l : LaneId) : s.setLane l (s.lane l) = s := by cases l <;> rfl
@[simp] theorem State.lane_setLane (s : State) (l : LaneId) (L : Lane) : (s.setLane l L).lane l = L := by cases l <;> rfl
theorem State.lane_setLane_ne (s : State) {l x : LaneId} (L : Lane) (h : x ≠ l) : (s.setLane l L).lane x = s.lane x := by
  cases l <;> cases x <;> first | rfl | exact absurd rfl h
@[simp] theorem State.setLane_setLane (s : State) (l : LaneId) (L M : Lane) : (s.setLane l L).setLane l M = s.setLane l M := by cases l <;> rfl
@[simp] theorem State.setLane_pending (s : State) (l : LaneId) (L : Lane) : (s.setLane l L).pending = s.pending := by cases l <;> rfl
@[simp] theorem State.setLane_free (s : State) (l : LaneId) (L : Lane) : (s.setLane l L).free = s.free := by cases l <;> rfl
@[simp] theorem State.upd_pending (s : State) (l : LaneId) (f : Lane → Lane) : (s.upd l f).pending = s.pending := by cases l <;> rfl
@[simp] theorem State.upd_free (s : State) (l : LaneId) (f : Lane → Lane) : (s.upd l f).free = s.free := by cases l <;> rfl
@[simp] theorem State.lane_upd (s : State) (l : LaneId) (f : Lane → Lane) : (s.upd l f).lane l = f (s.lane l) := by cases l <;> rfl
theorem State.lane_upd_ne (s : State) {l x : LaneId} (f : Lane → Lane) (h : x ≠ l) : (s.upd l f).lane x = s.lane x :=
  s.lane_setLane_ne _ h

/-- Where a command's condition holds it changes its lane. -/
theorem State.on_runs (s : State) (l : LaneId) {c : Lane → Bool} (f : Lane → Lane) (h : c (s.lane l) = true) :
    s.on l c f = .next (s.setLane l (f (s.lane l))) := by simp [State.on, State.upd, h]

/-- Where it does not hold the command has no effect (log 2). -/
theorem State.on_idles (s : State) (l : LaneId) {c : Lane → Bool} (f : Lane → Lane) (h : c (s.lane l) = false) :
    s.on l c f = .next s := by simp [State.on, h]

/-- A command of one lane always answers, and leaves the waiting commands and the draws. -/
theorem State.on_answers (s : State) (l : LaneId) (c : Lane → Bool) (f : Lane → Lane) :
    ∃ t, s.on l c f = .next t ∧ t.pending = s.pending ∧ t.free = s.free ∧ ∀ x, x ≠ l → t.lane x = s.lane x := by
  unfold State.on; split
  · exact ⟨_, rfl, by simp, by simp, fun x h => s.lane_upd_ne f h⟩
  · exact ⟨s, rfl, rfl, rfl, fun _ _ => rfl⟩

/-! ### Registers and memory -/

@[simp] theorem Lane.wr_strap (L : Lane) (a : Nat) (v : Word) : (L.wr a v).strap = L.strap := rfl
@[simp] theorem Lane.wr_mem (L : Lane) (a : Nat) (v : Word) : (L.wr a v).mem = L.mem := rfl
@[simp] theorem Lane.wr_evqTime (L : Lane) (a : Nat) (v : Word) : (L.wr a v).evqTime = L.evqTime := rfl
@[simp] theorem Lane.wr_evqRead (L : Lane) (a : Nat) (v : Word) : (L.wr a v).evqRead = L.evqRead := rfl
@[simp] theorem Lane.wr_tokens (L : Lane) (a : Nat) (v : Word) : (L.wr a v).tokens = L.tokens := rfl
@[simp] theorem Lane.wr_now (L : Lane) (a : Nat) (v : Word) : (L.wr a v).now = L.now := rfl
@[simp] theorem Lane.wr_mt (L : Lane) (a : Nat) (v : Word) : (L.wr a v).mt = L.mt := rfl
@[simp] theorem Lane.wr_claimed (L : Lane) (a : Nat) (v : Word) : (L.wr a v).claimed = L.claimed := rfl
@[simp] theorem Lane.wr_ip (L : Lane) (a : Nat) (v : Word) : (L.wr a v).ip = L.ip := rfl
@[simp] theorem Lane.wr_claimData (L : Lane) (a : Nat) (v : Word) : (L.wr a v).claimData = L.claimData := rfl
@[simp] theorem Lane.wr_isolated (L : Lane) (a : Nat) (v : Word) : (L.wr a v).isolated = L.isolated := rfl
@[simp] theorem Lane.wr_cyc (L : Lane) (a : Nat) (v : Word) : (L.wr a v).cyc = L.cyc := rfl
@[simp] theorem Lane.wr_rst (L : Lane) (a : Nat) (v : Word) : (L.wr a v).rst = L.rst := rfl
@[simp] theorem Lane.wr_link (L : Lane) (a : Nat) (v : Word) : (L.wr a v).link = L.link := rfl
@[simp] theorem Lane.wr_clk (L : Lane) (a : Nat) (v : Word) : (L.wr a v).clk = L.clk := rfl
@[simp] theorem Lane.wr_ozl (L : Lane) (a : Nat) (v : Word) : (L.wr a v).ozl = L.ozl := rfl
@[simp] theorem Lane.wr_sdl (L : Lane) (a : Nat) (v : Word) : (L.wr a v).sdl = L.sdl := rfl
@[simp] theorem Lane.wr_trio (L : Lane) (a : Nat) (v : Word) : (L.wr a v).trio = L.trio := rfl
@[simp] theorem Lane.wr_cmdq (L : Lane) (a : Nat) (v : Word) : (L.wr a v).cmdq = L.cmdq := rfl
@[simp] theorem Lane.wr_gate (L : Lane) (a : Nat) (v : Word) : (L.wr a v).gate = L.gate := rfl
@[simp] theorem Lane.wr_loops (L : Lane) (a : Nat) (v : Word) : (L.wr a v).loops = L.loops := rfl
@[simp] theorem Lane.wr_drive (L : Lane) (a : Nat) (v : Word) : (L.wr a v).drive = L.drive := rfl
@[simp] theorem Lane.wr_cnvs (L : Lane) (a : Nat) (v : Word) : (L.wr a v).cnvs = L.cnvs := rfl
@[simp] theorem Lane.wr_icv (L : Lane) (a : Nat) (v : Word) : (L.wr a v).icv = L.icv := rfl
@[simp] theorem Lane.wr_pos (L : Lane) (a : Nat) (v : Word) : (L.wr a v).pos = L.pos := rfl
@[simp] theorem Lane.wr_saf (L : Lane) (a : Nat) (v : Word) : (L.wr a v).saf = L.saf := rfl
@[simp] theorem Lane.wr_hsf (L : Lane) (a : Nat) (v : Word) : (L.wr a v).hsf = L.hsf := rfl
@[simp] theorem Lane.wr_pwr (L : Lane) (a : Nat) (v : Word) : (L.wr a v).pwr = L.pwr := rfl
@[simp] theorem Lane.wr_test (L : Lane) (a : Nat) (v : Word) : (L.wr a v).test = L.test := rfl
@[simp] theorem Lane.wr_can (L : Lane) (a : Nat) (v : Word) : (L.wr a v).can = L.can := rfl
@[simp] theorem Lane.wr_flx (L : Lane) (a : Nat) (v : Word) : (L.wr a v).flx = L.flx := rfl
@[simp] theorem Lane.wr_eth (L : Lane) (a : Nat) (v : Word) : (L.wr a v).eth = L.eth := rfl
@[simp] theorem Lane.wr_twp (L : Lane) (a : Nat) (v : Word) : (L.wr a v).twp = L.twp := rfl
@[simp] theorem Lane.wr_hk (L : Lane) (a : Nat) (v : Word) : (L.wr a v).hk = L.hk := rfl
@[simp] theorem Lane.wr_ths (L : Lane) (a : Nat) (v : Word) : (L.wr a v).ths = L.ths := rfl
@[simp] theorem Lane.wr_alm (L : Lane) (a : Nat) (v : Word) : (L.wr a v).alm = L.alm := rfl
@[simp] theorem Lane.wr_byte (L : Lane) (a : Nat) (v : Word) (x : Nat) : (L.wr a v).byte x = L.byte x := rfl

@[simp] theorem Lane.put_strap (L : Lane) (g : Fld) (v n i : Nat) : (L.put g v n i).strap = L.strap := rfl
@[simp] theorem Lane.put_mem (L : Lane) (g : Fld) (v n i : Nat) : (L.put g v n i).mem = L.mem := rfl
@[simp] theorem Lane.put_evqTime (L : Lane) (g : Fld) (v n i : Nat) : (L.put g v n i).evqTime = L.evqTime := rfl
@[simp] theorem Lane.put_evqRead (L : Lane) (g : Fld) (v n i : Nat) : (L.put g v n i).evqRead = L.evqRead := rfl
@[simp] theorem Lane.put_tokens (L : Lane) (g : Fld) (v n i : Nat) : (L.put g v n i).tokens = L.tokens := rfl
@[simp] theorem Lane.put_now (L : Lane) (g : Fld) (v n i : Nat) : (L.put g v n i).now = L.now := rfl
@[simp] theorem Lane.put_mt (L : Lane) (g : Fld) (v n i : Nat) : (L.put g v n i).mt = L.mt := rfl
@[simp] theorem Lane.put_claimed (L : Lane) (g : Fld) (v n i : Nat) : (L.put g v n i).claimed = L.claimed := rfl
@[simp] theorem Lane.put_ip (L : Lane) (g : Fld) (v n i : Nat) : (L.put g v n i).ip = L.ip := rfl
@[simp] theorem Lane.put_claimData (L : Lane) (g : Fld) (v n i : Nat) : (L.put g v n i).claimData = L.claimData := rfl
@[simp] theorem Lane.put_isolated (L : Lane) (g : Fld) (v n i : Nat) : (L.put g v n i).isolated = L.isolated := rfl
@[simp] theorem Lane.put_cyc (L : Lane) (g : Fld) (v n i : Nat) : (L.put g v n i).cyc = L.cyc := rfl
@[simp] theorem Lane.put_rst (L : Lane) (g : Fld) (v n i : Nat) : (L.put g v n i).rst = L.rst := rfl
@[simp] theorem Lane.put_link (L : Lane) (g : Fld) (v n i : Nat) : (L.put g v n i).link = L.link := rfl
@[simp] theorem Lane.put_clk (L : Lane) (g : Fld) (v n i : Nat) : (L.put g v n i).clk = L.clk := rfl
@[simp] theorem Lane.put_ozl (L : Lane) (g : Fld) (v n i : Nat) : (L.put g v n i).ozl = L.ozl := rfl
@[simp] theorem Lane.put_sdl (L : Lane) (g : Fld) (v n i : Nat) : (L.put g v n i).sdl = L.sdl := rfl
@[simp] theorem Lane.put_trio (L : Lane) (g : Fld) (v n i : Nat) : (L.put g v n i).trio = L.trio := rfl
@[simp] theorem Lane.put_cmdq (L : Lane) (g : Fld) (v n i : Nat) : (L.put g v n i).cmdq = L.cmdq := rfl
@[simp] theorem Lane.put_gate (L : Lane) (g : Fld) (v n i : Nat) : (L.put g v n i).gate = L.gate := rfl
@[simp] theorem Lane.put_loops (L : Lane) (g : Fld) (v n i : Nat) : (L.put g v n i).loops = L.loops := rfl
@[simp] theorem Lane.put_drive (L : Lane) (g : Fld) (v n i : Nat) : (L.put g v n i).drive = L.drive := rfl
@[simp] theorem Lane.put_cnvs (L : Lane) (g : Fld) (v n i : Nat) : (L.put g v n i).cnvs = L.cnvs := rfl
@[simp] theorem Lane.put_icv (L : Lane) (g : Fld) (v n i : Nat) : (L.put g v n i).icv = L.icv := rfl
@[simp] theorem Lane.put_pos (L : Lane) (g : Fld) (v n i : Nat) : (L.put g v n i).pos = L.pos := rfl
@[simp] theorem Lane.put_saf (L : Lane) (g : Fld) (v n i : Nat) : (L.put g v n i).saf = L.saf := rfl
@[simp] theorem Lane.put_hsf (L : Lane) (g : Fld) (v n i : Nat) : (L.put g v n i).hsf = L.hsf := rfl
@[simp] theorem Lane.put_pwr (L : Lane) (g : Fld) (v n i : Nat) : (L.put g v n i).pwr = L.pwr := rfl
@[simp] theorem Lane.put_test (L : Lane) (g : Fld) (v n i : Nat) : (L.put g v n i).test = L.test := rfl
@[simp] theorem Lane.put_can (L : Lane) (g : Fld) (v n i : Nat) : (L.put g v n i).can = L.can := rfl
@[simp] theorem Lane.put_flx (L : Lane) (g : Fld) (v n i : Nat) : (L.put g v n i).flx = L.flx := rfl
@[simp] theorem Lane.put_eth (L : Lane) (g : Fld) (v n i : Nat) : (L.put g v n i).eth = L.eth := rfl
@[simp] theorem Lane.put_twp (L : Lane) (g : Fld) (v n i : Nat) : (L.put g v n i).twp = L.twp := rfl
@[simp] theorem Lane.put_hk (L : Lane) (g : Fld) (v n i : Nat) : (L.put g v n i).hk = L.hk := rfl
@[simp] theorem Lane.put_ths (L : Lane) (g : Fld) (v n i : Nat) : (L.put g v n i).ths = L.ths := rfl
@[simp] theorem Lane.put_alm (L : Lane) (g : Fld) (v n i : Nat) : (L.put g v n i).alm = L.alm := rfl
@[simp] theorem Lane.put_byte (L : Lane) (g : Fld) (v n i : Nat) (x : Nat) : (L.put g v n i).byte x = L.byte x := rfl

@[simp] theorem Lane.setReg_strap (L : Lane) (r : Reg) (v n i : Nat) : (L.setReg r v n i).strap = L.strap := rfl
@[simp] theorem Lane.setReg_mem (L : Lane) (r : Reg) (v n i : Nat) : (L.setReg r v n i).mem = L.mem := rfl
@[simp] theorem Lane.setReg_evqTime (L : Lane) (r : Reg) (v n i : Nat) : (L.setReg r v n i).evqTime = L.evqTime := rfl
@[simp] theorem Lane.setReg_evqRead (L : Lane) (r : Reg) (v n i : Nat) : (L.setReg r v n i).evqRead = L.evqRead := rfl
@[simp] theorem Lane.setReg_tokens (L : Lane) (r : Reg) (v n i : Nat) : (L.setReg r v n i).tokens = L.tokens := rfl
@[simp] theorem Lane.setReg_now (L : Lane) (r : Reg) (v n i : Nat) : (L.setReg r v n i).now = L.now := rfl
@[simp] theorem Lane.setReg_mt (L : Lane) (r : Reg) (v n i : Nat) : (L.setReg r v n i).mt = L.mt := rfl
@[simp] theorem Lane.setReg_claimed (L : Lane) (r : Reg) (v n i : Nat) : (L.setReg r v n i).claimed = L.claimed := rfl
@[simp] theorem Lane.setReg_ip (L : Lane) (r : Reg) (v n i : Nat) : (L.setReg r v n i).ip = L.ip := rfl
@[simp] theorem Lane.setReg_claimData (L : Lane) (r : Reg) (v n i : Nat) : (L.setReg r v n i).claimData = L.claimData := rfl
@[simp] theorem Lane.setReg_isolated (L : Lane) (r : Reg) (v n i : Nat) : (L.setReg r v n i).isolated = L.isolated := rfl
@[simp] theorem Lane.setReg_cyc (L : Lane) (r : Reg) (v n i : Nat) : (L.setReg r v n i).cyc = L.cyc := rfl
@[simp] theorem Lane.setReg_rst (L : Lane) (r : Reg) (v n i : Nat) : (L.setReg r v n i).rst = L.rst := rfl
@[simp] theorem Lane.setReg_link (L : Lane) (r : Reg) (v n i : Nat) : (L.setReg r v n i).link = L.link := rfl
@[simp] theorem Lane.setReg_clk (L : Lane) (r : Reg) (v n i : Nat) : (L.setReg r v n i).clk = L.clk := rfl
@[simp] theorem Lane.setReg_ozl (L : Lane) (r : Reg) (v n i : Nat) : (L.setReg r v n i).ozl = L.ozl := rfl
@[simp] theorem Lane.setReg_sdl (L : Lane) (r : Reg) (v n i : Nat) : (L.setReg r v n i).sdl = L.sdl := rfl
@[simp] theorem Lane.setReg_trio (L : Lane) (r : Reg) (v n i : Nat) : (L.setReg r v n i).trio = L.trio := rfl
@[simp] theorem Lane.setReg_cmdq (L : Lane) (r : Reg) (v n i : Nat) : (L.setReg r v n i).cmdq = L.cmdq := rfl
@[simp] theorem Lane.setReg_gate (L : Lane) (r : Reg) (v n i : Nat) : (L.setReg r v n i).gate = L.gate := rfl
@[simp] theorem Lane.setReg_loops (L : Lane) (r : Reg) (v n i : Nat) : (L.setReg r v n i).loops = L.loops := rfl
@[simp] theorem Lane.setReg_drive (L : Lane) (r : Reg) (v n i : Nat) : (L.setReg r v n i).drive = L.drive := rfl
@[simp] theorem Lane.setReg_cnvs (L : Lane) (r : Reg) (v n i : Nat) : (L.setReg r v n i).cnvs = L.cnvs := rfl
@[simp] theorem Lane.setReg_icv (L : Lane) (r : Reg) (v n i : Nat) : (L.setReg r v n i).icv = L.icv := rfl
@[simp] theorem Lane.setReg_pos (L : Lane) (r : Reg) (v n i : Nat) : (L.setReg r v n i).pos = L.pos := rfl
@[simp] theorem Lane.setReg_saf (L : Lane) (r : Reg) (v n i : Nat) : (L.setReg r v n i).saf = L.saf := rfl
@[simp] theorem Lane.setReg_hsf (L : Lane) (r : Reg) (v n i : Nat) : (L.setReg r v n i).hsf = L.hsf := rfl
@[simp] theorem Lane.setReg_pwr (L : Lane) (r : Reg) (v n i : Nat) : (L.setReg r v n i).pwr = L.pwr := rfl
@[simp] theorem Lane.setReg_test (L : Lane) (r : Reg) (v n i : Nat) : (L.setReg r v n i).test = L.test := rfl
@[simp] theorem Lane.setReg_can (L : Lane) (r : Reg) (v n i : Nat) : (L.setReg r v n i).can = L.can := rfl
@[simp] theorem Lane.setReg_flx (L : Lane) (r : Reg) (v n i : Nat) : (L.setReg r v n i).flx = L.flx := rfl
@[simp] theorem Lane.setReg_eth (L : Lane) (r : Reg) (v n i : Nat) : (L.setReg r v n i).eth = L.eth := rfl
@[simp] theorem Lane.setReg_twp (L : Lane) (r : Reg) (v n i : Nat) : (L.setReg r v n i).twp = L.twp := rfl
@[simp] theorem Lane.setReg_hk (L : Lane) (r : Reg) (v n i : Nat) : (L.setReg r v n i).hk = L.hk := rfl
@[simp] theorem Lane.setReg_ths (L : Lane) (r : Reg) (v n i : Nat) : (L.setReg r v n i).ths = L.ths := rfl
@[simp] theorem Lane.setReg_alm (L : Lane) (r : Reg) (v n i : Nat) : (L.setReg r v n i).alm = L.alm := rfl
@[simp] theorem Lane.setReg_byte (L : Lane) (r : Reg) (v n i : Nat) (x : Nat) : (L.setReg r v n i).byte x = L.byte x := rfl

@[simp] theorem Lane.setByte_strap (L : Lane) (a : Nat) (v : Byte) : (L.setByte a v).strap = L.strap := rfl
@[simp] theorem Lane.setByte_regs (L : Lane) (a : Nat) (v : Byte) : (L.setByte a v).regs = L.regs := rfl
@[simp] theorem Lane.setByte_evqTime (L : Lane) (a : Nat) (v : Byte) : (L.setByte a v).evqTime = L.evqTime := rfl
@[simp] theorem Lane.setByte_evqRead (L : Lane) (a : Nat) (v : Byte) : (L.setByte a v).evqRead = L.evqRead := rfl
@[simp] theorem Lane.setByte_tokens (L : Lane) (a : Nat) (v : Byte) : (L.setByte a v).tokens = L.tokens := rfl
@[simp] theorem Lane.setByte_now (L : Lane) (a : Nat) (v : Byte) : (L.setByte a v).now = L.now := rfl
@[simp] theorem Lane.setByte_mt (L : Lane) (a : Nat) (v : Byte) : (L.setByte a v).mt = L.mt := rfl
@[simp] theorem Lane.setByte_claimed (L : Lane) (a : Nat) (v : Byte) : (L.setByte a v).claimed = L.claimed := rfl
@[simp] theorem Lane.setByte_ip (L : Lane) (a : Nat) (v : Byte) : (L.setByte a v).ip = L.ip := rfl
@[simp] theorem Lane.setByte_claimData (L : Lane) (a : Nat) (v : Byte) : (L.setByte a v).claimData = L.claimData := rfl
@[simp] theorem Lane.setByte_isolated (L : Lane) (a : Nat) (v : Byte) : (L.setByte a v).isolated = L.isolated := rfl
@[simp] theorem Lane.setByte_cyc (L : Lane) (a : Nat) (v : Byte) : (L.setByte a v).cyc = L.cyc := rfl
@[simp] theorem Lane.setByte_rst (L : Lane) (a : Nat) (v : Byte) : (L.setByte a v).rst = L.rst := rfl
@[simp] theorem Lane.setByte_link (L : Lane) (a : Nat) (v : Byte) : (L.setByte a v).link = L.link := rfl
@[simp] theorem Lane.setByte_clk (L : Lane) (a : Nat) (v : Byte) : (L.setByte a v).clk = L.clk := rfl
@[simp] theorem Lane.setByte_ozl (L : Lane) (a : Nat) (v : Byte) : (L.setByte a v).ozl = L.ozl := rfl
@[simp] theorem Lane.setByte_sdl (L : Lane) (a : Nat) (v : Byte) : (L.setByte a v).sdl = L.sdl := rfl
@[simp] theorem Lane.setByte_trio (L : Lane) (a : Nat) (v : Byte) : (L.setByte a v).trio = L.trio := rfl
@[simp] theorem Lane.setByte_cmdq (L : Lane) (a : Nat) (v : Byte) : (L.setByte a v).cmdq = L.cmdq := rfl
@[simp] theorem Lane.setByte_gate (L : Lane) (a : Nat) (v : Byte) : (L.setByte a v).gate = L.gate := rfl
@[simp] theorem Lane.setByte_loops (L : Lane) (a : Nat) (v : Byte) : (L.setByte a v).loops = L.loops := rfl
@[simp] theorem Lane.setByte_drive (L : Lane) (a : Nat) (v : Byte) : (L.setByte a v).drive = L.drive := rfl
@[simp] theorem Lane.setByte_cnvs (L : Lane) (a : Nat) (v : Byte) : (L.setByte a v).cnvs = L.cnvs := rfl
@[simp] theorem Lane.setByte_icv (L : Lane) (a : Nat) (v : Byte) : (L.setByte a v).icv = L.icv := rfl
@[simp] theorem Lane.setByte_pos (L : Lane) (a : Nat) (v : Byte) : (L.setByte a v).pos = L.pos := rfl
@[simp] theorem Lane.setByte_saf (L : Lane) (a : Nat) (v : Byte) : (L.setByte a v).saf = L.saf := rfl
@[simp] theorem Lane.setByte_hsf (L : Lane) (a : Nat) (v : Byte) : (L.setByte a v).hsf = L.hsf := rfl
@[simp] theorem Lane.setByte_pwr (L : Lane) (a : Nat) (v : Byte) : (L.setByte a v).pwr = L.pwr := rfl
@[simp] theorem Lane.setByte_test (L : Lane) (a : Nat) (v : Byte) : (L.setByte a v).test = L.test := rfl
@[simp] theorem Lane.setByte_can (L : Lane) (a : Nat) (v : Byte) : (L.setByte a v).can = L.can := rfl
@[simp] theorem Lane.setByte_flx (L : Lane) (a : Nat) (v : Byte) : (L.setByte a v).flx = L.flx := rfl
@[simp] theorem Lane.setByte_eth (L : Lane) (a : Nat) (v : Byte) : (L.setByte a v).eth = L.eth := rfl
@[simp] theorem Lane.setByte_twp (L : Lane) (a : Nat) (v : Byte) : (L.setByte a v).twp = L.twp := rfl
@[simp] theorem Lane.setByte_hk (L : Lane) (a : Nat) (v : Byte) : (L.setByte a v).hk = L.hk := rfl
@[simp] theorem Lane.setByte_ths (L : Lane) (a : Nat) (v : Byte) : (L.setByte a v).ths = L.ths := rfl
@[simp] theorem Lane.setByte_alm (L : Lane) (a : Nat) (v : Byte) : (L.setByte a v).alm = L.alm := rfl
@[simp] theorem Lane.setByte_rd (L : Lane) (a : Nat) (v : Byte) (x : Nat) : (L.setByte a v).rd x = L.rd x := rfl

@[simp] theorem Lane.setMemWord_strap (L : Lane) (a : Nat) (v : Word) : (L.setMemWord a v).strap = L.strap := rfl
@[simp] theorem Lane.setMemWord_regs (L : Lane) (a : Nat) (v : Word) : (L.setMemWord a v).regs = L.regs := rfl
@[simp] theorem Lane.setMemWord_evqTime (L : Lane) (a : Nat) (v : Word) : (L.setMemWord a v).evqTime = L.evqTime := rfl
@[simp] theorem Lane.setMemWord_evqRead (L : Lane) (a : Nat) (v : Word) : (L.setMemWord a v).evqRead = L.evqRead := rfl
@[simp] theorem Lane.setMemWord_tokens (L : Lane) (a : Nat) (v : Word) : (L.setMemWord a v).tokens = L.tokens := rfl
@[simp] theorem Lane.setMemWord_now (L : Lane) (a : Nat) (v : Word) : (L.setMemWord a v).now = L.now := rfl
@[simp] theorem Lane.setMemWord_mt (L : Lane) (a : Nat) (v : Word) : (L.setMemWord a v).mt = L.mt := rfl
@[simp] theorem Lane.setMemWord_claimed (L : Lane) (a : Nat) (v : Word) : (L.setMemWord a v).claimed = L.claimed := rfl
@[simp] theorem Lane.setMemWord_ip (L : Lane) (a : Nat) (v : Word) : (L.setMemWord a v).ip = L.ip := rfl
@[simp] theorem Lane.setMemWord_claimData (L : Lane) (a : Nat) (v : Word) : (L.setMemWord a v).claimData = L.claimData := rfl
@[simp] theorem Lane.setMemWord_isolated (L : Lane) (a : Nat) (v : Word) : (L.setMemWord a v).isolated = L.isolated := rfl
@[simp] theorem Lane.setMemWord_cyc (L : Lane) (a : Nat) (v : Word) : (L.setMemWord a v).cyc = L.cyc := rfl
@[simp] theorem Lane.setMemWord_rst (L : Lane) (a : Nat) (v : Word) : (L.setMemWord a v).rst = L.rst := rfl
@[simp] theorem Lane.setMemWord_link (L : Lane) (a : Nat) (v : Word) : (L.setMemWord a v).link = L.link := rfl
@[simp] theorem Lane.setMemWord_clk (L : Lane) (a : Nat) (v : Word) : (L.setMemWord a v).clk = L.clk := rfl
@[simp] theorem Lane.setMemWord_ozl (L : Lane) (a : Nat) (v : Word) : (L.setMemWord a v).ozl = L.ozl := rfl
@[simp] theorem Lane.setMemWord_sdl (L : Lane) (a : Nat) (v : Word) : (L.setMemWord a v).sdl = L.sdl := rfl
@[simp] theorem Lane.setMemWord_trio (L : Lane) (a : Nat) (v : Word) : (L.setMemWord a v).trio = L.trio := rfl
@[simp] theorem Lane.setMemWord_cmdq (L : Lane) (a : Nat) (v : Word) : (L.setMemWord a v).cmdq = L.cmdq := rfl
@[simp] theorem Lane.setMemWord_gate (L : Lane) (a : Nat) (v : Word) : (L.setMemWord a v).gate = L.gate := rfl
@[simp] theorem Lane.setMemWord_loops (L : Lane) (a : Nat) (v : Word) : (L.setMemWord a v).loops = L.loops := rfl
@[simp] theorem Lane.setMemWord_drive (L : Lane) (a : Nat) (v : Word) : (L.setMemWord a v).drive = L.drive := rfl
@[simp] theorem Lane.setMemWord_cnvs (L : Lane) (a : Nat) (v : Word) : (L.setMemWord a v).cnvs = L.cnvs := rfl
@[simp] theorem Lane.setMemWord_icv (L : Lane) (a : Nat) (v : Word) : (L.setMemWord a v).icv = L.icv := rfl
@[simp] theorem Lane.setMemWord_pos (L : Lane) (a : Nat) (v : Word) : (L.setMemWord a v).pos = L.pos := rfl
@[simp] theorem Lane.setMemWord_saf (L : Lane) (a : Nat) (v : Word) : (L.setMemWord a v).saf = L.saf := rfl
@[simp] theorem Lane.setMemWord_hsf (L : Lane) (a : Nat) (v : Word) : (L.setMemWord a v).hsf = L.hsf := rfl
@[simp] theorem Lane.setMemWord_pwr (L : Lane) (a : Nat) (v : Word) : (L.setMemWord a v).pwr = L.pwr := rfl
@[simp] theorem Lane.setMemWord_test (L : Lane) (a : Nat) (v : Word) : (L.setMemWord a v).test = L.test := rfl
@[simp] theorem Lane.setMemWord_can (L : Lane) (a : Nat) (v : Word) : (L.setMemWord a v).can = L.can := rfl
@[simp] theorem Lane.setMemWord_flx (L : Lane) (a : Nat) (v : Word) : (L.setMemWord a v).flx = L.flx := rfl
@[simp] theorem Lane.setMemWord_eth (L : Lane) (a : Nat) (v : Word) : (L.setMemWord a v).eth = L.eth := rfl
@[simp] theorem Lane.setMemWord_twp (L : Lane) (a : Nat) (v : Word) : (L.setMemWord a v).twp = L.twp := rfl
@[simp] theorem Lane.setMemWord_hk (L : Lane) (a : Nat) (v : Word) : (L.setMemWord a v).hk = L.hk := rfl
@[simp] theorem Lane.setMemWord_ths (L : Lane) (a : Nat) (v : Word) : (L.setMemWord a v).ths = L.ths := rfl
@[simp] theorem Lane.setMemWord_alm (L : Lane) (a : Nat) (v : Word) : (L.setMemWord a v).alm = L.alm := rfl
@[simp] theorem Lane.setMemWord_rd (L : Lane) (a : Nat) (v : Word) (x : Nat) : (L.setMemWord a v).rd x = L.rd x := rfl

/-! ### The structures beside the registers -/

@[simp] theorem Lane.onClk_strap (L : Lane) (f : ClkSt → ClkSt) : (L.onClk f).strap = L.strap := rfl
@[simp] theorem Lane.onClk_regs (L : Lane) (f : ClkSt → ClkSt) : (L.onClk f).regs = L.regs := rfl
@[simp] theorem Lane.onClk_mem (L : Lane) (f : ClkSt → ClkSt) : (L.onClk f).mem = L.mem := rfl
@[simp] theorem Lane.onClk_evqTime (L : Lane) (f : ClkSt → ClkSt) : (L.onClk f).evqTime = L.evqTime := rfl
@[simp] theorem Lane.onClk_evqRead (L : Lane) (f : ClkSt → ClkSt) : (L.onClk f).evqRead = L.evqRead := rfl
@[simp] theorem Lane.onClk_tokens (L : Lane) (f : ClkSt → ClkSt) : (L.onClk f).tokens = L.tokens := rfl
@[simp] theorem Lane.onClk_now (L : Lane) (f : ClkSt → ClkSt) : (L.onClk f).now = L.now := rfl
@[simp] theorem Lane.onClk_mt (L : Lane) (f : ClkSt → ClkSt) : (L.onClk f).mt = L.mt := rfl
@[simp] theorem Lane.onClk_claimed (L : Lane) (f : ClkSt → ClkSt) : (L.onClk f).claimed = L.claimed := rfl
@[simp] theorem Lane.onClk_ip (L : Lane) (f : ClkSt → ClkSt) : (L.onClk f).ip = L.ip := rfl
@[simp] theorem Lane.onClk_claimData (L : Lane) (f : ClkSt → ClkSt) : (L.onClk f).claimData = L.claimData := rfl
@[simp] theorem Lane.onClk_isolated (L : Lane) (f : ClkSt → ClkSt) : (L.onClk f).isolated = L.isolated := rfl
@[simp] theorem Lane.onClk_cyc (L : Lane) (f : ClkSt → ClkSt) : (L.onClk f).cyc = L.cyc := rfl
@[simp] theorem Lane.onClk_rst (L : Lane) (f : ClkSt → ClkSt) : (L.onClk f).rst = L.rst := rfl
@[simp] theorem Lane.onClk_link (L : Lane) (f : ClkSt → ClkSt) : (L.onClk f).link = L.link := rfl
@[simp] theorem Lane.onClk_ozl (L : Lane) (f : ClkSt → ClkSt) : (L.onClk f).ozl = L.ozl := rfl
@[simp] theorem Lane.onClk_sdl (L : Lane) (f : ClkSt → ClkSt) : (L.onClk f).sdl = L.sdl := rfl
@[simp] theorem Lane.onClk_trio (L : Lane) (f : ClkSt → ClkSt) : (L.onClk f).trio = L.trio := rfl
@[simp] theorem Lane.onClk_cmdq (L : Lane) (f : ClkSt → ClkSt) : (L.onClk f).cmdq = L.cmdq := rfl
@[simp] theorem Lane.onClk_gate (L : Lane) (f : ClkSt → ClkSt) : (L.onClk f).gate = L.gate := rfl
@[simp] theorem Lane.onClk_loops (L : Lane) (f : ClkSt → ClkSt) : (L.onClk f).loops = L.loops := rfl
@[simp] theorem Lane.onClk_drive (L : Lane) (f : ClkSt → ClkSt) : (L.onClk f).drive = L.drive := rfl
@[simp] theorem Lane.onClk_cnvs (L : Lane) (f : ClkSt → ClkSt) : (L.onClk f).cnvs = L.cnvs := rfl
@[simp] theorem Lane.onClk_icv (L : Lane) (f : ClkSt → ClkSt) : (L.onClk f).icv = L.icv := rfl
@[simp] theorem Lane.onClk_pos (L : Lane) (f : ClkSt → ClkSt) : (L.onClk f).pos = L.pos := rfl
@[simp] theorem Lane.onClk_saf (L : Lane) (f : ClkSt → ClkSt) : (L.onClk f).saf = L.saf := rfl
@[simp] theorem Lane.onClk_hsf (L : Lane) (f : ClkSt → ClkSt) : (L.onClk f).hsf = L.hsf := rfl
@[simp] theorem Lane.onClk_pwr (L : Lane) (f : ClkSt → ClkSt) : (L.onClk f).pwr = L.pwr := rfl
@[simp] theorem Lane.onClk_test (L : Lane) (f : ClkSt → ClkSt) : (L.onClk f).test = L.test := rfl
@[simp] theorem Lane.onClk_can (L : Lane) (f : ClkSt → ClkSt) : (L.onClk f).can = L.can := rfl
@[simp] theorem Lane.onClk_flx (L : Lane) (f : ClkSt → ClkSt) : (L.onClk f).flx = L.flx := rfl
@[simp] theorem Lane.onClk_eth (L : Lane) (f : ClkSt → ClkSt) : (L.onClk f).eth = L.eth := rfl
@[simp] theorem Lane.onClk_twp (L : Lane) (f : ClkSt → ClkSt) : (L.onClk f).twp = L.twp := rfl
@[simp] theorem Lane.onClk_hk (L : Lane) (f : ClkSt → ClkSt) : (L.onClk f).hk = L.hk := rfl
@[simp] theorem Lane.onClk_ths (L : Lane) (f : ClkSt → ClkSt) : (L.onClk f).ths = L.ths := rfl
@[simp] theorem Lane.onClk_alm (L : Lane) (f : ClkSt → ClkSt) : (L.onClk f).alm = L.alm := rfl
@[simp] theorem Lane.onClk_rd (L : Lane) (f : ClkSt → ClkSt) (x : Nat) : (L.onClk f).rd x = L.rd x := rfl
@[simp] theorem Lane.onClk_byte (L : Lane) (f : ClkSt → ClkSt) (x : Nat) : (L.onClk f).byte x = L.byte x := rfl
@[simp] theorem Lane.onClk_get (L : Lane) (f : ClkSt → ClkSt) (g : Fld) (j i : Nat) : (L.onClk f).get g j i = L.get g j i := rfl

@[simp] theorem Lane.onLink_strap (L : Lane) (f : LinkSt → LinkSt) : (L.onLink f).strap = L.strap := rfl
@[simp] theorem Lane.onLink_regs (L : Lane) (f : LinkSt → LinkSt) : (L.onLink f).regs = L.regs := rfl
@[simp] theorem Lane.onLink_mem (L : Lane) (f : LinkSt → LinkSt) : (L.onLink f).mem = L.mem := rfl
@[simp] theorem Lane.onLink_evqTime (L : Lane) (f : LinkSt → LinkSt) : (L.onLink f).evqTime = L.evqTime := rfl
@[simp] theorem Lane.onLink_evqRead (L : Lane) (f : LinkSt → LinkSt) : (L.onLink f).evqRead = L.evqRead := rfl
@[simp] theorem Lane.onLink_tokens (L : Lane) (f : LinkSt → LinkSt) : (L.onLink f).tokens = L.tokens := rfl
@[simp] theorem Lane.onLink_now (L : Lane) (f : LinkSt → LinkSt) : (L.onLink f).now = L.now := rfl
@[simp] theorem Lane.onLink_mt (L : Lane) (f : LinkSt → LinkSt) : (L.onLink f).mt = L.mt := rfl
@[simp] theorem Lane.onLink_claimed (L : Lane) (f : LinkSt → LinkSt) : (L.onLink f).claimed = L.claimed := rfl
@[simp] theorem Lane.onLink_ip (L : Lane) (f : LinkSt → LinkSt) : (L.onLink f).ip = L.ip := rfl
@[simp] theorem Lane.onLink_claimData (L : Lane) (f : LinkSt → LinkSt) : (L.onLink f).claimData = L.claimData := rfl
@[simp] theorem Lane.onLink_isolated (L : Lane) (f : LinkSt → LinkSt) : (L.onLink f).isolated = L.isolated := rfl
@[simp] theorem Lane.onLink_cyc (L : Lane) (f : LinkSt → LinkSt) : (L.onLink f).cyc = L.cyc := rfl
@[simp] theorem Lane.onLink_rst (L : Lane) (f : LinkSt → LinkSt) : (L.onLink f).rst = L.rst := rfl
@[simp] theorem Lane.onLink_clk (L : Lane) (f : LinkSt → LinkSt) : (L.onLink f).clk = L.clk := rfl
@[simp] theorem Lane.onLink_ozl (L : Lane) (f : LinkSt → LinkSt) : (L.onLink f).ozl = L.ozl := rfl
@[simp] theorem Lane.onLink_sdl (L : Lane) (f : LinkSt → LinkSt) : (L.onLink f).sdl = L.sdl := rfl
@[simp] theorem Lane.onLink_trio (L : Lane) (f : LinkSt → LinkSt) : (L.onLink f).trio = L.trio := rfl
@[simp] theorem Lane.onLink_cmdq (L : Lane) (f : LinkSt → LinkSt) : (L.onLink f).cmdq = L.cmdq := rfl
@[simp] theorem Lane.onLink_gate (L : Lane) (f : LinkSt → LinkSt) : (L.onLink f).gate = L.gate := rfl
@[simp] theorem Lane.onLink_loops (L : Lane) (f : LinkSt → LinkSt) : (L.onLink f).loops = L.loops := rfl
@[simp] theorem Lane.onLink_drive (L : Lane) (f : LinkSt → LinkSt) : (L.onLink f).drive = L.drive := rfl
@[simp] theorem Lane.onLink_cnvs (L : Lane) (f : LinkSt → LinkSt) : (L.onLink f).cnvs = L.cnvs := rfl
@[simp] theorem Lane.onLink_icv (L : Lane) (f : LinkSt → LinkSt) : (L.onLink f).icv = L.icv := rfl
@[simp] theorem Lane.onLink_pos (L : Lane) (f : LinkSt → LinkSt) : (L.onLink f).pos = L.pos := rfl
@[simp] theorem Lane.onLink_saf (L : Lane) (f : LinkSt → LinkSt) : (L.onLink f).saf = L.saf := rfl
@[simp] theorem Lane.onLink_hsf (L : Lane) (f : LinkSt → LinkSt) : (L.onLink f).hsf = L.hsf := rfl
@[simp] theorem Lane.onLink_pwr (L : Lane) (f : LinkSt → LinkSt) : (L.onLink f).pwr = L.pwr := rfl
@[simp] theorem Lane.onLink_test (L : Lane) (f : LinkSt → LinkSt) : (L.onLink f).test = L.test := rfl
@[simp] theorem Lane.onLink_can (L : Lane) (f : LinkSt → LinkSt) : (L.onLink f).can = L.can := rfl
@[simp] theorem Lane.onLink_flx (L : Lane) (f : LinkSt → LinkSt) : (L.onLink f).flx = L.flx := rfl
@[simp] theorem Lane.onLink_eth (L : Lane) (f : LinkSt → LinkSt) : (L.onLink f).eth = L.eth := rfl
@[simp] theorem Lane.onLink_twp (L : Lane) (f : LinkSt → LinkSt) : (L.onLink f).twp = L.twp := rfl
@[simp] theorem Lane.onLink_hk (L : Lane) (f : LinkSt → LinkSt) : (L.onLink f).hk = L.hk := rfl
@[simp] theorem Lane.onLink_ths (L : Lane) (f : LinkSt → LinkSt) : (L.onLink f).ths = L.ths := rfl
@[simp] theorem Lane.onLink_alm (L : Lane) (f : LinkSt → LinkSt) : (L.onLink f).alm = L.alm := rfl
@[simp] theorem Lane.onLink_rd (L : Lane) (f : LinkSt → LinkSt) (x : Nat) : (L.onLink f).rd x = L.rd x := rfl
@[simp] theorem Lane.onLink_byte (L : Lane) (f : LinkSt → LinkSt) (x : Nat) : (L.onLink f).byte x = L.byte x := rfl
@[simp] theorem Lane.onLink_get (L : Lane) (f : LinkSt → LinkSt) (g : Fld) (j i : Nat) : (L.onLink f).get g j i = L.get g j i := rfl

@[simp] theorem Lane.onCan_strap (L : Lane) (n : Nat) (f : CanSt → CanSt) : (L.onCan n f).strap = L.strap := rfl
@[simp] theorem Lane.onCan_regs (L : Lane) (n : Nat) (f : CanSt → CanSt) : (L.onCan n f).regs = L.regs := rfl
@[simp] theorem Lane.onCan_mem (L : Lane) (n : Nat) (f : CanSt → CanSt) : (L.onCan n f).mem = L.mem := rfl
@[simp] theorem Lane.onCan_evqTime (L : Lane) (n : Nat) (f : CanSt → CanSt) : (L.onCan n f).evqTime = L.evqTime := rfl
@[simp] theorem Lane.onCan_evqRead (L : Lane) (n : Nat) (f : CanSt → CanSt) : (L.onCan n f).evqRead = L.evqRead := rfl
@[simp] theorem Lane.onCan_tokens (L : Lane) (n : Nat) (f : CanSt → CanSt) : (L.onCan n f).tokens = L.tokens := rfl
@[simp] theorem Lane.onCan_now (L : Lane) (n : Nat) (f : CanSt → CanSt) : (L.onCan n f).now = L.now := rfl
@[simp] theorem Lane.onCan_mt (L : Lane) (n : Nat) (f : CanSt → CanSt) : (L.onCan n f).mt = L.mt := rfl
@[simp] theorem Lane.onCan_claimed (L : Lane) (n : Nat) (f : CanSt → CanSt) : (L.onCan n f).claimed = L.claimed := rfl
@[simp] theorem Lane.onCan_ip (L : Lane) (n : Nat) (f : CanSt → CanSt) : (L.onCan n f).ip = L.ip := rfl
@[simp] theorem Lane.onCan_claimData (L : Lane) (n : Nat) (f : CanSt → CanSt) : (L.onCan n f).claimData = L.claimData := rfl
@[simp] theorem Lane.onCan_isolated (L : Lane) (n : Nat) (f : CanSt → CanSt) : (L.onCan n f).isolated = L.isolated := rfl
@[simp] theorem Lane.onCan_cyc (L : Lane) (n : Nat) (f : CanSt → CanSt) : (L.onCan n f).cyc = L.cyc := rfl
@[simp] theorem Lane.onCan_rst (L : Lane) (n : Nat) (f : CanSt → CanSt) : (L.onCan n f).rst = L.rst := rfl
@[simp] theorem Lane.onCan_link (L : Lane) (n : Nat) (f : CanSt → CanSt) : (L.onCan n f).link = L.link := rfl
@[simp] theorem Lane.onCan_clk (L : Lane) (n : Nat) (f : CanSt → CanSt) : (L.onCan n f).clk = L.clk := rfl
@[simp] theorem Lane.onCan_ozl (L : Lane) (n : Nat) (f : CanSt → CanSt) : (L.onCan n f).ozl = L.ozl := rfl
@[simp] theorem Lane.onCan_sdl (L : Lane) (n : Nat) (f : CanSt → CanSt) : (L.onCan n f).sdl = L.sdl := rfl
@[simp] theorem Lane.onCan_trio (L : Lane) (n : Nat) (f : CanSt → CanSt) : (L.onCan n f).trio = L.trio := rfl
@[simp] theorem Lane.onCan_cmdq (L : Lane) (n : Nat) (f : CanSt → CanSt) : (L.onCan n f).cmdq = L.cmdq := rfl
@[simp] theorem Lane.onCan_gate (L : Lane) (n : Nat) (f : CanSt → CanSt) : (L.onCan n f).gate = L.gate := rfl
@[simp] theorem Lane.onCan_loops (L : Lane) (n : Nat) (f : CanSt → CanSt) : (L.onCan n f).loops = L.loops := rfl
@[simp] theorem Lane.onCan_drive (L : Lane) (n : Nat) (f : CanSt → CanSt) : (L.onCan n f).drive = L.drive := rfl
@[simp] theorem Lane.onCan_cnvs (L : Lane) (n : Nat) (f : CanSt → CanSt) : (L.onCan n f).cnvs = L.cnvs := rfl
@[simp] theorem Lane.onCan_icv (L : Lane) (n : Nat) (f : CanSt → CanSt) : (L.onCan n f).icv = L.icv := rfl
@[simp] theorem Lane.onCan_pos (L : Lane) (n : Nat) (f : CanSt → CanSt) : (L.onCan n f).pos = L.pos := rfl
@[simp] theorem Lane.onCan_saf (L : Lane) (n : Nat) (f : CanSt → CanSt) : (L.onCan n f).saf = L.saf := rfl
@[simp] theorem Lane.onCan_hsf (L : Lane) (n : Nat) (f : CanSt → CanSt) : (L.onCan n f).hsf = L.hsf := rfl
@[simp] theorem Lane.onCan_pwr (L : Lane) (n : Nat) (f : CanSt → CanSt) : (L.onCan n f).pwr = L.pwr := rfl
@[simp] theorem Lane.onCan_test (L : Lane) (n : Nat) (f : CanSt → CanSt) : (L.onCan n f).test = L.test := rfl
@[simp] theorem Lane.onCan_flx (L : Lane) (n : Nat) (f : CanSt → CanSt) : (L.onCan n f).flx = L.flx := rfl
@[simp] theorem Lane.onCan_eth (L : Lane) (n : Nat) (f : CanSt → CanSt) : (L.onCan n f).eth = L.eth := rfl
@[simp] theorem Lane.onCan_twp (L : Lane) (n : Nat) (f : CanSt → CanSt) : (L.onCan n f).twp = L.twp := rfl
@[simp] theorem Lane.onCan_hk (L : Lane) (n : Nat) (f : CanSt → CanSt) : (L.onCan n f).hk = L.hk := rfl
@[simp] theorem Lane.onCan_ths (L : Lane) (n : Nat) (f : CanSt → CanSt) : (L.onCan n f).ths = L.ths := rfl
@[simp] theorem Lane.onCan_alm (L : Lane) (n : Nat) (f : CanSt → CanSt) : (L.onCan n f).alm = L.alm := rfl
@[simp] theorem Lane.onCan_rd (L : Lane) (n : Nat) (f : CanSt → CanSt) (x : Nat) : (L.onCan n f).rd x = L.rd x := rfl
@[simp] theorem Lane.onCan_byte (L : Lane) (n : Nat) (f : CanSt → CanSt) (x : Nat) : (L.onCan n f).byte x = L.byte x := rfl
@[simp] theorem Lane.onCan_get (L : Lane) (n : Nat) (f : CanSt → CanSt) (g : Fld) (j i : Nat) : (L.onCan n f).get g j i = L.get g j i := rfl

@[simp] theorem Lane.onCmdq_strap (L : Lane) (f : CmdqSt → CmdqSt) : (L.onCmdq f).strap = L.strap := rfl
@[simp] theorem Lane.onCmdq_regs (L : Lane) (f : CmdqSt → CmdqSt) : (L.onCmdq f).regs = L.regs := rfl
@[simp] theorem Lane.onCmdq_mem (L : Lane) (f : CmdqSt → CmdqSt) : (L.onCmdq f).mem = L.mem := rfl
@[simp] theorem Lane.onCmdq_evqTime (L : Lane) (f : CmdqSt → CmdqSt) : (L.onCmdq f).evqTime = L.evqTime := rfl
@[simp] theorem Lane.onCmdq_evqRead (L : Lane) (f : CmdqSt → CmdqSt) : (L.onCmdq f).evqRead = L.evqRead := rfl
@[simp] theorem Lane.onCmdq_tokens (L : Lane) (f : CmdqSt → CmdqSt) : (L.onCmdq f).tokens = L.tokens := rfl
@[simp] theorem Lane.onCmdq_now (L : Lane) (f : CmdqSt → CmdqSt) : (L.onCmdq f).now = L.now := rfl
@[simp] theorem Lane.onCmdq_mt (L : Lane) (f : CmdqSt → CmdqSt) : (L.onCmdq f).mt = L.mt := rfl
@[simp] theorem Lane.onCmdq_claimed (L : Lane) (f : CmdqSt → CmdqSt) : (L.onCmdq f).claimed = L.claimed := rfl
@[simp] theorem Lane.onCmdq_ip (L : Lane) (f : CmdqSt → CmdqSt) : (L.onCmdq f).ip = L.ip := rfl
@[simp] theorem Lane.onCmdq_claimData (L : Lane) (f : CmdqSt → CmdqSt) : (L.onCmdq f).claimData = L.claimData := rfl
@[simp] theorem Lane.onCmdq_isolated (L : Lane) (f : CmdqSt → CmdqSt) : (L.onCmdq f).isolated = L.isolated := rfl
@[simp] theorem Lane.onCmdq_cyc (L : Lane) (f : CmdqSt → CmdqSt) : (L.onCmdq f).cyc = L.cyc := rfl
@[simp] theorem Lane.onCmdq_rst (L : Lane) (f : CmdqSt → CmdqSt) : (L.onCmdq f).rst = L.rst := rfl
@[simp] theorem Lane.onCmdq_link (L : Lane) (f : CmdqSt → CmdqSt) : (L.onCmdq f).link = L.link := rfl
@[simp] theorem Lane.onCmdq_clk (L : Lane) (f : CmdqSt → CmdqSt) : (L.onCmdq f).clk = L.clk := rfl
@[simp] theorem Lane.onCmdq_ozl (L : Lane) (f : CmdqSt → CmdqSt) : (L.onCmdq f).ozl = L.ozl := rfl
@[simp] theorem Lane.onCmdq_sdl (L : Lane) (f : CmdqSt → CmdqSt) : (L.onCmdq f).sdl = L.sdl := rfl
@[simp] theorem Lane.onCmdq_trio (L : Lane) (f : CmdqSt → CmdqSt) : (L.onCmdq f).trio = L.trio := rfl
@[simp] theorem Lane.onCmdq_gate (L : Lane) (f : CmdqSt → CmdqSt) : (L.onCmdq f).gate = L.gate := rfl
@[simp] theorem Lane.onCmdq_loops (L : Lane) (f : CmdqSt → CmdqSt) : (L.onCmdq f).loops = L.loops := rfl
@[simp] theorem Lane.onCmdq_drive (L : Lane) (f : CmdqSt → CmdqSt) : (L.onCmdq f).drive = L.drive := rfl
@[simp] theorem Lane.onCmdq_cnvs (L : Lane) (f : CmdqSt → CmdqSt) : (L.onCmdq f).cnvs = L.cnvs := rfl
@[simp] theorem Lane.onCmdq_icv (L : Lane) (f : CmdqSt → CmdqSt) : (L.onCmdq f).icv = L.icv := rfl
@[simp] theorem Lane.onCmdq_pos (L : Lane) (f : CmdqSt → CmdqSt) : (L.onCmdq f).pos = L.pos := rfl
@[simp] theorem Lane.onCmdq_saf (L : Lane) (f : CmdqSt → CmdqSt) : (L.onCmdq f).saf = L.saf := rfl
@[simp] theorem Lane.onCmdq_hsf (L : Lane) (f : CmdqSt → CmdqSt) : (L.onCmdq f).hsf = L.hsf := rfl
@[simp] theorem Lane.onCmdq_pwr (L : Lane) (f : CmdqSt → CmdqSt) : (L.onCmdq f).pwr = L.pwr := rfl
@[simp] theorem Lane.onCmdq_test (L : Lane) (f : CmdqSt → CmdqSt) : (L.onCmdq f).test = L.test := rfl
@[simp] theorem Lane.onCmdq_can (L : Lane) (f : CmdqSt → CmdqSt) : (L.onCmdq f).can = L.can := rfl
@[simp] theorem Lane.onCmdq_flx (L : Lane) (f : CmdqSt → CmdqSt) : (L.onCmdq f).flx = L.flx := rfl
@[simp] theorem Lane.onCmdq_eth (L : Lane) (f : CmdqSt → CmdqSt) : (L.onCmdq f).eth = L.eth := rfl
@[simp] theorem Lane.onCmdq_twp (L : Lane) (f : CmdqSt → CmdqSt) : (L.onCmdq f).twp = L.twp := rfl
@[simp] theorem Lane.onCmdq_hk (L : Lane) (f : CmdqSt → CmdqSt) : (L.onCmdq f).hk = L.hk := rfl
@[simp] theorem Lane.onCmdq_ths (L : Lane) (f : CmdqSt → CmdqSt) : (L.onCmdq f).ths = L.ths := rfl
@[simp] theorem Lane.onCmdq_alm (L : Lane) (f : CmdqSt → CmdqSt) : (L.onCmdq f).alm = L.alm := rfl
@[simp] theorem Lane.onCmdq_rd (L : Lane) (f : CmdqSt → CmdqSt) (x : Nat) : (L.onCmdq f).rd x = L.rd x := rfl
@[simp] theorem Lane.onCmdq_byte (L : Lane) (f : CmdqSt → CmdqSt) (x : Nat) : (L.onCmdq f).byte x = L.byte x := rfl
@[simp] theorem Lane.onCmdq_get (L : Lane) (f : CmdqSt → CmdqSt) (g : Fld) (j i : Nat) : (L.onCmdq f).get g j i = L.get g j i := rfl

@[simp] theorem Lane.onIcv_strap (L : Lane) (f : IcvSt → IcvSt) : (L.onIcv f).strap = L.strap := rfl
@[simp] theorem Lane.onIcv_regs (L : Lane) (f : IcvSt → IcvSt) : (L.onIcv f).regs = L.regs := rfl
@[simp] theorem Lane.onIcv_mem (L : Lane) (f : IcvSt → IcvSt) : (L.onIcv f).mem = L.mem := rfl
@[simp] theorem Lane.onIcv_evqTime (L : Lane) (f : IcvSt → IcvSt) : (L.onIcv f).evqTime = L.evqTime := rfl
@[simp] theorem Lane.onIcv_evqRead (L : Lane) (f : IcvSt → IcvSt) : (L.onIcv f).evqRead = L.evqRead := rfl
@[simp] theorem Lane.onIcv_tokens (L : Lane) (f : IcvSt → IcvSt) : (L.onIcv f).tokens = L.tokens := rfl
@[simp] theorem Lane.onIcv_now (L : Lane) (f : IcvSt → IcvSt) : (L.onIcv f).now = L.now := rfl
@[simp] theorem Lane.onIcv_mt (L : Lane) (f : IcvSt → IcvSt) : (L.onIcv f).mt = L.mt := rfl
@[simp] theorem Lane.onIcv_claimed (L : Lane) (f : IcvSt → IcvSt) : (L.onIcv f).claimed = L.claimed := rfl
@[simp] theorem Lane.onIcv_ip (L : Lane) (f : IcvSt → IcvSt) : (L.onIcv f).ip = L.ip := rfl
@[simp] theorem Lane.onIcv_claimData (L : Lane) (f : IcvSt → IcvSt) : (L.onIcv f).claimData = L.claimData := rfl
@[simp] theorem Lane.onIcv_isolated (L : Lane) (f : IcvSt → IcvSt) : (L.onIcv f).isolated = L.isolated := rfl
@[simp] theorem Lane.onIcv_cyc (L : Lane) (f : IcvSt → IcvSt) : (L.onIcv f).cyc = L.cyc := rfl
@[simp] theorem Lane.onIcv_rst (L : Lane) (f : IcvSt → IcvSt) : (L.onIcv f).rst = L.rst := rfl
@[simp] theorem Lane.onIcv_link (L : Lane) (f : IcvSt → IcvSt) : (L.onIcv f).link = L.link := rfl
@[simp] theorem Lane.onIcv_clk (L : Lane) (f : IcvSt → IcvSt) : (L.onIcv f).clk = L.clk := rfl
@[simp] theorem Lane.onIcv_ozl (L : Lane) (f : IcvSt → IcvSt) : (L.onIcv f).ozl = L.ozl := rfl
@[simp] theorem Lane.onIcv_sdl (L : Lane) (f : IcvSt → IcvSt) : (L.onIcv f).sdl = L.sdl := rfl
@[simp] theorem Lane.onIcv_trio (L : Lane) (f : IcvSt → IcvSt) : (L.onIcv f).trio = L.trio := rfl
@[simp] theorem Lane.onIcv_cmdq (L : Lane) (f : IcvSt → IcvSt) : (L.onIcv f).cmdq = L.cmdq := rfl
@[simp] theorem Lane.onIcv_gate (L : Lane) (f : IcvSt → IcvSt) : (L.onIcv f).gate = L.gate := rfl
@[simp] theorem Lane.onIcv_loops (L : Lane) (f : IcvSt → IcvSt) : (L.onIcv f).loops = L.loops := rfl
@[simp] theorem Lane.onIcv_drive (L : Lane) (f : IcvSt → IcvSt) : (L.onIcv f).drive = L.drive := rfl
@[simp] theorem Lane.onIcv_cnvs (L : Lane) (f : IcvSt → IcvSt) : (L.onIcv f).cnvs = L.cnvs := rfl
@[simp] theorem Lane.onIcv_pos (L : Lane) (f : IcvSt → IcvSt) : (L.onIcv f).pos = L.pos := rfl
@[simp] theorem Lane.onIcv_saf (L : Lane) (f : IcvSt → IcvSt) : (L.onIcv f).saf = L.saf := rfl
@[simp] theorem Lane.onIcv_hsf (L : Lane) (f : IcvSt → IcvSt) : (L.onIcv f).hsf = L.hsf := rfl
@[simp] theorem Lane.onIcv_pwr (L : Lane) (f : IcvSt → IcvSt) : (L.onIcv f).pwr = L.pwr := rfl
@[simp] theorem Lane.onIcv_test (L : Lane) (f : IcvSt → IcvSt) : (L.onIcv f).test = L.test := rfl
@[simp] theorem Lane.onIcv_can (L : Lane) (f : IcvSt → IcvSt) : (L.onIcv f).can = L.can := rfl
@[simp] theorem Lane.onIcv_flx (L : Lane) (f : IcvSt → IcvSt) : (L.onIcv f).flx = L.flx := rfl
@[simp] theorem Lane.onIcv_eth (L : Lane) (f : IcvSt → IcvSt) : (L.onIcv f).eth = L.eth := rfl
@[simp] theorem Lane.onIcv_twp (L : Lane) (f : IcvSt → IcvSt) : (L.onIcv f).twp = L.twp := rfl
@[simp] theorem Lane.onIcv_hk (L : Lane) (f : IcvSt → IcvSt) : (L.onIcv f).hk = L.hk := rfl
@[simp] theorem Lane.onIcv_ths (L : Lane) (f : IcvSt → IcvSt) : (L.onIcv f).ths = L.ths := rfl
@[simp] theorem Lane.onIcv_alm (L : Lane) (f : IcvSt → IcvSt) : (L.onIcv f).alm = L.alm := rfl
@[simp] theorem Lane.onIcv_rd (L : Lane) (f : IcvSt → IcvSt) (x : Nat) : (L.onIcv f).rd x = L.rd x := rfl
@[simp] theorem Lane.onIcv_byte (L : Lane) (f : IcvSt → IcvSt) (x : Nat) : (L.onIcv f).byte x = L.byte x := rfl
@[simp] theorem Lane.onIcv_get (L : Lane) (f : IcvSt → IcvSt) (g : Fld) (j i : Nat) : (L.onIcv f).get g j i = L.get g j i := rfl

@[simp] theorem Lane.onCnv_strap (L : Lane) (n : Nat) (f : CnvSt → CnvSt) : (L.onCnv n f).strap = L.strap := rfl
@[simp] theorem Lane.onCnv_regs (L : Lane) (n : Nat) (f : CnvSt → CnvSt) : (L.onCnv n f).regs = L.regs := rfl
@[simp] theorem Lane.onCnv_mem (L : Lane) (n : Nat) (f : CnvSt → CnvSt) : (L.onCnv n f).mem = L.mem := rfl
@[simp] theorem Lane.onCnv_evqTime (L : Lane) (n : Nat) (f : CnvSt → CnvSt) : (L.onCnv n f).evqTime = L.evqTime := rfl
@[simp] theorem Lane.onCnv_evqRead (L : Lane) (n : Nat) (f : CnvSt → CnvSt) : (L.onCnv n f).evqRead = L.evqRead := rfl
@[simp] theorem Lane.onCnv_tokens (L : Lane) (n : Nat) (f : CnvSt → CnvSt) : (L.onCnv n f).tokens = L.tokens := rfl
@[simp] theorem Lane.onCnv_now (L : Lane) (n : Nat) (f : CnvSt → CnvSt) : (L.onCnv n f).now = L.now := rfl
@[simp] theorem Lane.onCnv_mt (L : Lane) (n : Nat) (f : CnvSt → CnvSt) : (L.onCnv n f).mt = L.mt := rfl
@[simp] theorem Lane.onCnv_claimed (L : Lane) (n : Nat) (f : CnvSt → CnvSt) : (L.onCnv n f).claimed = L.claimed := rfl
@[simp] theorem Lane.onCnv_ip (L : Lane) (n : Nat) (f : CnvSt → CnvSt) : (L.onCnv n f).ip = L.ip := rfl
@[simp] theorem Lane.onCnv_claimData (L : Lane) (n : Nat) (f : CnvSt → CnvSt) : (L.onCnv n f).claimData = L.claimData := rfl
@[simp] theorem Lane.onCnv_isolated (L : Lane) (n : Nat) (f : CnvSt → CnvSt) : (L.onCnv n f).isolated = L.isolated := rfl
@[simp] theorem Lane.onCnv_cyc (L : Lane) (n : Nat) (f : CnvSt → CnvSt) : (L.onCnv n f).cyc = L.cyc := rfl
@[simp] theorem Lane.onCnv_rst (L : Lane) (n : Nat) (f : CnvSt → CnvSt) : (L.onCnv n f).rst = L.rst := rfl
@[simp] theorem Lane.onCnv_link (L : Lane) (n : Nat) (f : CnvSt → CnvSt) : (L.onCnv n f).link = L.link := rfl
@[simp] theorem Lane.onCnv_clk (L : Lane) (n : Nat) (f : CnvSt → CnvSt) : (L.onCnv n f).clk = L.clk := rfl
@[simp] theorem Lane.onCnv_ozl (L : Lane) (n : Nat) (f : CnvSt → CnvSt) : (L.onCnv n f).ozl = L.ozl := rfl
@[simp] theorem Lane.onCnv_sdl (L : Lane) (n : Nat) (f : CnvSt → CnvSt) : (L.onCnv n f).sdl = L.sdl := rfl
@[simp] theorem Lane.onCnv_trio (L : Lane) (n : Nat) (f : CnvSt → CnvSt) : (L.onCnv n f).trio = L.trio := rfl
@[simp] theorem Lane.onCnv_cmdq (L : Lane) (n : Nat) (f : CnvSt → CnvSt) : (L.onCnv n f).cmdq = L.cmdq := rfl
@[simp] theorem Lane.onCnv_gate (L : Lane) (n : Nat) (f : CnvSt → CnvSt) : (L.onCnv n f).gate = L.gate := rfl
@[simp] theorem Lane.onCnv_loops (L : Lane) (n : Nat) (f : CnvSt → CnvSt) : (L.onCnv n f).loops = L.loops := rfl
@[simp] theorem Lane.onCnv_drive (L : Lane) (n : Nat) (f : CnvSt → CnvSt) : (L.onCnv n f).drive = L.drive := rfl
@[simp] theorem Lane.onCnv_icv (L : Lane) (n : Nat) (f : CnvSt → CnvSt) : (L.onCnv n f).icv = L.icv := rfl
@[simp] theorem Lane.onCnv_pos (L : Lane) (n : Nat) (f : CnvSt → CnvSt) : (L.onCnv n f).pos = L.pos := rfl
@[simp] theorem Lane.onCnv_saf (L : Lane) (n : Nat) (f : CnvSt → CnvSt) : (L.onCnv n f).saf = L.saf := rfl
@[simp] theorem Lane.onCnv_hsf (L : Lane) (n : Nat) (f : CnvSt → CnvSt) : (L.onCnv n f).hsf = L.hsf := rfl
@[simp] theorem Lane.onCnv_pwr (L : Lane) (n : Nat) (f : CnvSt → CnvSt) : (L.onCnv n f).pwr = L.pwr := rfl
@[simp] theorem Lane.onCnv_test (L : Lane) (n : Nat) (f : CnvSt → CnvSt) : (L.onCnv n f).test = L.test := rfl
@[simp] theorem Lane.onCnv_can (L : Lane) (n : Nat) (f : CnvSt → CnvSt) : (L.onCnv n f).can = L.can := rfl
@[simp] theorem Lane.onCnv_flx (L : Lane) (n : Nat) (f : CnvSt → CnvSt) : (L.onCnv n f).flx = L.flx := rfl
@[simp] theorem Lane.onCnv_eth (L : Lane) (n : Nat) (f : CnvSt → CnvSt) : (L.onCnv n f).eth = L.eth := rfl
@[simp] theorem Lane.onCnv_twp (L : Lane) (n : Nat) (f : CnvSt → CnvSt) : (L.onCnv n f).twp = L.twp := rfl
@[simp] theorem Lane.onCnv_hk (L : Lane) (n : Nat) (f : CnvSt → CnvSt) : (L.onCnv n f).hk = L.hk := rfl
@[simp] theorem Lane.onCnv_ths (L : Lane) (n : Nat) (f : CnvSt → CnvSt) : (L.onCnv n f).ths = L.ths := rfl
@[simp] theorem Lane.onCnv_alm (L : Lane) (n : Nat) (f : CnvSt → CnvSt) : (L.onCnv n f).alm = L.alm := rfl
@[simp] theorem Lane.onCnv_rd (L : Lane) (n : Nat) (f : CnvSt → CnvSt) (x : Nat) : (L.onCnv n f).rd x = L.rd x := rfl
@[simp] theorem Lane.onCnv_byte (L : Lane) (n : Nat) (f : CnvSt → CnvSt) (x : Nat) : (L.onCnv n f).byte x = L.byte x := rfl
@[simp] theorem Lane.onCnv_get (L : Lane) (n : Nat) (f : CnvSt → CnvSt) (g : Fld) (j i : Nat) : (L.onCnv n f).get g j i = L.get g j i := rfl

@[simp] theorem Lane.onCores_strap (L : Lane) (m : Nat) (f : Nat → CoreSt → CoreSt) : (L.onCores m f).strap = L.strap := rfl
@[simp] theorem Lane.onCores_regs (L : Lane) (m : Nat) (f : Nat → CoreSt → CoreSt) : (L.onCores m f).regs = L.regs := rfl
@[simp] theorem Lane.onCores_mem (L : Lane) (m : Nat) (f : Nat → CoreSt → CoreSt) : (L.onCores m f).mem = L.mem := rfl
@[simp] theorem Lane.onCores_evqTime (L : Lane) (m : Nat) (f : Nat → CoreSt → CoreSt) : (L.onCores m f).evqTime = L.evqTime := rfl
@[simp] theorem Lane.onCores_evqRead (L : Lane) (m : Nat) (f : Nat → CoreSt → CoreSt) : (L.onCores m f).evqRead = L.evqRead := rfl
@[simp] theorem Lane.onCores_tokens (L : Lane) (m : Nat) (f : Nat → CoreSt → CoreSt) : (L.onCores m f).tokens = L.tokens := rfl
@[simp] theorem Lane.onCores_now (L : Lane) (m : Nat) (f : Nat → CoreSt → CoreSt) : (L.onCores m f).now = L.now := rfl
@[simp] theorem Lane.onCores_mt (L : Lane) (m : Nat) (f : Nat → CoreSt → CoreSt) : (L.onCores m f).mt = L.mt := rfl
@[simp] theorem Lane.onCores_claimed (L : Lane) (m : Nat) (f : Nat → CoreSt → CoreSt) : (L.onCores m f).claimed = L.claimed := rfl
@[simp] theorem Lane.onCores_ip (L : Lane) (m : Nat) (f : Nat → CoreSt → CoreSt) : (L.onCores m f).ip = L.ip := rfl
@[simp] theorem Lane.onCores_claimData (L : Lane) (m : Nat) (f : Nat → CoreSt → CoreSt) : (L.onCores m f).claimData = L.claimData := rfl
@[simp] theorem Lane.onCores_isolated (L : Lane) (m : Nat) (f : Nat → CoreSt → CoreSt) : (L.onCores m f).isolated = L.isolated := rfl
@[simp] theorem Lane.onCores_cyc (L : Lane) (m : Nat) (f : Nat → CoreSt → CoreSt) : (L.onCores m f).cyc = L.cyc := rfl
@[simp] theorem Lane.onCores_rst (L : Lane) (m : Nat) (f : Nat → CoreSt → CoreSt) : (L.onCores m f).rst = L.rst := rfl
@[simp] theorem Lane.onCores_link (L : Lane) (m : Nat) (f : Nat → CoreSt → CoreSt) : (L.onCores m f).link = L.link := rfl
@[simp] theorem Lane.onCores_clk (L : Lane) (m : Nat) (f : Nat → CoreSt → CoreSt) : (L.onCores m f).clk = L.clk := rfl
@[simp] theorem Lane.onCores_ozl (L : Lane) (m : Nat) (f : Nat → CoreSt → CoreSt) : (L.onCores m f).ozl = L.ozl := rfl
@[simp] theorem Lane.onCores_sdl (L : Lane) (m : Nat) (f : Nat → CoreSt → CoreSt) : (L.onCores m f).sdl = L.sdl := rfl
@[simp] theorem Lane.onCores_cmdq (L : Lane) (m : Nat) (f : Nat → CoreSt → CoreSt) : (L.onCores m f).cmdq = L.cmdq := rfl
@[simp] theorem Lane.onCores_gate (L : Lane) (m : Nat) (f : Nat → CoreSt → CoreSt) : (L.onCores m f).gate = L.gate := rfl
@[simp] theorem Lane.onCores_loops (L : Lane) (m : Nat) (f : Nat → CoreSt → CoreSt) : (L.onCores m f).loops = L.loops := rfl
@[simp] theorem Lane.onCores_drive (L : Lane) (m : Nat) (f : Nat → CoreSt → CoreSt) : (L.onCores m f).drive = L.drive := rfl
@[simp] theorem Lane.onCores_cnvs (L : Lane) (m : Nat) (f : Nat → CoreSt → CoreSt) : (L.onCores m f).cnvs = L.cnvs := rfl
@[simp] theorem Lane.onCores_icv (L : Lane) (m : Nat) (f : Nat → CoreSt → CoreSt) : (L.onCores m f).icv = L.icv := rfl
@[simp] theorem Lane.onCores_pos (L : Lane) (m : Nat) (f : Nat → CoreSt → CoreSt) : (L.onCores m f).pos = L.pos := rfl
@[simp] theorem Lane.onCores_saf (L : Lane) (m : Nat) (f : Nat → CoreSt → CoreSt) : (L.onCores m f).saf = L.saf := rfl
@[simp] theorem Lane.onCores_hsf (L : Lane) (m : Nat) (f : Nat → CoreSt → CoreSt) : (L.onCores m f).hsf = L.hsf := rfl
@[simp] theorem Lane.onCores_pwr (L : Lane) (m : Nat) (f : Nat → CoreSt → CoreSt) : (L.onCores m f).pwr = L.pwr := rfl
@[simp] theorem Lane.onCores_test (L : Lane) (m : Nat) (f : Nat → CoreSt → CoreSt) : (L.onCores m f).test = L.test := rfl
@[simp] theorem Lane.onCores_can (L : Lane) (m : Nat) (f : Nat → CoreSt → CoreSt) : (L.onCores m f).can = L.can := rfl
@[simp] theorem Lane.onCores_flx (L : Lane) (m : Nat) (f : Nat → CoreSt → CoreSt) : (L.onCores m f).flx = L.flx := rfl
@[simp] theorem Lane.onCores_eth (L : Lane) (m : Nat) (f : Nat → CoreSt → CoreSt) : (L.onCores m f).eth = L.eth := rfl
@[simp] theorem Lane.onCores_twp (L : Lane) (m : Nat) (f : Nat → CoreSt → CoreSt) : (L.onCores m f).twp = L.twp := rfl
@[simp] theorem Lane.onCores_hk (L : Lane) (m : Nat) (f : Nat → CoreSt → CoreSt) : (L.onCores m f).hk = L.hk := rfl
@[simp] theorem Lane.onCores_ths (L : Lane) (m : Nat) (f : Nat → CoreSt → CoreSt) : (L.onCores m f).ths = L.ths := rfl
@[simp] theorem Lane.onCores_alm (L : Lane) (m : Nat) (f : Nat → CoreSt → CoreSt) : (L.onCores m f).alm = L.alm := rfl
@[simp] theorem Lane.onCores_rd (L : Lane) (m : Nat) (f : Nat → CoreSt → CoreSt) (x : Nat) : (L.onCores m f).rd x = L.rd x := rfl
@[simp] theorem Lane.onCores_byte (L : Lane) (m : Nat) (f : Nat → CoreSt → CoreSt) (x : Nat) : (L.onCores m f).byte x = L.byte x := rfl
@[simp] theorem Lane.onCores_get (L : Lane) (m : Nat) (f : Nat → CoreSt → CoreSt) (g : Fld) (j i : Nat) : (L.onCores m f).get g j i = L.get g j i := rfl

@[simp] theorem Lane.onDrv_strap (L : Lane) (k : Nat) (f : DrvSt → DrvSt) : (L.onDrv k f).strap = L.strap := rfl
@[simp] theorem Lane.onDrv_regs (L : Lane) (k : Nat) (f : DrvSt → DrvSt) : (L.onDrv k f).regs = L.regs := rfl
@[simp] theorem Lane.onDrv_mem (L : Lane) (k : Nat) (f : DrvSt → DrvSt) : (L.onDrv k f).mem = L.mem := rfl
@[simp] theorem Lane.onDrv_evqTime (L : Lane) (k : Nat) (f : DrvSt → DrvSt) : (L.onDrv k f).evqTime = L.evqTime := rfl
@[simp] theorem Lane.onDrv_evqRead (L : Lane) (k : Nat) (f : DrvSt → DrvSt) : (L.onDrv k f).evqRead = L.evqRead := rfl
@[simp] theorem Lane.onDrv_tokens (L : Lane) (k : Nat) (f : DrvSt → DrvSt) : (L.onDrv k f).tokens = L.tokens := rfl
@[simp] theorem Lane.onDrv_now (L : Lane) (k : Nat) (f : DrvSt → DrvSt) : (L.onDrv k f).now = L.now := rfl
@[simp] theorem Lane.onDrv_mt (L : Lane) (k : Nat) (f : DrvSt → DrvSt) : (L.onDrv k f).mt = L.mt := rfl
@[simp] theorem Lane.onDrv_claimed (L : Lane) (k : Nat) (f : DrvSt → DrvSt) : (L.onDrv k f).claimed = L.claimed := rfl
@[simp] theorem Lane.onDrv_ip (L : Lane) (k : Nat) (f : DrvSt → DrvSt) : (L.onDrv k f).ip = L.ip := rfl
@[simp] theorem Lane.onDrv_claimData (L : Lane) (k : Nat) (f : DrvSt → DrvSt) : (L.onDrv k f).claimData = L.claimData := rfl
@[simp] theorem Lane.onDrv_isolated (L : Lane) (k : Nat) (f : DrvSt → DrvSt) : (L.onDrv k f).isolated = L.isolated := rfl
@[simp] theorem Lane.onDrv_cyc (L : Lane) (k : Nat) (f : DrvSt → DrvSt) : (L.onDrv k f).cyc = L.cyc := rfl
@[simp] theorem Lane.onDrv_rst (L : Lane) (k : Nat) (f : DrvSt → DrvSt) : (L.onDrv k f).rst = L.rst := rfl
@[simp] theorem Lane.onDrv_link (L : Lane) (k : Nat) (f : DrvSt → DrvSt) : (L.onDrv k f).link = L.link := rfl
@[simp] theorem Lane.onDrv_clk (L : Lane) (k : Nat) (f : DrvSt → DrvSt) : (L.onDrv k f).clk = L.clk := rfl
@[simp] theorem Lane.onDrv_ozl (L : Lane) (k : Nat) (f : DrvSt → DrvSt) : (L.onDrv k f).ozl = L.ozl := rfl
@[simp] theorem Lane.onDrv_sdl (L : Lane) (k : Nat) (f : DrvSt → DrvSt) : (L.onDrv k f).sdl = L.sdl := rfl
@[simp] theorem Lane.onDrv_trio (L : Lane) (k : Nat) (f : DrvSt → DrvSt) : (L.onDrv k f).trio = L.trio := rfl
@[simp] theorem Lane.onDrv_cmdq (L : Lane) (k : Nat) (f : DrvSt → DrvSt) : (L.onDrv k f).cmdq = L.cmdq := rfl
@[simp] theorem Lane.onDrv_gate (L : Lane) (k : Nat) (f : DrvSt → DrvSt) : (L.onDrv k f).gate = L.gate := rfl
@[simp] theorem Lane.onDrv_loops (L : Lane) (k : Nat) (f : DrvSt → DrvSt) : (L.onDrv k f).loops = L.loops := rfl
@[simp] theorem Lane.onDrv_cnvs (L : Lane) (k : Nat) (f : DrvSt → DrvSt) : (L.onDrv k f).cnvs = L.cnvs := rfl
@[simp] theorem Lane.onDrv_icv (L : Lane) (k : Nat) (f : DrvSt → DrvSt) : (L.onDrv k f).icv = L.icv := rfl
@[simp] theorem Lane.onDrv_pos (L : Lane) (k : Nat) (f : DrvSt → DrvSt) : (L.onDrv k f).pos = L.pos := rfl
@[simp] theorem Lane.onDrv_saf (L : Lane) (k : Nat) (f : DrvSt → DrvSt) : (L.onDrv k f).saf = L.saf := rfl
@[simp] theorem Lane.onDrv_hsf (L : Lane) (k : Nat) (f : DrvSt → DrvSt) : (L.onDrv k f).hsf = L.hsf := rfl
@[simp] theorem Lane.onDrv_pwr (L : Lane) (k : Nat) (f : DrvSt → DrvSt) : (L.onDrv k f).pwr = L.pwr := rfl
@[simp] theorem Lane.onDrv_test (L : Lane) (k : Nat) (f : DrvSt → DrvSt) : (L.onDrv k f).test = L.test := rfl
@[simp] theorem Lane.onDrv_can (L : Lane) (k : Nat) (f : DrvSt → DrvSt) : (L.onDrv k f).can = L.can := rfl
@[simp] theorem Lane.onDrv_flx (L : Lane) (k : Nat) (f : DrvSt → DrvSt) : (L.onDrv k f).flx = L.flx := rfl
@[simp] theorem Lane.onDrv_eth (L : Lane) (k : Nat) (f : DrvSt → DrvSt) : (L.onDrv k f).eth = L.eth := rfl
@[simp] theorem Lane.onDrv_twp (L : Lane) (k : Nat) (f : DrvSt → DrvSt) : (L.onDrv k f).twp = L.twp := rfl
@[simp] theorem Lane.onDrv_hk (L : Lane) (k : Nat) (f : DrvSt → DrvSt) : (L.onDrv k f).hk = L.hk := rfl
@[simp] theorem Lane.onDrv_ths (L : Lane) (k : Nat) (f : DrvSt → DrvSt) : (L.onDrv k f).ths = L.ths := rfl
@[simp] theorem Lane.onDrv_alm (L : Lane) (k : Nat) (f : DrvSt → DrvSt) : (L.onDrv k f).alm = L.alm := rfl
@[simp] theorem Lane.onDrv_rd (L : Lane) (k : Nat) (f : DrvSt → DrvSt) (x : Nat) : (L.onDrv k f).rd x = L.rd x := rfl
@[simp] theorem Lane.onDrv_byte (L : Lane) (k : Nat) (f : DrvSt → DrvSt) (x : Nat) : (L.onDrv k f).byte x = L.byte x := rfl
@[simp] theorem Lane.onDrv_get (L : Lane) (k : Nat) (f : DrvSt → DrvSt) (g : Fld) (j i : Nat) : (L.onDrv k f).get g j i = L.get g j i := rfl

@[simp] theorem Lane.onFlx_strap (L : Lane) (f : FlxSt → FlxSt) : (L.onFlx f).strap = L.strap := rfl
@[simp] theorem Lane.onFlx_regs (L : Lane) (f : FlxSt → FlxSt) : (L.onFlx f).regs = L.regs := rfl
@[simp] theorem Lane.onFlx_mem (L : Lane) (f : FlxSt → FlxSt) : (L.onFlx f).mem = L.mem := rfl
@[simp] theorem Lane.onFlx_evqTime (L : Lane) (f : FlxSt → FlxSt) : (L.onFlx f).evqTime = L.evqTime := rfl
@[simp] theorem Lane.onFlx_evqRead (L : Lane) (f : FlxSt → FlxSt) : (L.onFlx f).evqRead = L.evqRead := rfl
@[simp] theorem Lane.onFlx_tokens (L : Lane) (f : FlxSt → FlxSt) : (L.onFlx f).tokens = L.tokens := rfl
@[simp] theorem Lane.onFlx_now (L : Lane) (f : FlxSt → FlxSt) : (L.onFlx f).now = L.now := rfl
@[simp] theorem Lane.onFlx_mt (L : Lane) (f : FlxSt → FlxSt) : (L.onFlx f).mt = L.mt := rfl
@[simp] theorem Lane.onFlx_claimed (L : Lane) (f : FlxSt → FlxSt) : (L.onFlx f).claimed = L.claimed := rfl
@[simp] theorem Lane.onFlx_ip (L : Lane) (f : FlxSt → FlxSt) : (L.onFlx f).ip = L.ip := rfl
@[simp] theorem Lane.onFlx_claimData (L : Lane) (f : FlxSt → FlxSt) : (L.onFlx f).claimData = L.claimData := rfl
@[simp] theorem Lane.onFlx_isolated (L : Lane) (f : FlxSt → FlxSt) : (L.onFlx f).isolated = L.isolated := rfl
@[simp] theorem Lane.onFlx_cyc (L : Lane) (f : FlxSt → FlxSt) : (L.onFlx f).cyc = L.cyc := rfl
@[simp] theorem Lane.onFlx_rst (L : Lane) (f : FlxSt → FlxSt) : (L.onFlx f).rst = L.rst := rfl
@[simp] theorem Lane.onFlx_link (L : Lane) (f : FlxSt → FlxSt) : (L.onFlx f).link = L.link := rfl
@[simp] theorem Lane.onFlx_clk (L : Lane) (f : FlxSt → FlxSt) : (L.onFlx f).clk = L.clk := rfl
@[simp] theorem Lane.onFlx_ozl (L : Lane) (f : FlxSt → FlxSt) : (L.onFlx f).ozl = L.ozl := rfl
@[simp] theorem Lane.onFlx_sdl (L : Lane) (f : FlxSt → FlxSt) : (L.onFlx f).sdl = L.sdl := rfl
@[simp] theorem Lane.onFlx_trio (L : Lane) (f : FlxSt → FlxSt) : (L.onFlx f).trio = L.trio := rfl
@[simp] theorem Lane.onFlx_cmdq (L : Lane) (f : FlxSt → FlxSt) : (L.onFlx f).cmdq = L.cmdq := rfl
@[simp] theorem Lane.onFlx_gate (L : Lane) (f : FlxSt → FlxSt) : (L.onFlx f).gate = L.gate := rfl
@[simp] theorem Lane.onFlx_loops (L : Lane) (f : FlxSt → FlxSt) : (L.onFlx f).loops = L.loops := rfl
@[simp] theorem Lane.onFlx_drive (L : Lane) (f : FlxSt → FlxSt) : (L.onFlx f).drive = L.drive := rfl
@[simp] theorem Lane.onFlx_cnvs (L : Lane) (f : FlxSt → FlxSt) : (L.onFlx f).cnvs = L.cnvs := rfl
@[simp] theorem Lane.onFlx_icv (L : Lane) (f : FlxSt → FlxSt) : (L.onFlx f).icv = L.icv := rfl
@[simp] theorem Lane.onFlx_pos (L : Lane) (f : FlxSt → FlxSt) : (L.onFlx f).pos = L.pos := rfl
@[simp] theorem Lane.onFlx_saf (L : Lane) (f : FlxSt → FlxSt) : (L.onFlx f).saf = L.saf := rfl
@[simp] theorem Lane.onFlx_hsf (L : Lane) (f : FlxSt → FlxSt) : (L.onFlx f).hsf = L.hsf := rfl
@[simp] theorem Lane.onFlx_pwr (L : Lane) (f : FlxSt → FlxSt) : (L.onFlx f).pwr = L.pwr := rfl
@[simp] theorem Lane.onFlx_test (L : Lane) (f : FlxSt → FlxSt) : (L.onFlx f).test = L.test := rfl
@[simp] theorem Lane.onFlx_can (L : Lane) (f : FlxSt → FlxSt) : (L.onFlx f).can = L.can := rfl
@[simp] theorem Lane.onFlx_eth (L : Lane) (f : FlxSt → FlxSt) : (L.onFlx f).eth = L.eth := rfl
@[simp] theorem Lane.onFlx_twp (L : Lane) (f : FlxSt → FlxSt) : (L.onFlx f).twp = L.twp := rfl
@[simp] theorem Lane.onFlx_hk (L : Lane) (f : FlxSt → FlxSt) : (L.onFlx f).hk = L.hk := rfl
@[simp] theorem Lane.onFlx_ths (L : Lane) (f : FlxSt → FlxSt) : (L.onFlx f).ths = L.ths := rfl
@[simp] theorem Lane.onFlx_alm (L : Lane) (f : FlxSt → FlxSt) : (L.onFlx f).alm = L.alm := rfl
@[simp] theorem Lane.onFlx_rd (L : Lane) (f : FlxSt → FlxSt) (x : Nat) : (L.onFlx f).rd x = L.rd x := rfl
@[simp] theorem Lane.onFlx_byte (L : Lane) (f : FlxSt → FlxSt) (x : Nat) : (L.onFlx f).byte x = L.byte x := rfl
@[simp] theorem Lane.onFlx_get (L : Lane) (f : FlxSt → FlxSt) (g : Fld) (j i : Nat) : (L.onFlx f).get g j i = L.get g j i := rfl

@[simp] theorem Lane.onGate_strap (L : Lane) (f : GateSt → GateSt) : (L.onGate f).strap = L.strap := rfl
@[simp] theorem Lane.onGate_regs (L : Lane) (f : GateSt → GateSt) : (L.onGate f).regs = L.regs := rfl
@[simp] theorem Lane.onGate_mem (L : Lane) (f : GateSt → GateSt) : (L.onGate f).mem = L.mem := rfl
@[simp] theorem Lane.onGate_evqTime (L : Lane) (f : GateSt → GateSt) : (L.onGate f).evqTime = L.evqTime := rfl
@[simp] theorem Lane.onGate_evqRead (L : Lane) (f : GateSt → GateSt) : (L.onGate f).evqRead = L.evqRead := rfl
@[simp] theorem Lane.onGate_tokens (L : Lane) (f : GateSt → GateSt) : (L.onGate f).tokens = L.tokens := rfl
@[simp] theorem Lane.onGate_now (L : Lane) (f : GateSt → GateSt) : (L.onGate f).now = L.now := rfl
@[simp] theorem Lane.onGate_mt (L : Lane) (f : GateSt → GateSt) : (L.onGate f).mt = L.mt := rfl
@[simp] theorem Lane.onGate_claimed (L : Lane) (f : GateSt → GateSt) : (L.onGate f).claimed = L.claimed := rfl
@[simp] theorem Lane.onGate_ip (L : Lane) (f : GateSt → GateSt) : (L.onGate f).ip = L.ip := rfl
@[simp] theorem Lane.onGate_claimData (L : Lane) (f : GateSt → GateSt) : (L.onGate f).claimData = L.claimData := rfl
@[simp] theorem Lane.onGate_isolated (L : Lane) (f : GateSt → GateSt) : (L.onGate f).isolated = L.isolated := rfl
@[simp] theorem Lane.onGate_cyc (L : Lane) (f : GateSt → GateSt) : (L.onGate f).cyc = L.cyc := rfl
@[simp] theorem Lane.onGate_rst (L : Lane) (f : GateSt → GateSt) : (L.onGate f).rst = L.rst := rfl
@[simp] theorem Lane.onGate_link (L : Lane) (f : GateSt → GateSt) : (L.onGate f).link = L.link := rfl
@[simp] theorem Lane.onGate_clk (L : Lane) (f : GateSt → GateSt) : (L.onGate f).clk = L.clk := rfl
@[simp] theorem Lane.onGate_ozl (L : Lane) (f : GateSt → GateSt) : (L.onGate f).ozl = L.ozl := rfl
@[simp] theorem Lane.onGate_sdl (L : Lane) (f : GateSt → GateSt) : (L.onGate f).sdl = L.sdl := rfl
@[simp] theorem Lane.onGate_trio (L : Lane) (f : GateSt → GateSt) : (L.onGate f).trio = L.trio := rfl
@[simp] theorem Lane.onGate_cmdq (L : Lane) (f : GateSt → GateSt) : (L.onGate f).cmdq = L.cmdq := rfl
@[simp] theorem Lane.onGate_loops (L : Lane) (f : GateSt → GateSt) : (L.onGate f).loops = L.loops := rfl
@[simp] theorem Lane.onGate_drive (L : Lane) (f : GateSt → GateSt) : (L.onGate f).drive = L.drive := rfl
@[simp] theorem Lane.onGate_cnvs (L : Lane) (f : GateSt → GateSt) : (L.onGate f).cnvs = L.cnvs := rfl
@[simp] theorem Lane.onGate_icv (L : Lane) (f : GateSt → GateSt) : (L.onGate f).icv = L.icv := rfl
@[simp] theorem Lane.onGate_pos (L : Lane) (f : GateSt → GateSt) : (L.onGate f).pos = L.pos := rfl
@[simp] theorem Lane.onGate_saf (L : Lane) (f : GateSt → GateSt) : (L.onGate f).saf = L.saf := rfl
@[simp] theorem Lane.onGate_hsf (L : Lane) (f : GateSt → GateSt) : (L.onGate f).hsf = L.hsf := rfl
@[simp] theorem Lane.onGate_pwr (L : Lane) (f : GateSt → GateSt) : (L.onGate f).pwr = L.pwr := rfl
@[simp] theorem Lane.onGate_test (L : Lane) (f : GateSt → GateSt) : (L.onGate f).test = L.test := rfl
@[simp] theorem Lane.onGate_can (L : Lane) (f : GateSt → GateSt) : (L.onGate f).can = L.can := rfl
@[simp] theorem Lane.onGate_flx (L : Lane) (f : GateSt → GateSt) : (L.onGate f).flx = L.flx := rfl
@[simp] theorem Lane.onGate_eth (L : Lane) (f : GateSt → GateSt) : (L.onGate f).eth = L.eth := rfl
@[simp] theorem Lane.onGate_twp (L : Lane) (f : GateSt → GateSt) : (L.onGate f).twp = L.twp := rfl
@[simp] theorem Lane.onGate_hk (L : Lane) (f : GateSt → GateSt) : (L.onGate f).hk = L.hk := rfl
@[simp] theorem Lane.onGate_ths (L : Lane) (f : GateSt → GateSt) : (L.onGate f).ths = L.ths := rfl
@[simp] theorem Lane.onGate_alm (L : Lane) (f : GateSt → GateSt) : (L.onGate f).alm = L.alm := rfl
@[simp] theorem Lane.onGate_rd (L : Lane) (f : GateSt → GateSt) (x : Nat) : (L.onGate f).rd x = L.rd x := rfl
@[simp] theorem Lane.onGate_byte (L : Lane) (f : GateSt → GateSt) (x : Nat) : (L.onGate f).byte x = L.byte x := rfl
@[simp] theorem Lane.onGate_get (L : Lane) (f : GateSt → GateSt) (g : Fld) (j i : Nat) : (L.onGate f).get g j i = L.get g j i := rfl

@[simp] theorem Lane.onOzl_strap (L : Lane) (f : OzlSt → OzlSt) : (L.onOzl f).strap = L.strap := rfl
@[simp] theorem Lane.onOzl_regs (L : Lane) (f : OzlSt → OzlSt) : (L.onOzl f).regs = L.regs := rfl
@[simp] theorem Lane.onOzl_mem (L : Lane) (f : OzlSt → OzlSt) : (L.onOzl f).mem = L.mem := rfl
@[simp] theorem Lane.onOzl_evqTime (L : Lane) (f : OzlSt → OzlSt) : (L.onOzl f).evqTime = L.evqTime := rfl
@[simp] theorem Lane.onOzl_evqRead (L : Lane) (f : OzlSt → OzlSt) : (L.onOzl f).evqRead = L.evqRead := rfl
@[simp] theorem Lane.onOzl_tokens (L : Lane) (f : OzlSt → OzlSt) : (L.onOzl f).tokens = L.tokens := rfl
@[simp] theorem Lane.onOzl_now (L : Lane) (f : OzlSt → OzlSt) : (L.onOzl f).now = L.now := rfl
@[simp] theorem Lane.onOzl_mt (L : Lane) (f : OzlSt → OzlSt) : (L.onOzl f).mt = L.mt := rfl
@[simp] theorem Lane.onOzl_claimed (L : Lane) (f : OzlSt → OzlSt) : (L.onOzl f).claimed = L.claimed := rfl
@[simp] theorem Lane.onOzl_ip (L : Lane) (f : OzlSt → OzlSt) : (L.onOzl f).ip = L.ip := rfl
@[simp] theorem Lane.onOzl_claimData (L : Lane) (f : OzlSt → OzlSt) : (L.onOzl f).claimData = L.claimData := rfl
@[simp] theorem Lane.onOzl_isolated (L : Lane) (f : OzlSt → OzlSt) : (L.onOzl f).isolated = L.isolated := rfl
@[simp] theorem Lane.onOzl_cyc (L : Lane) (f : OzlSt → OzlSt) : (L.onOzl f).cyc = L.cyc := rfl
@[simp] theorem Lane.onOzl_rst (L : Lane) (f : OzlSt → OzlSt) : (L.onOzl f).rst = L.rst := rfl
@[simp] theorem Lane.onOzl_link (L : Lane) (f : OzlSt → OzlSt) : (L.onOzl f).link = L.link := rfl
@[simp] theorem Lane.onOzl_clk (L : Lane) (f : OzlSt → OzlSt) : (L.onOzl f).clk = L.clk := rfl
@[simp] theorem Lane.onOzl_sdl (L : Lane) (f : OzlSt → OzlSt) : (L.onOzl f).sdl = L.sdl := rfl
@[simp] theorem Lane.onOzl_trio (L : Lane) (f : OzlSt → OzlSt) : (L.onOzl f).trio = L.trio := rfl
@[simp] theorem Lane.onOzl_cmdq (L : Lane) (f : OzlSt → OzlSt) : (L.onOzl f).cmdq = L.cmdq := rfl
@[simp] theorem Lane.onOzl_gate (L : Lane) (f : OzlSt → OzlSt) : (L.onOzl f).gate = L.gate := rfl
@[simp] theorem Lane.onOzl_loops (L : Lane) (f : OzlSt → OzlSt) : (L.onOzl f).loops = L.loops := rfl
@[simp] theorem Lane.onOzl_drive (L : Lane) (f : OzlSt → OzlSt) : (L.onOzl f).drive = L.drive := rfl
@[simp] theorem Lane.onOzl_cnvs (L : Lane) (f : OzlSt → OzlSt) : (L.onOzl f).cnvs = L.cnvs := rfl
@[simp] theorem Lane.onOzl_icv (L : Lane) (f : OzlSt → OzlSt) : (L.onOzl f).icv = L.icv := rfl
@[simp] theorem Lane.onOzl_pos (L : Lane) (f : OzlSt → OzlSt) : (L.onOzl f).pos = L.pos := rfl
@[simp] theorem Lane.onOzl_saf (L : Lane) (f : OzlSt → OzlSt) : (L.onOzl f).saf = L.saf := rfl
@[simp] theorem Lane.onOzl_hsf (L : Lane) (f : OzlSt → OzlSt) : (L.onOzl f).hsf = L.hsf := rfl
@[simp] theorem Lane.onOzl_pwr (L : Lane) (f : OzlSt → OzlSt) : (L.onOzl f).pwr = L.pwr := rfl
@[simp] theorem Lane.onOzl_test (L : Lane) (f : OzlSt → OzlSt) : (L.onOzl f).test = L.test := rfl
@[simp] theorem Lane.onOzl_can (L : Lane) (f : OzlSt → OzlSt) : (L.onOzl f).can = L.can := rfl
@[simp] theorem Lane.onOzl_flx (L : Lane) (f : OzlSt → OzlSt) : (L.onOzl f).flx = L.flx := rfl
@[simp] theorem Lane.onOzl_eth (L : Lane) (f : OzlSt → OzlSt) : (L.onOzl f).eth = L.eth := rfl
@[simp] theorem Lane.onOzl_twp (L : Lane) (f : OzlSt → OzlSt) : (L.onOzl f).twp = L.twp := rfl
@[simp] theorem Lane.onOzl_hk (L : Lane) (f : OzlSt → OzlSt) : (L.onOzl f).hk = L.hk := rfl
@[simp] theorem Lane.onOzl_ths (L : Lane) (f : OzlSt → OzlSt) : (L.onOzl f).ths = L.ths := rfl
@[simp] theorem Lane.onOzl_alm (L : Lane) (f : OzlSt → OzlSt) : (L.onOzl f).alm = L.alm := rfl
@[simp] theorem Lane.onOzl_rd (L : Lane) (f : OzlSt → OzlSt) (x : Nat) : (L.onOzl f).rd x = L.rd x := rfl
@[simp] theorem Lane.onOzl_byte (L : Lane) (f : OzlSt → OzlSt) (x : Nat) : (L.onOzl f).byte x = L.byte x := rfl
@[simp] theorem Lane.onOzl_get (L : Lane) (f : OzlSt → OzlSt) (g : Fld) (j i : Nat) : (L.onOzl f).get g j i = L.get g j i := rfl

@[simp] theorem Lane.onSdl_strap (L : Lane) (f : SdlSt → SdlSt) : (L.onSdl f).strap = L.strap := rfl
@[simp] theorem Lane.onSdl_regs (L : Lane) (f : SdlSt → SdlSt) : (L.onSdl f).regs = L.regs := rfl
@[simp] theorem Lane.onSdl_mem (L : Lane) (f : SdlSt → SdlSt) : (L.onSdl f).mem = L.mem := rfl
@[simp] theorem Lane.onSdl_evqTime (L : Lane) (f : SdlSt → SdlSt) : (L.onSdl f).evqTime = L.evqTime := rfl
@[simp] theorem Lane.onSdl_evqRead (L : Lane) (f : SdlSt → SdlSt) : (L.onSdl f).evqRead = L.evqRead := rfl
@[simp] theorem Lane.onSdl_tokens (L : Lane) (f : SdlSt → SdlSt) : (L.onSdl f).tokens = L.tokens := rfl
@[simp] theorem Lane.onSdl_now (L : Lane) (f : SdlSt → SdlSt) : (L.onSdl f).now = L.now := rfl
@[simp] theorem Lane.onSdl_mt (L : Lane) (f : SdlSt → SdlSt) : (L.onSdl f).mt = L.mt := rfl
@[simp] theorem Lane.onSdl_claimed (L : Lane) (f : SdlSt → SdlSt) : (L.onSdl f).claimed = L.claimed := rfl
@[simp] theorem Lane.onSdl_ip (L : Lane) (f : SdlSt → SdlSt) : (L.onSdl f).ip = L.ip := rfl
@[simp] theorem Lane.onSdl_claimData (L : Lane) (f : SdlSt → SdlSt) : (L.onSdl f).claimData = L.claimData := rfl
@[simp] theorem Lane.onSdl_isolated (L : Lane) (f : SdlSt → SdlSt) : (L.onSdl f).isolated = L.isolated := rfl
@[simp] theorem Lane.onSdl_cyc (L : Lane) (f : SdlSt → SdlSt) : (L.onSdl f).cyc = L.cyc := rfl
@[simp] theorem Lane.onSdl_rst (L : Lane) (f : SdlSt → SdlSt) : (L.onSdl f).rst = L.rst := rfl
@[simp] theorem Lane.onSdl_link (L : Lane) (f : SdlSt → SdlSt) : (L.onSdl f).link = L.link := rfl
@[simp] theorem Lane.onSdl_clk (L : Lane) (f : SdlSt → SdlSt) : (L.onSdl f).clk = L.clk := rfl
@[simp] theorem Lane.onSdl_ozl (L : Lane) (f : SdlSt → SdlSt) : (L.onSdl f).ozl = L.ozl := rfl
@[simp] theorem Lane.onSdl_trio (L : Lane) (f : SdlSt → SdlSt) : (L.onSdl f).trio = L.trio := rfl
@[simp] theorem Lane.onSdl_cmdq (L : Lane) (f : SdlSt → SdlSt) : (L.onSdl f).cmdq = L.cmdq := rfl
@[simp] theorem Lane.onSdl_gate (L : Lane) (f : SdlSt → SdlSt) : (L.onSdl f).gate = L.gate := rfl
@[simp] theorem Lane.onSdl_loops (L : Lane) (f : SdlSt → SdlSt) : (L.onSdl f).loops = L.loops := rfl
@[simp] theorem Lane.onSdl_drive (L : Lane) (f : SdlSt → SdlSt) : (L.onSdl f).drive = L.drive := rfl
@[simp] theorem Lane.onSdl_cnvs (L : Lane) (f : SdlSt → SdlSt) : (L.onSdl f).cnvs = L.cnvs := rfl
@[simp] theorem Lane.onSdl_icv (L : Lane) (f : SdlSt → SdlSt) : (L.onSdl f).icv = L.icv := rfl
@[simp] theorem Lane.onSdl_pos (L : Lane) (f : SdlSt → SdlSt) : (L.onSdl f).pos = L.pos := rfl
@[simp] theorem Lane.onSdl_saf (L : Lane) (f : SdlSt → SdlSt) : (L.onSdl f).saf = L.saf := rfl
@[simp] theorem Lane.onSdl_hsf (L : Lane) (f : SdlSt → SdlSt) : (L.onSdl f).hsf = L.hsf := rfl
@[simp] theorem Lane.onSdl_pwr (L : Lane) (f : SdlSt → SdlSt) : (L.onSdl f).pwr = L.pwr := rfl
@[simp] theorem Lane.onSdl_test (L : Lane) (f : SdlSt → SdlSt) : (L.onSdl f).test = L.test := rfl
@[simp] theorem Lane.onSdl_can (L : Lane) (f : SdlSt → SdlSt) : (L.onSdl f).can = L.can := rfl
@[simp] theorem Lane.onSdl_flx (L : Lane) (f : SdlSt → SdlSt) : (L.onSdl f).flx = L.flx := rfl
@[simp] theorem Lane.onSdl_eth (L : Lane) (f : SdlSt → SdlSt) : (L.onSdl f).eth = L.eth := rfl
@[simp] theorem Lane.onSdl_twp (L : Lane) (f : SdlSt → SdlSt) : (L.onSdl f).twp = L.twp := rfl
@[simp] theorem Lane.onSdl_hk (L : Lane) (f : SdlSt → SdlSt) : (L.onSdl f).hk = L.hk := rfl
@[simp] theorem Lane.onSdl_ths (L : Lane) (f : SdlSt → SdlSt) : (L.onSdl f).ths = L.ths := rfl
@[simp] theorem Lane.onSdl_alm (L : Lane) (f : SdlSt → SdlSt) : (L.onSdl f).alm = L.alm := rfl
@[simp] theorem Lane.onSdl_rd (L : Lane) (f : SdlSt → SdlSt) (x : Nat) : (L.onSdl f).rd x = L.rd x := rfl
@[simp] theorem Lane.onSdl_byte (L : Lane) (f : SdlSt → SdlSt) (x : Nat) : (L.onSdl f).byte x = L.byte x := rfl
@[simp] theorem Lane.onSdl_get (L : Lane) (f : SdlSt → SdlSt) (g : Fld) (j i : Nat) : (L.onSdl f).get g j i = L.get g j i := rfl

@[simp] theorem Lane.onTrio_strap (L : Lane) (f : TrioSt → TrioSt) : (L.onTrio f).strap = L.strap := rfl
@[simp] theorem Lane.onTrio_regs (L : Lane) (f : TrioSt → TrioSt) : (L.onTrio f).regs = L.regs := rfl
@[simp] theorem Lane.onTrio_mem (L : Lane) (f : TrioSt → TrioSt) : (L.onTrio f).mem = L.mem := rfl
@[simp] theorem Lane.onTrio_evqTime (L : Lane) (f : TrioSt → TrioSt) : (L.onTrio f).evqTime = L.evqTime := rfl
@[simp] theorem Lane.onTrio_evqRead (L : Lane) (f : TrioSt → TrioSt) : (L.onTrio f).evqRead = L.evqRead := rfl
@[simp] theorem Lane.onTrio_tokens (L : Lane) (f : TrioSt → TrioSt) : (L.onTrio f).tokens = L.tokens := rfl
@[simp] theorem Lane.onTrio_now (L : Lane) (f : TrioSt → TrioSt) : (L.onTrio f).now = L.now := rfl
@[simp] theorem Lane.onTrio_mt (L : Lane) (f : TrioSt → TrioSt) : (L.onTrio f).mt = L.mt := rfl
@[simp] theorem Lane.onTrio_claimed (L : Lane) (f : TrioSt → TrioSt) : (L.onTrio f).claimed = L.claimed := rfl
@[simp] theorem Lane.onTrio_ip (L : Lane) (f : TrioSt → TrioSt) : (L.onTrio f).ip = L.ip := rfl
@[simp] theorem Lane.onTrio_claimData (L : Lane) (f : TrioSt → TrioSt) : (L.onTrio f).claimData = L.claimData := rfl
@[simp] theorem Lane.onTrio_isolated (L : Lane) (f : TrioSt → TrioSt) : (L.onTrio f).isolated = L.isolated := rfl
@[simp] theorem Lane.onTrio_cyc (L : Lane) (f : TrioSt → TrioSt) : (L.onTrio f).cyc = L.cyc := rfl
@[simp] theorem Lane.onTrio_rst (L : Lane) (f : TrioSt → TrioSt) : (L.onTrio f).rst = L.rst := rfl
@[simp] theorem Lane.onTrio_link (L : Lane) (f : TrioSt → TrioSt) : (L.onTrio f).link = L.link := rfl
@[simp] theorem Lane.onTrio_clk (L : Lane) (f : TrioSt → TrioSt) : (L.onTrio f).clk = L.clk := rfl
@[simp] theorem Lane.onTrio_ozl (L : Lane) (f : TrioSt → TrioSt) : (L.onTrio f).ozl = L.ozl := rfl
@[simp] theorem Lane.onTrio_sdl (L : Lane) (f : TrioSt → TrioSt) : (L.onTrio f).sdl = L.sdl := rfl
@[simp] theorem Lane.onTrio_cmdq (L : Lane) (f : TrioSt → TrioSt) : (L.onTrio f).cmdq = L.cmdq := rfl
@[simp] theorem Lane.onTrio_gate (L : Lane) (f : TrioSt → TrioSt) : (L.onTrio f).gate = L.gate := rfl
@[simp] theorem Lane.onTrio_loops (L : Lane) (f : TrioSt → TrioSt) : (L.onTrio f).loops = L.loops := rfl
@[simp] theorem Lane.onTrio_drive (L : Lane) (f : TrioSt → TrioSt) : (L.onTrio f).drive = L.drive := rfl
@[simp] theorem Lane.onTrio_cnvs (L : Lane) (f : TrioSt → TrioSt) : (L.onTrio f).cnvs = L.cnvs := rfl
@[simp] theorem Lane.onTrio_icv (L : Lane) (f : TrioSt → TrioSt) : (L.onTrio f).icv = L.icv := rfl
@[simp] theorem Lane.onTrio_pos (L : Lane) (f : TrioSt → TrioSt) : (L.onTrio f).pos = L.pos := rfl
@[simp] theorem Lane.onTrio_saf (L : Lane) (f : TrioSt → TrioSt) : (L.onTrio f).saf = L.saf := rfl
@[simp] theorem Lane.onTrio_hsf (L : Lane) (f : TrioSt → TrioSt) : (L.onTrio f).hsf = L.hsf := rfl
@[simp] theorem Lane.onTrio_pwr (L : Lane) (f : TrioSt → TrioSt) : (L.onTrio f).pwr = L.pwr := rfl
@[simp] theorem Lane.onTrio_test (L : Lane) (f : TrioSt → TrioSt) : (L.onTrio f).test = L.test := rfl
@[simp] theorem Lane.onTrio_can (L : Lane) (f : TrioSt → TrioSt) : (L.onTrio f).can = L.can := rfl
@[simp] theorem Lane.onTrio_flx (L : Lane) (f : TrioSt → TrioSt) : (L.onTrio f).flx = L.flx := rfl
@[simp] theorem Lane.onTrio_eth (L : Lane) (f : TrioSt → TrioSt) : (L.onTrio f).eth = L.eth := rfl
@[simp] theorem Lane.onTrio_twp (L : Lane) (f : TrioSt → TrioSt) : (L.onTrio f).twp = L.twp := rfl
@[simp] theorem Lane.onTrio_hk (L : Lane) (f : TrioSt → TrioSt) : (L.onTrio f).hk = L.hk := rfl
@[simp] theorem Lane.onTrio_ths (L : Lane) (f : TrioSt → TrioSt) : (L.onTrio f).ths = L.ths := rfl
@[simp] theorem Lane.onTrio_alm (L : Lane) (f : TrioSt → TrioSt) : (L.onTrio f).alm = L.alm := rfl
@[simp] theorem Lane.onTrio_rd (L : Lane) (f : TrioSt → TrioSt) (x : Nat) : (L.onTrio f).rd x = L.rd x := rfl
@[simp] theorem Lane.onTrio_byte (L : Lane) (f : TrioSt → TrioSt) (x : Nat) : (L.onTrio f).byte x = L.byte x := rfl
@[simp] theorem Lane.onTrio_get (L : Lane) (f : TrioSt → TrioSt) (g : Fld) (j i : Nat) : (L.onTrio f).get g j i = L.get g j i := rfl

@[simp] theorem Lane.onEng_strap (L : Lane) (n : Nat) (f : LoopEng → LoopEng) : (L.onEng n f).strap = L.strap := rfl
@[simp] theorem Lane.onEng_regs (L : Lane) (n : Nat) (f : LoopEng → LoopEng) : (L.onEng n f).regs = L.regs := rfl
@[simp] theorem Lane.onEng_mem (L : Lane) (n : Nat) (f : LoopEng → LoopEng) : (L.onEng n f).mem = L.mem := rfl
@[simp] theorem Lane.onEng_evqTime (L : Lane) (n : Nat) (f : LoopEng → LoopEng) : (L.onEng n f).evqTime = L.evqTime := rfl
@[simp] theorem Lane.onEng_evqRead (L : Lane) (n : Nat) (f : LoopEng → LoopEng) : (L.onEng n f).evqRead = L.evqRead := rfl
@[simp] theorem Lane.onEng_tokens (L : Lane) (n : Nat) (f : LoopEng → LoopEng) : (L.onEng n f).tokens = L.tokens := rfl
@[simp] theorem Lane.onEng_now (L : Lane) (n : Nat) (f : LoopEng → LoopEng) : (L.onEng n f).now = L.now := rfl
@[simp] theorem Lane.onEng_mt (L : Lane) (n : Nat) (f : LoopEng → LoopEng) : (L.onEng n f).mt = L.mt := rfl
@[simp] theorem Lane.onEng_claimed (L : Lane) (n : Nat) (f : LoopEng → LoopEng) : (L.onEng n f).claimed = L.claimed := rfl
@[simp] theorem Lane.onEng_ip (L : Lane) (n : Nat) (f : LoopEng → LoopEng) : (L.onEng n f).ip = L.ip := rfl
@[simp] theorem Lane.onEng_claimData (L : Lane) (n : Nat) (f : LoopEng → LoopEng) : (L.onEng n f).claimData = L.claimData := rfl
@[simp] theorem Lane.onEng_isolated (L : Lane) (n : Nat) (f : LoopEng → LoopEng) : (L.onEng n f).isolated = L.isolated := rfl
@[simp] theorem Lane.onEng_cyc (L : Lane) (n : Nat) (f : LoopEng → LoopEng) : (L.onEng n f).cyc = L.cyc := rfl
@[simp] theorem Lane.onEng_rst (L : Lane) (n : Nat) (f : LoopEng → LoopEng) : (L.onEng n f).rst = L.rst := rfl
@[simp] theorem Lane.onEng_link (L : Lane) (n : Nat) (f : LoopEng → LoopEng) : (L.onEng n f).link = L.link := rfl
@[simp] theorem Lane.onEng_clk (L : Lane) (n : Nat) (f : LoopEng → LoopEng) : (L.onEng n f).clk = L.clk := rfl
@[simp] theorem Lane.onEng_ozl (L : Lane) (n : Nat) (f : LoopEng → LoopEng) : (L.onEng n f).ozl = L.ozl := rfl
@[simp] theorem Lane.onEng_sdl (L : Lane) (n : Nat) (f : LoopEng → LoopEng) : (L.onEng n f).sdl = L.sdl := rfl
@[simp] theorem Lane.onEng_trio (L : Lane) (n : Nat) (f : LoopEng → LoopEng) : (L.onEng n f).trio = L.trio := rfl
@[simp] theorem Lane.onEng_cmdq (L : Lane) (n : Nat) (f : LoopEng → LoopEng) : (L.onEng n f).cmdq = L.cmdq := rfl
@[simp] theorem Lane.onEng_gate (L : Lane) (n : Nat) (f : LoopEng → LoopEng) : (L.onEng n f).gate = L.gate := rfl
@[simp] theorem Lane.onEng_drive (L : Lane) (n : Nat) (f : LoopEng → LoopEng) : (L.onEng n f).drive = L.drive := rfl
@[simp] theorem Lane.onEng_cnvs (L : Lane) (n : Nat) (f : LoopEng → LoopEng) : (L.onEng n f).cnvs = L.cnvs := rfl
@[simp] theorem Lane.onEng_icv (L : Lane) (n : Nat) (f : LoopEng → LoopEng) : (L.onEng n f).icv = L.icv := rfl
@[simp] theorem Lane.onEng_pos (L : Lane) (n : Nat) (f : LoopEng → LoopEng) : (L.onEng n f).pos = L.pos := rfl
@[simp] theorem Lane.onEng_saf (L : Lane) (n : Nat) (f : LoopEng → LoopEng) : (L.onEng n f).saf = L.saf := rfl
@[simp] theorem Lane.onEng_hsf (L : Lane) (n : Nat) (f : LoopEng → LoopEng) : (L.onEng n f).hsf = L.hsf := rfl
@[simp] theorem Lane.onEng_pwr (L : Lane) (n : Nat) (f : LoopEng → LoopEng) : (L.onEng n f).pwr = L.pwr := rfl
@[simp] theorem Lane.onEng_test (L : Lane) (n : Nat) (f : LoopEng → LoopEng) : (L.onEng n f).test = L.test := rfl
@[simp] theorem Lane.onEng_can (L : Lane) (n : Nat) (f : LoopEng → LoopEng) : (L.onEng n f).can = L.can := rfl
@[simp] theorem Lane.onEng_flx (L : Lane) (n : Nat) (f : LoopEng → LoopEng) : (L.onEng n f).flx = L.flx := rfl
@[simp] theorem Lane.onEng_eth (L : Lane) (n : Nat) (f : LoopEng → LoopEng) : (L.onEng n f).eth = L.eth := rfl
@[simp] theorem Lane.onEng_twp (L : Lane) (n : Nat) (f : LoopEng → LoopEng) : (L.onEng n f).twp = L.twp := rfl
@[simp] theorem Lane.onEng_hk (L : Lane) (n : Nat) (f : LoopEng → LoopEng) : (L.onEng n f).hk = L.hk := rfl
@[simp] theorem Lane.onEng_ths (L : Lane) (n : Nat) (f : LoopEng → LoopEng) : (L.onEng n f).ths = L.ths := rfl
@[simp] theorem Lane.onEng_alm (L : Lane) (n : Nat) (f : LoopEng → LoopEng) : (L.onEng n f).alm = L.alm := rfl
@[simp] theorem Lane.onEng_rd (L : Lane) (n : Nat) (f : LoopEng → LoopEng) (x : Nat) : (L.onEng n f).rd x = L.rd x := rfl
@[simp] theorem Lane.onEng_byte (L : Lane) (n : Nat) (f : LoopEng → LoopEng) (x : Nat) : (L.onEng n f).byte x = L.byte x := rfl
@[simp] theorem Lane.onEng_get (L : Lane) (n : Nat) (f : LoopEng → LoopEng) (g : Fld) (j i : Nat) : (L.onEng n f).get g j i = L.get g j i := rfl

@[simp] theorem Lane.onEnc_strap (L : Lane) (n : Nat) (f : EncSt → EncSt) : (L.onEnc n f).strap = L.strap := rfl
@[simp] theorem Lane.onEnc_regs (L : Lane) (n : Nat) (f : EncSt → EncSt) : (L.onEnc n f).regs = L.regs := rfl
@[simp] theorem Lane.onEnc_mem (L : Lane) (n : Nat) (f : EncSt → EncSt) : (L.onEnc n f).mem = L.mem := rfl
@[simp] theorem Lane.onEnc_evqTime (L : Lane) (n : Nat) (f : EncSt → EncSt) : (L.onEnc n f).evqTime = L.evqTime := rfl
@[simp] theorem Lane.onEnc_evqRead (L : Lane) (n : Nat) (f : EncSt → EncSt) : (L.onEnc n f).evqRead = L.evqRead := rfl
@[simp] theorem Lane.onEnc_tokens (L : Lane) (n : Nat) (f : EncSt → EncSt) : (L.onEnc n f).tokens = L.tokens := rfl
@[simp] theorem Lane.onEnc_now (L : Lane) (n : Nat) (f : EncSt → EncSt) : (L.onEnc n f).now = L.now := rfl
@[simp] theorem Lane.onEnc_mt (L : Lane) (n : Nat) (f : EncSt → EncSt) : (L.onEnc n f).mt = L.mt := rfl
@[simp] theorem Lane.onEnc_claimed (L : Lane) (n : Nat) (f : EncSt → EncSt) : (L.onEnc n f).claimed = L.claimed := rfl
@[simp] theorem Lane.onEnc_ip (L : Lane) (n : Nat) (f : EncSt → EncSt) : (L.onEnc n f).ip = L.ip := rfl
@[simp] theorem Lane.onEnc_claimData (L : Lane) (n : Nat) (f : EncSt → EncSt) : (L.onEnc n f).claimData = L.claimData := rfl
@[simp] theorem Lane.onEnc_isolated (L : Lane) (n : Nat) (f : EncSt → EncSt) : (L.onEnc n f).isolated = L.isolated := rfl
@[simp] theorem Lane.onEnc_cyc (L : Lane) (n : Nat) (f : EncSt → EncSt) : (L.onEnc n f).cyc = L.cyc := rfl
@[simp] theorem Lane.onEnc_rst (L : Lane) (n : Nat) (f : EncSt → EncSt) : (L.onEnc n f).rst = L.rst := rfl
@[simp] theorem Lane.onEnc_link (L : Lane) (n : Nat) (f : EncSt → EncSt) : (L.onEnc n f).link = L.link := rfl
@[simp] theorem Lane.onEnc_clk (L : Lane) (n : Nat) (f : EncSt → EncSt) : (L.onEnc n f).clk = L.clk := rfl
@[simp] theorem Lane.onEnc_ozl (L : Lane) (n : Nat) (f : EncSt → EncSt) : (L.onEnc n f).ozl = L.ozl := rfl
@[simp] theorem Lane.onEnc_sdl (L : Lane) (n : Nat) (f : EncSt → EncSt) : (L.onEnc n f).sdl = L.sdl := rfl
@[simp] theorem Lane.onEnc_trio (L : Lane) (n : Nat) (f : EncSt → EncSt) : (L.onEnc n f).trio = L.trio := rfl
@[simp] theorem Lane.onEnc_cmdq (L : Lane) (n : Nat) (f : EncSt → EncSt) : (L.onEnc n f).cmdq = L.cmdq := rfl
@[simp] theorem Lane.onEnc_gate (L : Lane) (n : Nat) (f : EncSt → EncSt) : (L.onEnc n f).gate = L.gate := rfl
@[simp] theorem Lane.onEnc_loops (L : Lane) (n : Nat) (f : EncSt → EncSt) : (L.onEnc n f).loops = L.loops := rfl
@[simp] theorem Lane.onEnc_drive (L : Lane) (n : Nat) (f : EncSt → EncSt) : (L.onEnc n f).drive = L.drive := rfl
@[simp] theorem Lane.onEnc_cnvs (L : Lane) (n : Nat) (f : EncSt → EncSt) : (L.onEnc n f).cnvs = L.cnvs := rfl
@[simp] theorem Lane.onEnc_icv (L : Lane) (n : Nat) (f : EncSt → EncSt) : (L.onEnc n f).icv = L.icv := rfl
@[simp] theorem Lane.onEnc_saf (L : Lane) (n : Nat) (f : EncSt → EncSt) : (L.onEnc n f).saf = L.saf := rfl
@[simp] theorem Lane.onEnc_hsf (L : Lane) (n : Nat) (f : EncSt → EncSt) : (L.onEnc n f).hsf = L.hsf := rfl
@[simp] theorem Lane.onEnc_pwr (L : Lane) (n : Nat) (f : EncSt → EncSt) : (L.onEnc n f).pwr = L.pwr := rfl
@[simp] theorem Lane.onEnc_test (L : Lane) (n : Nat) (f : EncSt → EncSt) : (L.onEnc n f).test = L.test := rfl
@[simp] theorem Lane.onEnc_can (L : Lane) (n : Nat) (f : EncSt → EncSt) : (L.onEnc n f).can = L.can := rfl
@[simp] theorem Lane.onEnc_flx (L : Lane) (n : Nat) (f : EncSt → EncSt) : (L.onEnc n f).flx = L.flx := rfl
@[simp] theorem Lane.onEnc_eth (L : Lane) (n : Nat) (f : EncSt → EncSt) : (L.onEnc n f).eth = L.eth := rfl
@[simp] theorem Lane.onEnc_twp (L : Lane) (n : Nat) (f : EncSt → EncSt) : (L.onEnc n f).twp = L.twp := rfl
@[simp] theorem Lane.onEnc_hk (L : Lane) (n : Nat) (f : EncSt → EncSt) : (L.onEnc n f).hk = L.hk := rfl
@[simp] theorem Lane.onEnc_ths (L : Lane) (n : Nat) (f : EncSt → EncSt) : (L.onEnc n f).ths = L.ths := rfl
@[simp] theorem Lane.onEnc_alm (L : Lane) (n : Nat) (f : EncSt → EncSt) : (L.onEnc n f).alm = L.alm := rfl
@[simp] theorem Lane.onEnc_rd (L : Lane) (n : Nat) (f : EncSt → EncSt) (x : Nat) : (L.onEnc n f).rd x = L.rd x := rfl
@[simp] theorem Lane.onEnc_byte (L : Lane) (n : Nat) (f : EncSt → EncSt) (x : Nat) : (L.onEnc n f).byte x = L.byte x := rfl
@[simp] theorem Lane.onEnc_get (L : Lane) (n : Nat) (f : EncSt → EncSt) (g : Fld) (j i : Nat) : (L.onEnc n f).get g j i = L.get g j i := rfl

@[simp] theorem Lane.onResl_strap (L : Lane) (r : Nat) (f : ResSt → ResSt) : (L.onResl r f).strap = L.strap := rfl
@[simp] theorem Lane.onResl_regs (L : Lane) (r : Nat) (f : ResSt → ResSt) : (L.onResl r f).regs = L.regs := rfl
@[simp] theorem Lane.onResl_mem (L : Lane) (r : Nat) (f : ResSt → ResSt) : (L.onResl r f).mem = L.mem := rfl
@[simp] theorem Lane.onResl_evqTime (L : Lane) (r : Nat) (f : ResSt → ResSt) : (L.onResl r f).evqTime = L.evqTime := rfl
@[simp] theorem Lane.onResl_evqRead (L : Lane) (r : Nat) (f : ResSt → ResSt) : (L.onResl r f).evqRead = L.evqRead := rfl
@[simp] theorem Lane.onResl_tokens (L : Lane) (r : Nat) (f : ResSt → ResSt) : (L.onResl r f).tokens = L.tokens := rfl
@[simp] theorem Lane.onResl_now (L : Lane) (r : Nat) (f : ResSt → ResSt) : (L.onResl r f).now = L.now := rfl
@[simp] theorem Lane.onResl_mt (L : Lane) (r : Nat) (f : ResSt → ResSt) : (L.onResl r f).mt = L.mt := rfl
@[simp] theorem Lane.onResl_claimed (L : Lane) (r : Nat) (f : ResSt → ResSt) : (L.onResl r f).claimed = L.claimed := rfl
@[simp] theorem Lane.onResl_ip (L : Lane) (r : Nat) (f : ResSt → ResSt) : (L.onResl r f).ip = L.ip := rfl
@[simp] theorem Lane.onResl_claimData (L : Lane) (r : Nat) (f : ResSt → ResSt) : (L.onResl r f).claimData = L.claimData := rfl
@[simp] theorem Lane.onResl_isolated (L : Lane) (r : Nat) (f : ResSt → ResSt) : (L.onResl r f).isolated = L.isolated := rfl
@[simp] theorem Lane.onResl_cyc (L : Lane) (r : Nat) (f : ResSt → ResSt) : (L.onResl r f).cyc = L.cyc := rfl
@[simp] theorem Lane.onResl_rst (L : Lane) (r : Nat) (f : ResSt → ResSt) : (L.onResl r f).rst = L.rst := rfl
@[simp] theorem Lane.onResl_link (L : Lane) (r : Nat) (f : ResSt → ResSt) : (L.onResl r f).link = L.link := rfl
@[simp] theorem Lane.onResl_clk (L : Lane) (r : Nat) (f : ResSt → ResSt) : (L.onResl r f).clk = L.clk := rfl
@[simp] theorem Lane.onResl_ozl (L : Lane) (r : Nat) (f : ResSt → ResSt) : (L.onResl r f).ozl = L.ozl := rfl
@[simp] theorem Lane.onResl_sdl (L : Lane) (r : Nat) (f : ResSt → ResSt) : (L.onResl r f).sdl = L.sdl := rfl
@[simp] theorem Lane.onResl_trio (L : Lane) (r : Nat) (f : ResSt → ResSt) : (L.onResl r f).trio = L.trio := rfl
@[simp] theorem Lane.onResl_cmdq (L : Lane) (r : Nat) (f : ResSt → ResSt) : (L.onResl r f).cmdq = L.cmdq := rfl
@[simp] theorem Lane.onResl_gate (L : Lane) (r : Nat) (f : ResSt → ResSt) : (L.onResl r f).gate = L.gate := rfl
@[simp] theorem Lane.onResl_loops (L : Lane) (r : Nat) (f : ResSt → ResSt) : (L.onResl r f).loops = L.loops := rfl
@[simp] theorem Lane.onResl_drive (L : Lane) (r : Nat) (f : ResSt → ResSt) : (L.onResl r f).drive = L.drive := rfl
@[simp] theorem Lane.onResl_cnvs (L : Lane) (r : Nat) (f : ResSt → ResSt) : (L.onResl r f).cnvs = L.cnvs := rfl
@[simp] theorem Lane.onResl_icv (L : Lane) (r : Nat) (f : ResSt → ResSt) : (L.onResl r f).icv = L.icv := rfl
@[simp] theorem Lane.onResl_saf (L : Lane) (r : Nat) (f : ResSt → ResSt) : (L.onResl r f).saf = L.saf := rfl
@[simp] theorem Lane.onResl_hsf (L : Lane) (r : Nat) (f : ResSt → ResSt) : (L.onResl r f).hsf = L.hsf := rfl
@[simp] theorem Lane.onResl_pwr (L : Lane) (r : Nat) (f : ResSt → ResSt) : (L.onResl r f).pwr = L.pwr := rfl
@[simp] theorem Lane.onResl_test (L : Lane) (r : Nat) (f : ResSt → ResSt) : (L.onResl r f).test = L.test := rfl
@[simp] theorem Lane.onResl_can (L : Lane) (r : Nat) (f : ResSt → ResSt) : (L.onResl r f).can = L.can := rfl
@[simp] theorem Lane.onResl_flx (L : Lane) (r : Nat) (f : ResSt → ResSt) : (L.onResl r f).flx = L.flx := rfl
@[simp] theorem Lane.onResl_eth (L : Lane) (r : Nat) (f : ResSt → ResSt) : (L.onResl r f).eth = L.eth := rfl
@[simp] theorem Lane.onResl_twp (L : Lane) (r : Nat) (f : ResSt → ResSt) : (L.onResl r f).twp = L.twp := rfl
@[simp] theorem Lane.onResl_hk (L : Lane) (r : Nat) (f : ResSt → ResSt) : (L.onResl r f).hk = L.hk := rfl
@[simp] theorem Lane.onResl_ths (L : Lane) (r : Nat) (f : ResSt → ResSt) : (L.onResl r f).ths = L.ths := rfl
@[simp] theorem Lane.onResl_alm (L : Lane) (r : Nat) (f : ResSt → ResSt) : (L.onResl r f).alm = L.alm := rfl
@[simp] theorem Lane.onResl_rd (L : Lane) (r : Nat) (f : ResSt → ResSt) (x : Nat) : (L.onResl r f).rd x = L.rd x := rfl
@[simp] theorem Lane.onResl_byte (L : Lane) (r : Nat) (f : ResSt → ResSt) (x : Nat) : (L.onResl r f).byte x = L.byte x := rfl
@[simp] theorem Lane.onResl_get (L : Lane) (r : Nat) (f : ResSt → ResSt) (g : Fld) (j i : Nat) : (L.onResl r f).get g j i = L.get g j i := rfl

@[simp] theorem Lane.onSent_strap (L : Lane) (n : Nat) (f : SentSt → SentSt) : (L.onSent n f).strap = L.strap := rfl
@[simp] theorem Lane.onSent_regs (L : Lane) (n : Nat) (f : SentSt → SentSt) : (L.onSent n f).regs = L.regs := rfl
@[simp] theorem Lane.onSent_mem (L : Lane) (n : Nat) (f : SentSt → SentSt) : (L.onSent n f).mem = L.mem := rfl
@[simp] theorem Lane.onSent_evqTime (L : Lane) (n : Nat) (f : SentSt → SentSt) : (L.onSent n f).evqTime = L.evqTime := rfl
@[simp] theorem Lane.onSent_evqRead (L : Lane) (n : Nat) (f : SentSt → SentSt) : (L.onSent n f).evqRead = L.evqRead := rfl
@[simp] theorem Lane.onSent_tokens (L : Lane) (n : Nat) (f : SentSt → SentSt) : (L.onSent n f).tokens = L.tokens := rfl
@[simp] theorem Lane.onSent_now (L : Lane) (n : Nat) (f : SentSt → SentSt) : (L.onSent n f).now = L.now := rfl
@[simp] theorem Lane.onSent_mt (L : Lane) (n : Nat) (f : SentSt → SentSt) : (L.onSent n f).mt = L.mt := rfl
@[simp] theorem Lane.onSent_claimed (L : Lane) (n : Nat) (f : SentSt → SentSt) : (L.onSent n f).claimed = L.claimed := rfl
@[simp] theorem Lane.onSent_ip (L : Lane) (n : Nat) (f : SentSt → SentSt) : (L.onSent n f).ip = L.ip := rfl
@[simp] theorem Lane.onSent_claimData (L : Lane) (n : Nat) (f : SentSt → SentSt) : (L.onSent n f).claimData = L.claimData := rfl
@[simp] theorem Lane.onSent_isolated (L : Lane) (n : Nat) (f : SentSt → SentSt) : (L.onSent n f).isolated = L.isolated := rfl
@[simp] theorem Lane.onSent_cyc (L : Lane) (n : Nat) (f : SentSt → SentSt) : (L.onSent n f).cyc = L.cyc := rfl
@[simp] theorem Lane.onSent_rst (L : Lane) (n : Nat) (f : SentSt → SentSt) : (L.onSent n f).rst = L.rst := rfl
@[simp] theorem Lane.onSent_link (L : Lane) (n : Nat) (f : SentSt → SentSt) : (L.onSent n f).link = L.link := rfl
@[simp] theorem Lane.onSent_clk (L : Lane) (n : Nat) (f : SentSt → SentSt) : (L.onSent n f).clk = L.clk := rfl
@[simp] theorem Lane.onSent_ozl (L : Lane) (n : Nat) (f : SentSt → SentSt) : (L.onSent n f).ozl = L.ozl := rfl
@[simp] theorem Lane.onSent_sdl (L : Lane) (n : Nat) (f : SentSt → SentSt) : (L.onSent n f).sdl = L.sdl := rfl
@[simp] theorem Lane.onSent_trio (L : Lane) (n : Nat) (f : SentSt → SentSt) : (L.onSent n f).trio = L.trio := rfl
@[simp] theorem Lane.onSent_cmdq (L : Lane) (n : Nat) (f : SentSt → SentSt) : (L.onSent n f).cmdq = L.cmdq := rfl
@[simp] theorem Lane.onSent_gate (L : Lane) (n : Nat) (f : SentSt → SentSt) : (L.onSent n f).gate = L.gate := rfl
@[simp] theorem Lane.onSent_loops (L : Lane) (n : Nat) (f : SentSt → SentSt) : (L.onSent n f).loops = L.loops := rfl
@[simp] theorem Lane.onSent_drive (L : Lane) (n : Nat) (f : SentSt → SentSt) : (L.onSent n f).drive = L.drive := rfl
@[simp] theorem Lane.onSent_cnvs (L : Lane) (n : Nat) (f : SentSt → SentSt) : (L.onSent n f).cnvs = L.cnvs := rfl
@[simp] theorem Lane.onSent_icv (L : Lane) (n : Nat) (f : SentSt → SentSt) : (L.onSent n f).icv = L.icv := rfl
@[simp] theorem Lane.onSent_saf (L : Lane) (n : Nat) (f : SentSt → SentSt) : (L.onSent n f).saf = L.saf := rfl
@[simp] theorem Lane.onSent_hsf (L : Lane) (n : Nat) (f : SentSt → SentSt) : (L.onSent n f).hsf = L.hsf := rfl
@[simp] theorem Lane.onSent_pwr (L : Lane) (n : Nat) (f : SentSt → SentSt) : (L.onSent n f).pwr = L.pwr := rfl
@[simp] theorem Lane.onSent_test (L : Lane) (n : Nat) (f : SentSt → SentSt) : (L.onSent n f).test = L.test := rfl
@[simp] theorem Lane.onSent_can (L : Lane) (n : Nat) (f : SentSt → SentSt) : (L.onSent n f).can = L.can := rfl
@[simp] theorem Lane.onSent_flx (L : Lane) (n : Nat) (f : SentSt → SentSt) : (L.onSent n f).flx = L.flx := rfl
@[simp] theorem Lane.onSent_eth (L : Lane) (n : Nat) (f : SentSt → SentSt) : (L.onSent n f).eth = L.eth := rfl
@[simp] theorem Lane.onSent_twp (L : Lane) (n : Nat) (f : SentSt → SentSt) : (L.onSent n f).twp = L.twp := rfl
@[simp] theorem Lane.onSent_hk (L : Lane) (n : Nat) (f : SentSt → SentSt) : (L.onSent n f).hk = L.hk := rfl
@[simp] theorem Lane.onSent_ths (L : Lane) (n : Nat) (f : SentSt → SentSt) : (L.onSent n f).ths = L.ths := rfl
@[simp] theorem Lane.onSent_alm (L : Lane) (n : Nat) (f : SentSt → SentSt) : (L.onSent n f).alm = L.alm := rfl
@[simp] theorem Lane.onSent_rd (L : Lane) (n : Nat) (f : SentSt → SentSt) (x : Nat) : (L.onSent n f).rd x = L.rd x := rfl
@[simp] theorem Lane.onSent_byte (L : Lane) (n : Nat) (f : SentSt → SentSt) (x : Nat) : (L.onSent n f).byte x = L.byte x := rfl
@[simp] theorem Lane.onSent_get (L : Lane) (n : Nat) (f : SentSt → SentSt) (g : Fld) (j i : Nat) : (L.onSent n f).get g j i = L.get g j i := rfl

@[simp] theorem Lane.onPos_strap (L : Lane) (f : PosSt → PosSt) : (L.onPos f).strap = L.strap := rfl
@[simp] theorem Lane.onPos_regs (L : Lane) (f : PosSt → PosSt) : (L.onPos f).regs = L.regs := rfl
@[simp] theorem Lane.onPos_mem (L : Lane) (f : PosSt → PosSt) : (L.onPos f).mem = L.mem := rfl
@[simp] theorem Lane.onPos_evqTime (L : Lane) (f : PosSt → PosSt) : (L.onPos f).evqTime = L.evqTime := rfl
@[simp] theorem Lane.onPos_evqRead (L : Lane) (f : PosSt → PosSt) : (L.onPos f).evqRead = L.evqRead := rfl
@[simp] theorem Lane.onPos_tokens (L : Lane) (f : PosSt → PosSt) : (L.onPos f).tokens = L.tokens := rfl
@[simp] theorem Lane.onPos_now (L : Lane) (f : PosSt → PosSt) : (L.onPos f).now = L.now := rfl
@[simp] theorem Lane.onPos_mt (L : Lane) (f : PosSt → PosSt) : (L.onPos f).mt = L.mt := rfl
@[simp] theorem Lane.onPos_claimed (L : Lane) (f : PosSt → PosSt) : (L.onPos f).claimed = L.claimed := rfl
@[simp] theorem Lane.onPos_ip (L : Lane) (f : PosSt → PosSt) : (L.onPos f).ip = L.ip := rfl
@[simp] theorem Lane.onPos_claimData (L : Lane) (f : PosSt → PosSt) : (L.onPos f).claimData = L.claimData := rfl
@[simp] theorem Lane.onPos_isolated (L : Lane) (f : PosSt → PosSt) : (L.onPos f).isolated = L.isolated := rfl
@[simp] theorem Lane.onPos_cyc (L : Lane) (f : PosSt → PosSt) : (L.onPos f).cyc = L.cyc := rfl
@[simp] theorem Lane.onPos_rst (L : Lane) (f : PosSt → PosSt) : (L.onPos f).rst = L.rst := rfl
@[simp] theorem Lane.onPos_link (L : Lane) (f : PosSt → PosSt) : (L.onPos f).link = L.link := rfl
@[simp] theorem Lane.onPos_clk (L : Lane) (f : PosSt → PosSt) : (L.onPos f).clk = L.clk := rfl
@[simp] theorem Lane.onPos_ozl (L : Lane) (f : PosSt → PosSt) : (L.onPos f).ozl = L.ozl := rfl
@[simp] theorem Lane.onPos_sdl (L : Lane) (f : PosSt → PosSt) : (L.onPos f).sdl = L.sdl := rfl
@[simp] theorem Lane.onPos_trio (L : Lane) (f : PosSt → PosSt) : (L.onPos f).trio = L.trio := rfl
@[simp] theorem Lane.onPos_cmdq (L : Lane) (f : PosSt → PosSt) : (L.onPos f).cmdq = L.cmdq := rfl
@[simp] theorem Lane.onPos_gate (L : Lane) (f : PosSt → PosSt) : (L.onPos f).gate = L.gate := rfl
@[simp] theorem Lane.onPos_loops (L : Lane) (f : PosSt → PosSt) : (L.onPos f).loops = L.loops := rfl
@[simp] theorem Lane.onPos_drive (L : Lane) (f : PosSt → PosSt) : (L.onPos f).drive = L.drive := rfl
@[simp] theorem Lane.onPos_cnvs (L : Lane) (f : PosSt → PosSt) : (L.onPos f).cnvs = L.cnvs := rfl
@[simp] theorem Lane.onPos_icv (L : Lane) (f : PosSt → PosSt) : (L.onPos f).icv = L.icv := rfl
@[simp] theorem Lane.onPos_saf (L : Lane) (f : PosSt → PosSt) : (L.onPos f).saf = L.saf := rfl
@[simp] theorem Lane.onPos_hsf (L : Lane) (f : PosSt → PosSt) : (L.onPos f).hsf = L.hsf := rfl
@[simp] theorem Lane.onPos_pwr (L : Lane) (f : PosSt → PosSt) : (L.onPos f).pwr = L.pwr := rfl
@[simp] theorem Lane.onPos_test (L : Lane) (f : PosSt → PosSt) : (L.onPos f).test = L.test := rfl
@[simp] theorem Lane.onPos_can (L : Lane) (f : PosSt → PosSt) : (L.onPos f).can = L.can := rfl
@[simp] theorem Lane.onPos_flx (L : Lane) (f : PosSt → PosSt) : (L.onPos f).flx = L.flx := rfl
@[simp] theorem Lane.onPos_eth (L : Lane) (f : PosSt → PosSt) : (L.onPos f).eth = L.eth := rfl
@[simp] theorem Lane.onPos_twp (L : Lane) (f : PosSt → PosSt) : (L.onPos f).twp = L.twp := rfl
@[simp] theorem Lane.onPos_hk (L : Lane) (f : PosSt → PosSt) : (L.onPos f).hk = L.hk := rfl
@[simp] theorem Lane.onPos_ths (L : Lane) (f : PosSt → PosSt) : (L.onPos f).ths = L.ths := rfl
@[simp] theorem Lane.onPos_alm (L : Lane) (f : PosSt → PosSt) : (L.onPos f).alm = L.alm := rfl
@[simp] theorem Lane.onPos_rd (L : Lane) (f : PosSt → PosSt) (x : Nat) : (L.onPos f).rd x = L.rd x := rfl
@[simp] theorem Lane.onPos_byte (L : Lane) (f : PosSt → PosSt) (x : Nat) : (L.onPos f).byte x = L.byte x := rfl
@[simp] theorem Lane.onPos_get (L : Lane) (f : PosSt → PosSt) (g : Fld) (j i : Nat) : (L.onPos f).get g j i = L.get g j i := rfl

@[simp] theorem Lane.onQuant_strap (L : Lane) (q : Nat) (f : Quant → Quant) : (L.onQuant q f).strap = L.strap := rfl
@[simp] theorem Lane.onQuant_regs (L : Lane) (q : Nat) (f : Quant → Quant) : (L.onQuant q f).regs = L.regs := rfl
@[simp] theorem Lane.onQuant_mem (L : Lane) (q : Nat) (f : Quant → Quant) : (L.onQuant q f).mem = L.mem := rfl
@[simp] theorem Lane.onQuant_evqTime (L : Lane) (q : Nat) (f : Quant → Quant) : (L.onQuant q f).evqTime = L.evqTime := rfl
@[simp] theorem Lane.onQuant_evqRead (L : Lane) (q : Nat) (f : Quant → Quant) : (L.onQuant q f).evqRead = L.evqRead := rfl
@[simp] theorem Lane.onQuant_tokens (L : Lane) (q : Nat) (f : Quant → Quant) : (L.onQuant q f).tokens = L.tokens := rfl
@[simp] theorem Lane.onQuant_now (L : Lane) (q : Nat) (f : Quant → Quant) : (L.onQuant q f).now = L.now := rfl
@[simp] theorem Lane.onQuant_mt (L : Lane) (q : Nat) (f : Quant → Quant) : (L.onQuant q f).mt = L.mt := rfl
@[simp] theorem Lane.onQuant_claimed (L : Lane) (q : Nat) (f : Quant → Quant) : (L.onQuant q f).claimed = L.claimed := rfl
@[simp] theorem Lane.onQuant_ip (L : Lane) (q : Nat) (f : Quant → Quant) : (L.onQuant q f).ip = L.ip := rfl
@[simp] theorem Lane.onQuant_claimData (L : Lane) (q : Nat) (f : Quant → Quant) : (L.onQuant q f).claimData = L.claimData := rfl
@[simp] theorem Lane.onQuant_isolated (L : Lane) (q : Nat) (f : Quant → Quant) : (L.onQuant q f).isolated = L.isolated := rfl
@[simp] theorem Lane.onQuant_cyc (L : Lane) (q : Nat) (f : Quant → Quant) : (L.onQuant q f).cyc = L.cyc := rfl
@[simp] theorem Lane.onQuant_rst (L : Lane) (q : Nat) (f : Quant → Quant) : (L.onQuant q f).rst = L.rst := rfl
@[simp] theorem Lane.onQuant_link (L : Lane) (q : Nat) (f : Quant → Quant) : (L.onQuant q f).link = L.link := rfl
@[simp] theorem Lane.onQuant_clk (L : Lane) (q : Nat) (f : Quant → Quant) : (L.onQuant q f).clk = L.clk := rfl
@[simp] theorem Lane.onQuant_ozl (L : Lane) (q : Nat) (f : Quant → Quant) : (L.onQuant q f).ozl = L.ozl := rfl
@[simp] theorem Lane.onQuant_sdl (L : Lane) (q : Nat) (f : Quant → Quant) : (L.onQuant q f).sdl = L.sdl := rfl
@[simp] theorem Lane.onQuant_trio (L : Lane) (q : Nat) (f : Quant → Quant) : (L.onQuant q f).trio = L.trio := rfl
@[simp] theorem Lane.onQuant_cmdq (L : Lane) (q : Nat) (f : Quant → Quant) : (L.onQuant q f).cmdq = L.cmdq := rfl
@[simp] theorem Lane.onQuant_gate (L : Lane) (q : Nat) (f : Quant → Quant) : (L.onQuant q f).gate = L.gate := rfl
@[simp] theorem Lane.onQuant_loops (L : Lane) (q : Nat) (f : Quant → Quant) : (L.onQuant q f).loops = L.loops := rfl
@[simp] theorem Lane.onQuant_drive (L : Lane) (q : Nat) (f : Quant → Quant) : (L.onQuant q f).drive = L.drive := rfl
@[simp] theorem Lane.onQuant_cnvs (L : Lane) (q : Nat) (f : Quant → Quant) : (L.onQuant q f).cnvs = L.cnvs := rfl
@[simp] theorem Lane.onQuant_icv (L : Lane) (q : Nat) (f : Quant → Quant) : (L.onQuant q f).icv = L.icv := rfl
@[simp] theorem Lane.onQuant_saf (L : Lane) (q : Nat) (f : Quant → Quant) : (L.onQuant q f).saf = L.saf := rfl
@[simp] theorem Lane.onQuant_hsf (L : Lane) (q : Nat) (f : Quant → Quant) : (L.onQuant q f).hsf = L.hsf := rfl
@[simp] theorem Lane.onQuant_pwr (L : Lane) (q : Nat) (f : Quant → Quant) : (L.onQuant q f).pwr = L.pwr := rfl
@[simp] theorem Lane.onQuant_test (L : Lane) (q : Nat) (f : Quant → Quant) : (L.onQuant q f).test = L.test := rfl
@[simp] theorem Lane.onQuant_can (L : Lane) (q : Nat) (f : Quant → Quant) : (L.onQuant q f).can = L.can := rfl
@[simp] theorem Lane.onQuant_flx (L : Lane) (q : Nat) (f : Quant → Quant) : (L.onQuant q f).flx = L.flx := rfl
@[simp] theorem Lane.onQuant_eth (L : Lane) (q : Nat) (f : Quant → Quant) : (L.onQuant q f).eth = L.eth := rfl
@[simp] theorem Lane.onQuant_twp (L : Lane) (q : Nat) (f : Quant → Quant) : (L.onQuant q f).twp = L.twp := rfl
@[simp] theorem Lane.onQuant_hk (L : Lane) (q : Nat) (f : Quant → Quant) : (L.onQuant q f).hk = L.hk := rfl
@[simp] theorem Lane.onQuant_ths (L : Lane) (q : Nat) (f : Quant → Quant) : (L.onQuant q f).ths = L.ths := rfl
@[simp] theorem Lane.onQuant_alm (L : Lane) (q : Nat) (f : Quant → Quant) : (L.onQuant q f).alm = L.alm := rfl
@[simp] theorem Lane.onQuant_rd (L : Lane) (q : Nat) (f : Quant → Quant) (x : Nat) : (L.onQuant q f).rd x = L.rd x := rfl
@[simp] theorem Lane.onQuant_byte (L : Lane) (q : Nat) (f : Quant → Quant) (x : Nat) : (L.onQuant q f).byte x = L.byte x := rfl
@[simp] theorem Lane.onQuant_get (L : Lane) (q : Nat) (f : Quant → Quant) (g : Fld) (j i : Nat) : (L.onQuant q f).get g j i = L.get g j i := rfl

@[simp] theorem Lane.onPwr_strap (L : Lane) (f : PwrSt → PwrSt) : (L.onPwr f).strap = L.strap := rfl
@[simp] theorem Lane.onPwr_regs (L : Lane) (f : PwrSt → PwrSt) : (L.onPwr f).regs = L.regs := rfl
@[simp] theorem Lane.onPwr_mem (L : Lane) (f : PwrSt → PwrSt) : (L.onPwr f).mem = L.mem := rfl
@[simp] theorem Lane.onPwr_evqTime (L : Lane) (f : PwrSt → PwrSt) : (L.onPwr f).evqTime = L.evqTime := rfl
@[simp] theorem Lane.onPwr_evqRead (L : Lane) (f : PwrSt → PwrSt) : (L.onPwr f).evqRead = L.evqRead := rfl
@[simp] theorem Lane.onPwr_tokens (L : Lane) (f : PwrSt → PwrSt) : (L.onPwr f).tokens = L.tokens := rfl
@[simp] theorem Lane.onPwr_now (L : Lane) (f : PwrSt → PwrSt) : (L.onPwr f).now = L.now := rfl
@[simp] theorem Lane.onPwr_mt (L : Lane) (f : PwrSt → PwrSt) : (L.onPwr f).mt = L.mt := rfl
@[simp] theorem Lane.onPwr_claimed (L : Lane) (f : PwrSt → PwrSt) : (L.onPwr f).claimed = L.claimed := rfl
@[simp] theorem Lane.onPwr_ip (L : Lane) (f : PwrSt → PwrSt) : (L.onPwr f).ip = L.ip := rfl
@[simp] theorem Lane.onPwr_claimData (L : Lane) (f : PwrSt → PwrSt) : (L.onPwr f).claimData = L.claimData := rfl
@[simp] theorem Lane.onPwr_isolated (L : Lane) (f : PwrSt → PwrSt) : (L.onPwr f).isolated = L.isolated := rfl
@[simp] theorem Lane.onPwr_cyc (L : Lane) (f : PwrSt → PwrSt) : (L.onPwr f).cyc = L.cyc := rfl
@[simp] theorem Lane.onPwr_rst (L : Lane) (f : PwrSt → PwrSt) : (L.onPwr f).rst = L.rst := rfl
@[simp] theorem Lane.onPwr_link (L : Lane) (f : PwrSt → PwrSt) : (L.onPwr f).link = L.link := rfl
@[simp] theorem Lane.onPwr_clk (L : Lane) (f : PwrSt → PwrSt) : (L.onPwr f).clk = L.clk := rfl
@[simp] theorem Lane.onPwr_ozl (L : Lane) (f : PwrSt → PwrSt) : (L.onPwr f).ozl = L.ozl := rfl
@[simp] theorem Lane.onPwr_sdl (L : Lane) (f : PwrSt → PwrSt) : (L.onPwr f).sdl = L.sdl := rfl
@[simp] theorem Lane.onPwr_trio (L : Lane) (f : PwrSt → PwrSt) : (L.onPwr f).trio = L.trio := rfl
@[simp] theorem Lane.onPwr_cmdq (L : Lane) (f : PwrSt → PwrSt) : (L.onPwr f).cmdq = L.cmdq := rfl
@[simp] theorem Lane.onPwr_gate (L : Lane) (f : PwrSt → PwrSt) : (L.onPwr f).gate = L.gate := rfl
@[simp] theorem Lane.onPwr_loops (L : Lane) (f : PwrSt → PwrSt) : (L.onPwr f).loops = L.loops := rfl
@[simp] theorem Lane.onPwr_drive (L : Lane) (f : PwrSt → PwrSt) : (L.onPwr f).drive = L.drive := rfl
@[simp] theorem Lane.onPwr_cnvs (L : Lane) (f : PwrSt → PwrSt) : (L.onPwr f).cnvs = L.cnvs := rfl
@[simp] theorem Lane.onPwr_icv (L : Lane) (f : PwrSt → PwrSt) : (L.onPwr f).icv = L.icv := rfl
@[simp] theorem Lane.onPwr_pos (L : Lane) (f : PwrSt → PwrSt) : (L.onPwr f).pos = L.pos := rfl
@[simp] theorem Lane.onPwr_saf (L : Lane) (f : PwrSt → PwrSt) : (L.onPwr f).saf = L.saf := rfl
@[simp] theorem Lane.onPwr_hsf (L : Lane) (f : PwrSt → PwrSt) : (L.onPwr f).hsf = L.hsf := rfl
@[simp] theorem Lane.onPwr_test (L : Lane) (f : PwrSt → PwrSt) : (L.onPwr f).test = L.test := rfl
@[simp] theorem Lane.onPwr_can (L : Lane) (f : PwrSt → PwrSt) : (L.onPwr f).can = L.can := rfl
@[simp] theorem Lane.onPwr_flx (L : Lane) (f : PwrSt → PwrSt) : (L.onPwr f).flx = L.flx := rfl
@[simp] theorem Lane.onPwr_eth (L : Lane) (f : PwrSt → PwrSt) : (L.onPwr f).eth = L.eth := rfl
@[simp] theorem Lane.onPwr_twp (L : Lane) (f : PwrSt → PwrSt) : (L.onPwr f).twp = L.twp := rfl
@[simp] theorem Lane.onPwr_hk (L : Lane) (f : PwrSt → PwrSt) : (L.onPwr f).hk = L.hk := rfl
@[simp] theorem Lane.onPwr_ths (L : Lane) (f : PwrSt → PwrSt) : (L.onPwr f).ths = L.ths := rfl
@[simp] theorem Lane.onPwr_alm (L : Lane) (f : PwrSt → PwrSt) : (L.onPwr f).alm = L.alm := rfl
@[simp] theorem Lane.onPwr_rd (L : Lane) (f : PwrSt → PwrSt) (x : Nat) : (L.onPwr f).rd x = L.rd x := rfl
@[simp] theorem Lane.onPwr_byte (L : Lane) (f : PwrSt → PwrSt) (x : Nat) : (L.onPwr f).byte x = L.byte x := rfl
@[simp] theorem Lane.onPwr_get (L : Lane) (f : PwrSt → PwrSt) (g : Fld) (j i : Nat) : (L.onPwr f).get g j i = L.get g j i := rfl

@[simp] theorem Lane.onAlm_strap (L : Lane) (f : AlmSt → AlmSt) : (L.onAlm f).strap = L.strap := rfl
@[simp] theorem Lane.onAlm_regs (L : Lane) (f : AlmSt → AlmSt) : (L.onAlm f).regs = L.regs := rfl
@[simp] theorem Lane.onAlm_mem (L : Lane) (f : AlmSt → AlmSt) : (L.onAlm f).mem = L.mem := rfl
@[simp] theorem Lane.onAlm_evqTime (L : Lane) (f : AlmSt → AlmSt) : (L.onAlm f).evqTime = L.evqTime := rfl
@[simp] theorem Lane.onAlm_evqRead (L : Lane) (f : AlmSt → AlmSt) : (L.onAlm f).evqRead = L.evqRead := rfl
@[simp] theorem Lane.onAlm_tokens (L : Lane) (f : AlmSt → AlmSt) : (L.onAlm f).tokens = L.tokens := rfl
@[simp] theorem Lane.onAlm_now (L : Lane) (f : AlmSt → AlmSt) : (L.onAlm f).now = L.now := rfl
@[simp] theorem Lane.onAlm_mt (L : Lane) (f : AlmSt → AlmSt) : (L.onAlm f).mt = L.mt := rfl
@[simp] theorem Lane.onAlm_claimed (L : Lane) (f : AlmSt → AlmSt) : (L.onAlm f).claimed = L.claimed := rfl
@[simp] theorem Lane.onAlm_ip (L : Lane) (f : AlmSt → AlmSt) : (L.onAlm f).ip = L.ip := rfl
@[simp] theorem Lane.onAlm_claimData (L : Lane) (f : AlmSt → AlmSt) : (L.onAlm f).claimData = L.claimData := rfl
@[simp] theorem Lane.onAlm_isolated (L : Lane) (f : AlmSt → AlmSt) : (L.onAlm f).isolated = L.isolated := rfl
@[simp] theorem Lane.onAlm_cyc (L : Lane) (f : AlmSt → AlmSt) : (L.onAlm f).cyc = L.cyc := rfl
@[simp] theorem Lane.onAlm_rst (L : Lane) (f : AlmSt → AlmSt) : (L.onAlm f).rst = L.rst := rfl
@[simp] theorem Lane.onAlm_link (L : Lane) (f : AlmSt → AlmSt) : (L.onAlm f).link = L.link := rfl
@[simp] theorem Lane.onAlm_clk (L : Lane) (f : AlmSt → AlmSt) : (L.onAlm f).clk = L.clk := rfl
@[simp] theorem Lane.onAlm_ozl (L : Lane) (f : AlmSt → AlmSt) : (L.onAlm f).ozl = L.ozl := rfl
@[simp] theorem Lane.onAlm_sdl (L : Lane) (f : AlmSt → AlmSt) : (L.onAlm f).sdl = L.sdl := rfl
@[simp] theorem Lane.onAlm_trio (L : Lane) (f : AlmSt → AlmSt) : (L.onAlm f).trio = L.trio := rfl
@[simp] theorem Lane.onAlm_cmdq (L : Lane) (f : AlmSt → AlmSt) : (L.onAlm f).cmdq = L.cmdq := rfl
@[simp] theorem Lane.onAlm_gate (L : Lane) (f : AlmSt → AlmSt) : (L.onAlm f).gate = L.gate := rfl
@[simp] theorem Lane.onAlm_loops (L : Lane) (f : AlmSt → AlmSt) : (L.onAlm f).loops = L.loops := rfl
@[simp] theorem Lane.onAlm_drive (L : Lane) (f : AlmSt → AlmSt) : (L.onAlm f).drive = L.drive := rfl
@[simp] theorem Lane.onAlm_cnvs (L : Lane) (f : AlmSt → AlmSt) : (L.onAlm f).cnvs = L.cnvs := rfl
@[simp] theorem Lane.onAlm_icv (L : Lane) (f : AlmSt → AlmSt) : (L.onAlm f).icv = L.icv := rfl
@[simp] theorem Lane.onAlm_pos (L : Lane) (f : AlmSt → AlmSt) : (L.onAlm f).pos = L.pos := rfl
@[simp] theorem Lane.onAlm_saf (L : Lane) (f : AlmSt → AlmSt) : (L.onAlm f).saf = L.saf := rfl
@[simp] theorem Lane.onAlm_hsf (L : Lane) (f : AlmSt → AlmSt) : (L.onAlm f).hsf = L.hsf := rfl
@[simp] theorem Lane.onAlm_pwr (L : Lane) (f : AlmSt → AlmSt) : (L.onAlm f).pwr = L.pwr := rfl
@[simp] theorem Lane.onAlm_test (L : Lane) (f : AlmSt → AlmSt) : (L.onAlm f).test = L.test := rfl
@[simp] theorem Lane.onAlm_can (L : Lane) (f : AlmSt → AlmSt) : (L.onAlm f).can = L.can := rfl
@[simp] theorem Lane.onAlm_flx (L : Lane) (f : AlmSt → AlmSt) : (L.onAlm f).flx = L.flx := rfl
@[simp] theorem Lane.onAlm_eth (L : Lane) (f : AlmSt → AlmSt) : (L.onAlm f).eth = L.eth := rfl
@[simp] theorem Lane.onAlm_twp (L : Lane) (f : AlmSt → AlmSt) : (L.onAlm f).twp = L.twp := rfl
@[simp] theorem Lane.onAlm_hk (L : Lane) (f : AlmSt → AlmSt) : (L.onAlm f).hk = L.hk := rfl
@[simp] theorem Lane.onAlm_ths (L : Lane) (f : AlmSt → AlmSt) : (L.onAlm f).ths = L.ths := rfl
@[simp] theorem Lane.onAlm_rd (L : Lane) (f : AlmSt → AlmSt) (x : Nat) : (L.onAlm f).rd x = L.rd x := rfl
@[simp] theorem Lane.onAlm_byte (L : Lane) (f : AlmSt → AlmSt) (x : Nat) : (L.onAlm f).byte x = L.byte x := rfl
@[simp] theorem Lane.onAlm_get (L : Lane) (f : AlmSt → AlmSt) (g : Fld) (j i : Nat) : (L.onAlm f).get g j i = L.get g j i := rfl

@[simp] theorem Lane.onSaf_strap (L : Lane) (f : SafSt → SafSt) : (L.onSaf f).strap = L.strap := rfl
@[simp] theorem Lane.onSaf_regs (L : Lane) (f : SafSt → SafSt) : (L.onSaf f).regs = L.regs := rfl
@[simp] theorem Lane.onSaf_mem (L : Lane) (f : SafSt → SafSt) : (L.onSaf f).mem = L.mem := rfl
@[simp] theorem Lane.onSaf_evqTime (L : Lane) (f : SafSt → SafSt) : (L.onSaf f).evqTime = L.evqTime := rfl
@[simp] theorem Lane.onSaf_evqRead (L : Lane) (f : SafSt → SafSt) : (L.onSaf f).evqRead = L.evqRead := rfl
@[simp] theorem Lane.onSaf_tokens (L : Lane) (f : SafSt → SafSt) : (L.onSaf f).tokens = L.tokens := rfl
@[simp] theorem Lane.onSaf_now (L : Lane) (f : SafSt → SafSt) : (L.onSaf f).now = L.now := rfl
@[simp] theorem Lane.onSaf_mt (L : Lane) (f : SafSt → SafSt) : (L.onSaf f).mt = L.mt := rfl
@[simp] theorem Lane.onSaf_claimed (L : Lane) (f : SafSt → SafSt) : (L.onSaf f).claimed = L.claimed := rfl
@[simp] theorem Lane.onSaf_ip (L : Lane) (f : SafSt → SafSt) : (L.onSaf f).ip = L.ip := rfl
@[simp] theorem Lane.onSaf_claimData (L : Lane) (f : SafSt → SafSt) : (L.onSaf f).claimData = L.claimData := rfl
@[simp] theorem Lane.onSaf_isolated (L : Lane) (f : SafSt → SafSt) : (L.onSaf f).isolated = L.isolated := rfl
@[simp] theorem Lane.onSaf_cyc (L : Lane) (f : SafSt → SafSt) : (L.onSaf f).cyc = L.cyc := rfl
@[simp] theorem Lane.onSaf_rst (L : Lane) (f : SafSt → SafSt) : (L.onSaf f).rst = L.rst := rfl
@[simp] theorem Lane.onSaf_link (L : Lane) (f : SafSt → SafSt) : (L.onSaf f).link = L.link := rfl
@[simp] theorem Lane.onSaf_clk (L : Lane) (f : SafSt → SafSt) : (L.onSaf f).clk = L.clk := rfl
@[simp] theorem Lane.onSaf_ozl (L : Lane) (f : SafSt → SafSt) : (L.onSaf f).ozl = L.ozl := rfl
@[simp] theorem Lane.onSaf_sdl (L : Lane) (f : SafSt → SafSt) : (L.onSaf f).sdl = L.sdl := rfl
@[simp] theorem Lane.onSaf_trio (L : Lane) (f : SafSt → SafSt) : (L.onSaf f).trio = L.trio := rfl
@[simp] theorem Lane.onSaf_cmdq (L : Lane) (f : SafSt → SafSt) : (L.onSaf f).cmdq = L.cmdq := rfl
@[simp] theorem Lane.onSaf_gate (L : Lane) (f : SafSt → SafSt) : (L.onSaf f).gate = L.gate := rfl
@[simp] theorem Lane.onSaf_loops (L : Lane) (f : SafSt → SafSt) : (L.onSaf f).loops = L.loops := rfl
@[simp] theorem Lane.onSaf_drive (L : Lane) (f : SafSt → SafSt) : (L.onSaf f).drive = L.drive := rfl
@[simp] theorem Lane.onSaf_cnvs (L : Lane) (f : SafSt → SafSt) : (L.onSaf f).cnvs = L.cnvs := rfl
@[simp] theorem Lane.onSaf_icv (L : Lane) (f : SafSt → SafSt) : (L.onSaf f).icv = L.icv := rfl
@[simp] theorem Lane.onSaf_pos (L : Lane) (f : SafSt → SafSt) : (L.onSaf f).pos = L.pos := rfl
@[simp] theorem Lane.onSaf_hsf (L : Lane) (f : SafSt → SafSt) : (L.onSaf f).hsf = L.hsf := rfl
@[simp] theorem Lane.onSaf_pwr (L : Lane) (f : SafSt → SafSt) : (L.onSaf f).pwr = L.pwr := rfl
@[simp] theorem Lane.onSaf_test (L : Lane) (f : SafSt → SafSt) : (L.onSaf f).test = L.test := rfl
@[simp] theorem Lane.onSaf_can (L : Lane) (f : SafSt → SafSt) : (L.onSaf f).can = L.can := rfl
@[simp] theorem Lane.onSaf_flx (L : Lane) (f : SafSt → SafSt) : (L.onSaf f).flx = L.flx := rfl
@[simp] theorem Lane.onSaf_eth (L : Lane) (f : SafSt → SafSt) : (L.onSaf f).eth = L.eth := rfl
@[simp] theorem Lane.onSaf_twp (L : Lane) (f : SafSt → SafSt) : (L.onSaf f).twp = L.twp := rfl
@[simp] theorem Lane.onSaf_hk (L : Lane) (f : SafSt → SafSt) : (L.onSaf f).hk = L.hk := rfl
@[simp] theorem Lane.onSaf_ths (L : Lane) (f : SafSt → SafSt) : (L.onSaf f).ths = L.ths := rfl
@[simp] theorem Lane.onSaf_alm (L : Lane) (f : SafSt → SafSt) : (L.onSaf f).alm = L.alm := rfl
@[simp] theorem Lane.onSaf_rd (L : Lane) (f : SafSt → SafSt) (x : Nat) : (L.onSaf f).rd x = L.rd x := rfl
@[simp] theorem Lane.onSaf_byte (L : Lane) (f : SafSt → SafSt) (x : Nat) : (L.onSaf f).byte x = L.byte x := rfl
@[simp] theorem Lane.onSaf_get (L : Lane) (f : SafSt → SafSt) (g : Fld) (j i : Nat) : (L.onSaf f).get g j i = L.get g j i := rfl

@[simp] theorem Lane.onHsf_strap (L : Lane) (f : HsfSt → HsfSt) : (L.onHsf f).strap = L.strap := rfl
@[simp] theorem Lane.onHsf_regs (L : Lane) (f : HsfSt → HsfSt) : (L.onHsf f).regs = L.regs := rfl
@[simp] theorem Lane.onHsf_mem (L : Lane) (f : HsfSt → HsfSt) : (L.onHsf f).mem = L.mem := rfl
@[simp] theorem Lane.onHsf_evqTime (L : Lane) (f : HsfSt → HsfSt) : (L.onHsf f).evqTime = L.evqTime := rfl
@[simp] theorem Lane.onHsf_evqRead (L : Lane) (f : HsfSt → HsfSt) : (L.onHsf f).evqRead = L.evqRead := rfl
@[simp] theorem Lane.onHsf_tokens (L : Lane) (f : HsfSt → HsfSt) : (L.onHsf f).tokens = L.tokens := rfl
@[simp] theorem Lane.onHsf_now (L : Lane) (f : HsfSt → HsfSt) : (L.onHsf f).now = L.now := rfl
@[simp] theorem Lane.onHsf_mt (L : Lane) (f : HsfSt → HsfSt) : (L.onHsf f).mt = L.mt := rfl
@[simp] theorem Lane.onHsf_claimed (L : Lane) (f : HsfSt → HsfSt) : (L.onHsf f).claimed = L.claimed := rfl
@[simp] theorem Lane.onHsf_ip (L : Lane) (f : HsfSt → HsfSt) : (L.onHsf f).ip = L.ip := rfl
@[simp] theorem Lane.onHsf_claimData (L : Lane) (f : HsfSt → HsfSt) : (L.onHsf f).claimData = L.claimData := rfl
@[simp] theorem Lane.onHsf_isolated (L : Lane) (f : HsfSt → HsfSt) : (L.onHsf f).isolated = L.isolated := rfl
@[simp] theorem Lane.onHsf_cyc (L : Lane) (f : HsfSt → HsfSt) : (L.onHsf f).cyc = L.cyc := rfl
@[simp] theorem Lane.onHsf_rst (L : Lane) (f : HsfSt → HsfSt) : (L.onHsf f).rst = L.rst := rfl
@[simp] theorem Lane.onHsf_link (L : Lane) (f : HsfSt → HsfSt) : (L.onHsf f).link = L.link := rfl
@[simp] theorem Lane.onHsf_clk (L : Lane) (f : HsfSt → HsfSt) : (L.onHsf f).clk = L.clk := rfl
@[simp] theorem Lane.onHsf_ozl (L : Lane) (f : HsfSt → HsfSt) : (L.onHsf f).ozl = L.ozl := rfl
@[simp] theorem Lane.onHsf_sdl (L : Lane) (f : HsfSt → HsfSt) : (L.onHsf f).sdl = L.sdl := rfl
@[simp] theorem Lane.onHsf_trio (L : Lane) (f : HsfSt → HsfSt) : (L.onHsf f).trio = L.trio := rfl
@[simp] theorem Lane.onHsf_cmdq (L : Lane) (f : HsfSt → HsfSt) : (L.onHsf f).cmdq = L.cmdq := rfl
@[simp] theorem Lane.onHsf_gate (L : Lane) (f : HsfSt → HsfSt) : (L.onHsf f).gate = L.gate := rfl
@[simp] theorem Lane.onHsf_loops (L : Lane) (f : HsfSt → HsfSt) : (L.onHsf f).loops = L.loops := rfl
@[simp] theorem Lane.onHsf_drive (L : Lane) (f : HsfSt → HsfSt) : (L.onHsf f).drive = L.drive := rfl
@[simp] theorem Lane.onHsf_cnvs (L : Lane) (f : HsfSt → HsfSt) : (L.onHsf f).cnvs = L.cnvs := rfl
@[simp] theorem Lane.onHsf_icv (L : Lane) (f : HsfSt → HsfSt) : (L.onHsf f).icv = L.icv := rfl
@[simp] theorem Lane.onHsf_pos (L : Lane) (f : HsfSt → HsfSt) : (L.onHsf f).pos = L.pos := rfl
@[simp] theorem Lane.onHsf_saf (L : Lane) (f : HsfSt → HsfSt) : (L.onHsf f).saf = L.saf := rfl
@[simp] theorem Lane.onHsf_pwr (L : Lane) (f : HsfSt → HsfSt) : (L.onHsf f).pwr = L.pwr := rfl
@[simp] theorem Lane.onHsf_test (L : Lane) (f : HsfSt → HsfSt) : (L.onHsf f).test = L.test := rfl
@[simp] theorem Lane.onHsf_can (L : Lane) (f : HsfSt → HsfSt) : (L.onHsf f).can = L.can := rfl
@[simp] theorem Lane.onHsf_flx (L : Lane) (f : HsfSt → HsfSt) : (L.onHsf f).flx = L.flx := rfl
@[simp] theorem Lane.onHsf_eth (L : Lane) (f : HsfSt → HsfSt) : (L.onHsf f).eth = L.eth := rfl
@[simp] theorem Lane.onHsf_twp (L : Lane) (f : HsfSt → HsfSt) : (L.onHsf f).twp = L.twp := rfl
@[simp] theorem Lane.onHsf_hk (L : Lane) (f : HsfSt → HsfSt) : (L.onHsf f).hk = L.hk := rfl
@[simp] theorem Lane.onHsf_ths (L : Lane) (f : HsfSt → HsfSt) : (L.onHsf f).ths = L.ths := rfl
@[simp] theorem Lane.onHsf_alm (L : Lane) (f : HsfSt → HsfSt) : (L.onHsf f).alm = L.alm := rfl
@[simp] theorem Lane.onHsf_rd (L : Lane) (f : HsfSt → HsfSt) (x : Nat) : (L.onHsf f).rd x = L.rd x := rfl
@[simp] theorem Lane.onHsf_byte (L : Lane) (f : HsfSt → HsfSt) (x : Nat) : (L.onHsf f).byte x = L.byte x := rfl
@[simp] theorem Lane.onHsf_get (L : Lane) (f : HsfSt → HsfSt) (g : Fld) (j i : Nat) : (L.onHsf f).get g j i = L.get g j i := rfl

@[simp] theorem Lane.onAct_strap (L : Lane) (a : Nat) (f : ActSt → ActSt) : (L.onAct a f).strap = L.strap := rfl
@[simp] theorem Lane.onAct_regs (L : Lane) (a : Nat) (f : ActSt → ActSt) : (L.onAct a f).regs = L.regs := rfl
@[simp] theorem Lane.onAct_mem (L : Lane) (a : Nat) (f : ActSt → ActSt) : (L.onAct a f).mem = L.mem := rfl
@[simp] theorem Lane.onAct_evqTime (L : Lane) (a : Nat) (f : ActSt → ActSt) : (L.onAct a f).evqTime = L.evqTime := rfl
@[simp] theorem Lane.onAct_evqRead (L : Lane) (a : Nat) (f : ActSt → ActSt) : (L.onAct a f).evqRead = L.evqRead := rfl
@[simp] theorem Lane.onAct_tokens (L : Lane) (a : Nat) (f : ActSt → ActSt) : (L.onAct a f).tokens = L.tokens := rfl
@[simp] theorem Lane.onAct_now (L : Lane) (a : Nat) (f : ActSt → ActSt) : (L.onAct a f).now = L.now := rfl
@[simp] theorem Lane.onAct_mt (L : Lane) (a : Nat) (f : ActSt → ActSt) : (L.onAct a f).mt = L.mt := rfl
@[simp] theorem Lane.onAct_claimed (L : Lane) (a : Nat) (f : ActSt → ActSt) : (L.onAct a f).claimed = L.claimed := rfl
@[simp] theorem Lane.onAct_ip (L : Lane) (a : Nat) (f : ActSt → ActSt) : (L.onAct a f).ip = L.ip := rfl
@[simp] theorem Lane.onAct_claimData (L : Lane) (a : Nat) (f : ActSt → ActSt) : (L.onAct a f).claimData = L.claimData := rfl
@[simp] theorem Lane.onAct_isolated (L : Lane) (a : Nat) (f : ActSt → ActSt) : (L.onAct a f).isolated = L.isolated := rfl
@[simp] theorem Lane.onAct_cyc (L : Lane) (a : Nat) (f : ActSt → ActSt) : (L.onAct a f).cyc = L.cyc := rfl
@[simp] theorem Lane.onAct_rst (L : Lane) (a : Nat) (f : ActSt → ActSt) : (L.onAct a f).rst = L.rst := rfl
@[simp] theorem Lane.onAct_link (L : Lane) (a : Nat) (f : ActSt → ActSt) : (L.onAct a f).link = L.link := rfl
@[simp] theorem Lane.onAct_clk (L : Lane) (a : Nat) (f : ActSt → ActSt) : (L.onAct a f).clk = L.clk := rfl
@[simp] theorem Lane.onAct_ozl (L : Lane) (a : Nat) (f : ActSt → ActSt) : (L.onAct a f).ozl = L.ozl := rfl
@[simp] theorem Lane.onAct_sdl (L : Lane) (a : Nat) (f : ActSt → ActSt) : (L.onAct a f).sdl = L.sdl := rfl
@[simp] theorem Lane.onAct_trio (L : Lane) (a : Nat) (f : ActSt → ActSt) : (L.onAct a f).trio = L.trio := rfl
@[simp] theorem Lane.onAct_gate (L : Lane) (a : Nat) (f : ActSt → ActSt) : (L.onAct a f).gate = L.gate := rfl
@[simp] theorem Lane.onAct_loops (L : Lane) (a : Nat) (f : ActSt → ActSt) : (L.onAct a f).loops = L.loops := rfl
@[simp] theorem Lane.onAct_drive (L : Lane) (a : Nat) (f : ActSt → ActSt) : (L.onAct a f).drive = L.drive := rfl
@[simp] theorem Lane.onAct_cnvs (L : Lane) (a : Nat) (f : ActSt → ActSt) : (L.onAct a f).cnvs = L.cnvs := rfl
@[simp] theorem Lane.onAct_icv (L : Lane) (a : Nat) (f : ActSt → ActSt) : (L.onAct a f).icv = L.icv := rfl
@[simp] theorem Lane.onAct_pos (L : Lane) (a : Nat) (f : ActSt → ActSt) : (L.onAct a f).pos = L.pos := rfl
@[simp] theorem Lane.onAct_saf (L : Lane) (a : Nat) (f : ActSt → ActSt) : (L.onAct a f).saf = L.saf := rfl
@[simp] theorem Lane.onAct_hsf (L : Lane) (a : Nat) (f : ActSt → ActSt) : (L.onAct a f).hsf = L.hsf := rfl
@[simp] theorem Lane.onAct_pwr (L : Lane) (a : Nat) (f : ActSt → ActSt) : (L.onAct a f).pwr = L.pwr := rfl
@[simp] theorem Lane.onAct_test (L : Lane) (a : Nat) (f : ActSt → ActSt) : (L.onAct a f).test = L.test := rfl
@[simp] theorem Lane.onAct_can (L : Lane) (a : Nat) (f : ActSt → ActSt) : (L.onAct a f).can = L.can := rfl
@[simp] theorem Lane.onAct_flx (L : Lane) (a : Nat) (f : ActSt → ActSt) : (L.onAct a f).flx = L.flx := rfl
@[simp] theorem Lane.onAct_eth (L : Lane) (a : Nat) (f : ActSt → ActSt) : (L.onAct a f).eth = L.eth := rfl
@[simp] theorem Lane.onAct_twp (L : Lane) (a : Nat) (f : ActSt → ActSt) : (L.onAct a f).twp = L.twp := rfl
@[simp] theorem Lane.onAct_hk (L : Lane) (a : Nat) (f : ActSt → ActSt) : (L.onAct a f).hk = L.hk := rfl
@[simp] theorem Lane.onAct_ths (L : Lane) (a : Nat) (f : ActSt → ActSt) : (L.onAct a f).ths = L.ths := rfl
@[simp] theorem Lane.onAct_alm (L : Lane) (a : Nat) (f : ActSt → ActSt) : (L.onAct a f).alm = L.alm := rfl
@[simp] theorem Lane.onAct_rd (L : Lane) (a : Nat) (f : ActSt → ActSt) (x : Nat) : (L.onAct a f).rd x = L.rd x := rfl
@[simp] theorem Lane.onAct_byte (L : Lane) (a : Nat) (f : ActSt → ActSt) (x : Nat) : (L.onAct a f).byte x = L.byte x := rfl
@[simp] theorem Lane.onAct_get (L : Lane) (a : Nat) (f : ActSt → ActSt) (g : Fld) (j i : Nat) : (L.onAct a f).get g j i = L.get g j i := rfl

@[simp] theorem Lane.onSbh_strap (L : Lane) (a : Nat) (f : SbhSt → SbhSt) : (L.onSbh a f).strap = L.strap := rfl
@[simp] theorem Lane.onSbh_regs (L : Lane) (a : Nat) (f : SbhSt → SbhSt) : (L.onSbh a f).regs = L.regs := rfl
@[simp] theorem Lane.onSbh_mem (L : Lane) (a : Nat) (f : SbhSt → SbhSt) : (L.onSbh a f).mem = L.mem := rfl
@[simp] theorem Lane.onSbh_evqTime (L : Lane) (a : Nat) (f : SbhSt → SbhSt) : (L.onSbh a f).evqTime = L.evqTime := rfl
@[simp] theorem Lane.onSbh_evqRead (L : Lane) (a : Nat) (f : SbhSt → SbhSt) : (L.onSbh a f).evqRead = L.evqRead := rfl
@[simp] theorem Lane.onSbh_tokens (L : Lane) (a : Nat) (f : SbhSt → SbhSt) : (L.onSbh a f).tokens = L.tokens := rfl
@[simp] theorem Lane.onSbh_now (L : Lane) (a : Nat) (f : SbhSt → SbhSt) : (L.onSbh a f).now = L.now := rfl
@[simp] theorem Lane.onSbh_mt (L : Lane) (a : Nat) (f : SbhSt → SbhSt) : (L.onSbh a f).mt = L.mt := rfl
@[simp] theorem Lane.onSbh_claimed (L : Lane) (a : Nat) (f : SbhSt → SbhSt) : (L.onSbh a f).claimed = L.claimed := rfl
@[simp] theorem Lane.onSbh_ip (L : Lane) (a : Nat) (f : SbhSt → SbhSt) : (L.onSbh a f).ip = L.ip := rfl
@[simp] theorem Lane.onSbh_claimData (L : Lane) (a : Nat) (f : SbhSt → SbhSt) : (L.onSbh a f).claimData = L.claimData := rfl
@[simp] theorem Lane.onSbh_isolated (L : Lane) (a : Nat) (f : SbhSt → SbhSt) : (L.onSbh a f).isolated = L.isolated := rfl
@[simp] theorem Lane.onSbh_cyc (L : Lane) (a : Nat) (f : SbhSt → SbhSt) : (L.onSbh a f).cyc = L.cyc := rfl
@[simp] theorem Lane.onSbh_rst (L : Lane) (a : Nat) (f : SbhSt → SbhSt) : (L.onSbh a f).rst = L.rst := rfl
@[simp] theorem Lane.onSbh_link (L : Lane) (a : Nat) (f : SbhSt → SbhSt) : (L.onSbh a f).link = L.link := rfl
@[simp] theorem Lane.onSbh_clk (L : Lane) (a : Nat) (f : SbhSt → SbhSt) : (L.onSbh a f).clk = L.clk := rfl
@[simp] theorem Lane.onSbh_ozl (L : Lane) (a : Nat) (f : SbhSt → SbhSt) : (L.onSbh a f).ozl = L.ozl := rfl
@[simp] theorem Lane.onSbh_sdl (L : Lane) (a : Nat) (f : SbhSt → SbhSt) : (L.onSbh a f).sdl = L.sdl := rfl
@[simp] theorem Lane.onSbh_trio (L : Lane) (a : Nat) (f : SbhSt → SbhSt) : (L.onSbh a f).trio = L.trio := rfl
@[simp] theorem Lane.onSbh_cmdq (L : Lane) (a : Nat) (f : SbhSt → SbhSt) : (L.onSbh a f).cmdq = L.cmdq := rfl
@[simp] theorem Lane.onSbh_gate (L : Lane) (a : Nat) (f : SbhSt → SbhSt) : (L.onSbh a f).gate = L.gate := rfl
@[simp] theorem Lane.onSbh_loops (L : Lane) (a : Nat) (f : SbhSt → SbhSt) : (L.onSbh a f).loops = L.loops := rfl
@[simp] theorem Lane.onSbh_drive (L : Lane) (a : Nat) (f : SbhSt → SbhSt) : (L.onSbh a f).drive = L.drive := rfl
@[simp] theorem Lane.onSbh_cnvs (L : Lane) (a : Nat) (f : SbhSt → SbhSt) : (L.onSbh a f).cnvs = L.cnvs := rfl
@[simp] theorem Lane.onSbh_icv (L : Lane) (a : Nat) (f : SbhSt → SbhSt) : (L.onSbh a f).icv = L.icv := rfl
@[simp] theorem Lane.onSbh_pos (L : Lane) (a : Nat) (f : SbhSt → SbhSt) : (L.onSbh a f).pos = L.pos := rfl
@[simp] theorem Lane.onSbh_hsf (L : Lane) (a : Nat) (f : SbhSt → SbhSt) : (L.onSbh a f).hsf = L.hsf := rfl
@[simp] theorem Lane.onSbh_pwr (L : Lane) (a : Nat) (f : SbhSt → SbhSt) : (L.onSbh a f).pwr = L.pwr := rfl
@[simp] theorem Lane.onSbh_test (L : Lane) (a : Nat) (f : SbhSt → SbhSt) : (L.onSbh a f).test = L.test := rfl
@[simp] theorem Lane.onSbh_can (L : Lane) (a : Nat) (f : SbhSt → SbhSt) : (L.onSbh a f).can = L.can := rfl
@[simp] theorem Lane.onSbh_flx (L : Lane) (a : Nat) (f : SbhSt → SbhSt) : (L.onSbh a f).flx = L.flx := rfl
@[simp] theorem Lane.onSbh_eth (L : Lane) (a : Nat) (f : SbhSt → SbhSt) : (L.onSbh a f).eth = L.eth := rfl
@[simp] theorem Lane.onSbh_twp (L : Lane) (a : Nat) (f : SbhSt → SbhSt) : (L.onSbh a f).twp = L.twp := rfl
@[simp] theorem Lane.onSbh_hk (L : Lane) (a : Nat) (f : SbhSt → SbhSt) : (L.onSbh a f).hk = L.hk := rfl
@[simp] theorem Lane.onSbh_ths (L : Lane) (a : Nat) (f : SbhSt → SbhSt) : (L.onSbh a f).ths = L.ths := rfl
@[simp] theorem Lane.onSbh_alm (L : Lane) (a : Nat) (f : SbhSt → SbhSt) : (L.onSbh a f).alm = L.alm := rfl
@[simp] theorem Lane.onSbh_rd (L : Lane) (a : Nat) (f : SbhSt → SbhSt) (x : Nat) : (L.onSbh a f).rd x = L.rd x := rfl
@[simp] theorem Lane.onSbh_byte (L : Lane) (a : Nat) (f : SbhSt → SbhSt) (x : Nat) : (L.onSbh a f).byte x = L.byte x := rfl
@[simp] theorem Lane.onSbh_get (L : Lane) (a : Nat) (f : SbhSt → SbhSt) (g : Fld) (j i : Nat) : (L.onSbh a f).get g j i = L.get g j i := rfl

@[simp] theorem Lane.onTest_strap (L : Lane) (f : TestSt → TestSt) : (L.onTest f).strap = L.strap := rfl
@[simp] theorem Lane.onTest_regs (L : Lane) (f : TestSt → TestSt) : (L.onTest f).regs = L.regs := rfl
@[simp] theorem Lane.onTest_mem (L : Lane) (f : TestSt → TestSt) : (L.onTest f).mem = L.mem := rfl
@[simp] theorem Lane.onTest_evqTime (L : Lane) (f : TestSt → TestSt) : (L.onTest f).evqTime = L.evqTime := rfl
@[simp] theorem Lane.onTest_evqRead (L : Lane) (f : TestSt → TestSt) : (L.onTest f).evqRead = L.evqRead := rfl
@[simp] theorem Lane.onTest_tokens (L : Lane) (f : TestSt → TestSt) : (L.onTest f).tokens = L.tokens := rfl
@[simp] theorem Lane.onTest_now (L : Lane) (f : TestSt → TestSt) : (L.onTest f).now = L.now := rfl
@[simp] theorem Lane.onTest_mt (L : Lane) (f : TestSt → TestSt) : (L.onTest f).mt = L.mt := rfl
@[simp] theorem Lane.onTest_claimed (L : Lane) (f : TestSt → TestSt) : (L.onTest f).claimed = L.claimed := rfl
@[simp] theorem Lane.onTest_ip (L : Lane) (f : TestSt → TestSt) : (L.onTest f).ip = L.ip := rfl
@[simp] theorem Lane.onTest_claimData (L : Lane) (f : TestSt → TestSt) : (L.onTest f).claimData = L.claimData := rfl
@[simp] theorem Lane.onTest_isolated (L : Lane) (f : TestSt → TestSt) : (L.onTest f).isolated = L.isolated := rfl
@[simp] theorem Lane.onTest_cyc (L : Lane) (f : TestSt → TestSt) : (L.onTest f).cyc = L.cyc := rfl
@[simp] theorem Lane.onTest_rst (L : Lane) (f : TestSt → TestSt) : (L.onTest f).rst = L.rst := rfl
@[simp] theorem Lane.onTest_link (L : Lane) (f : TestSt → TestSt) : (L.onTest f).link = L.link := rfl
@[simp] theorem Lane.onTest_clk (L : Lane) (f : TestSt → TestSt) : (L.onTest f).clk = L.clk := rfl
@[simp] theorem Lane.onTest_ozl (L : Lane) (f : TestSt → TestSt) : (L.onTest f).ozl = L.ozl := rfl
@[simp] theorem Lane.onTest_sdl (L : Lane) (f : TestSt → TestSt) : (L.onTest f).sdl = L.sdl := rfl
@[simp] theorem Lane.onTest_trio (L : Lane) (f : TestSt → TestSt) : (L.onTest f).trio = L.trio := rfl
@[simp] theorem Lane.onTest_cmdq (L : Lane) (f : TestSt → TestSt) : (L.onTest f).cmdq = L.cmdq := rfl
@[simp] theorem Lane.onTest_gate (L : Lane) (f : TestSt → TestSt) : (L.onTest f).gate = L.gate := rfl
@[simp] theorem Lane.onTest_loops (L : Lane) (f : TestSt → TestSt) : (L.onTest f).loops = L.loops := rfl
@[simp] theorem Lane.onTest_drive (L : Lane) (f : TestSt → TestSt) : (L.onTest f).drive = L.drive := rfl
@[simp] theorem Lane.onTest_cnvs (L : Lane) (f : TestSt → TestSt) : (L.onTest f).cnvs = L.cnvs := rfl
@[simp] theorem Lane.onTest_icv (L : Lane) (f : TestSt → TestSt) : (L.onTest f).icv = L.icv := rfl
@[simp] theorem Lane.onTest_pos (L : Lane) (f : TestSt → TestSt) : (L.onTest f).pos = L.pos := rfl
@[simp] theorem Lane.onTest_saf (L : Lane) (f : TestSt → TestSt) : (L.onTest f).saf = L.saf := rfl
@[simp] theorem Lane.onTest_hsf (L : Lane) (f : TestSt → TestSt) : (L.onTest f).hsf = L.hsf := rfl
@[simp] theorem Lane.onTest_pwr (L : Lane) (f : TestSt → TestSt) : (L.onTest f).pwr = L.pwr := rfl
@[simp] theorem Lane.onTest_can (L : Lane) (f : TestSt → TestSt) : (L.onTest f).can = L.can := rfl
@[simp] theorem Lane.onTest_flx (L : Lane) (f : TestSt → TestSt) : (L.onTest f).flx = L.flx := rfl
@[simp] theorem Lane.onTest_eth (L : Lane) (f : TestSt → TestSt) : (L.onTest f).eth = L.eth := rfl
@[simp] theorem Lane.onTest_twp (L : Lane) (f : TestSt → TestSt) : (L.onTest f).twp = L.twp := rfl
@[simp] theorem Lane.onTest_hk (L : Lane) (f : TestSt → TestSt) : (L.onTest f).hk = L.hk := rfl
@[simp] theorem Lane.onTest_ths (L : Lane) (f : TestSt → TestSt) : (L.onTest f).ths = L.ths := rfl
@[simp] theorem Lane.onTest_alm (L : Lane) (f : TestSt → TestSt) : (L.onTest f).alm = L.alm := rfl
@[simp] theorem Lane.onTest_rd (L : Lane) (f : TestSt → TestSt) (x : Nat) : (L.onTest f).rd x = L.rd x := rfl
@[simp] theorem Lane.onTest_byte (L : Lane) (f : TestSt → TestSt) (x : Nat) : (L.onTest f).byte x = L.byte x := rfl
@[simp] theorem Lane.onTest_get (L : Lane) (f : TestSt → TestSt) (g : Fld) (j i : Nat) : (L.onTest f).get g j i = L.get g j i := rfl

@[simp] theorem Lane.onHk_strap (L : Lane) (f : HkSt → HkSt) : (L.onHk f).strap = L.strap := rfl
@[simp] theorem Lane.onHk_regs (L : Lane) (f : HkSt → HkSt) : (L.onHk f).regs = L.regs := rfl
@[simp] theorem Lane.onHk_mem (L : Lane) (f : HkSt → HkSt) : (L.onHk f).mem = L.mem := rfl
@[simp] theorem Lane.onHk_evqTime (L : Lane) (f : HkSt → HkSt) : (L.onHk f).evqTime = L.evqTime := rfl
@[simp] theorem Lane.onHk_evqRead (L : Lane) (f : HkSt → HkSt) : (L.onHk f).evqRead = L.evqRead := rfl
@[simp] theorem Lane.onHk_tokens (L : Lane) (f : HkSt → HkSt) : (L.onHk f).tokens = L.tokens := rfl
@[simp] theorem Lane.onHk_now (L : Lane) (f : HkSt → HkSt) : (L.onHk f).now = L.now := rfl
@[simp] theorem Lane.onHk_mt (L : Lane) (f : HkSt → HkSt) : (L.onHk f).mt = L.mt := rfl
@[simp] theorem Lane.onHk_claimed (L : Lane) (f : HkSt → HkSt) : (L.onHk f).claimed = L.claimed := rfl
@[simp] theorem Lane.onHk_ip (L : Lane) (f : HkSt → HkSt) : (L.onHk f).ip = L.ip := rfl
@[simp] theorem Lane.onHk_claimData (L : Lane) (f : HkSt → HkSt) : (L.onHk f).claimData = L.claimData := rfl
@[simp] theorem Lane.onHk_isolated (L : Lane) (f : HkSt → HkSt) : (L.onHk f).isolated = L.isolated := rfl
@[simp] theorem Lane.onHk_cyc (L : Lane) (f : HkSt → HkSt) : (L.onHk f).cyc = L.cyc := rfl
@[simp] theorem Lane.onHk_rst (L : Lane) (f : HkSt → HkSt) : (L.onHk f).rst = L.rst := rfl
@[simp] theorem Lane.onHk_link (L : Lane) (f : HkSt → HkSt) : (L.onHk f).link = L.link := rfl
@[simp] theorem Lane.onHk_clk (L : Lane) (f : HkSt → HkSt) : (L.onHk f).clk = L.clk := rfl
@[simp] theorem Lane.onHk_ozl (L : Lane) (f : HkSt → HkSt) : (L.onHk f).ozl = L.ozl := rfl
@[simp] theorem Lane.onHk_sdl (L : Lane) (f : HkSt → HkSt) : (L.onHk f).sdl = L.sdl := rfl
@[simp] theorem Lane.onHk_trio (L : Lane) (f : HkSt → HkSt) : (L.onHk f).trio = L.trio := rfl
@[simp] theorem Lane.onHk_cmdq (L : Lane) (f : HkSt → HkSt) : (L.onHk f).cmdq = L.cmdq := rfl
@[simp] theorem Lane.onHk_gate (L : Lane) (f : HkSt → HkSt) : (L.onHk f).gate = L.gate := rfl
@[simp] theorem Lane.onHk_loops (L : Lane) (f : HkSt → HkSt) : (L.onHk f).loops = L.loops := rfl
@[simp] theorem Lane.onHk_drive (L : Lane) (f : HkSt → HkSt) : (L.onHk f).drive = L.drive := rfl
@[simp] theorem Lane.onHk_cnvs (L : Lane) (f : HkSt → HkSt) : (L.onHk f).cnvs = L.cnvs := rfl
@[simp] theorem Lane.onHk_icv (L : Lane) (f : HkSt → HkSt) : (L.onHk f).icv = L.icv := rfl
@[simp] theorem Lane.onHk_pos (L : Lane) (f : HkSt → HkSt) : (L.onHk f).pos = L.pos := rfl
@[simp] theorem Lane.onHk_saf (L : Lane) (f : HkSt → HkSt) : (L.onHk f).saf = L.saf := rfl
@[simp] theorem Lane.onHk_hsf (L : Lane) (f : HkSt → HkSt) : (L.onHk f).hsf = L.hsf := rfl
@[simp] theorem Lane.onHk_pwr (L : Lane) (f : HkSt → HkSt) : (L.onHk f).pwr = L.pwr := rfl
@[simp] theorem Lane.onHk_test (L : Lane) (f : HkSt → HkSt) : (L.onHk f).test = L.test := rfl
@[simp] theorem Lane.onHk_can (L : Lane) (f : HkSt → HkSt) : (L.onHk f).can = L.can := rfl
@[simp] theorem Lane.onHk_flx (L : Lane) (f : HkSt → HkSt) : (L.onHk f).flx = L.flx := rfl
@[simp] theorem Lane.onHk_eth (L : Lane) (f : HkSt → HkSt) : (L.onHk f).eth = L.eth := rfl
@[simp] theorem Lane.onHk_twp (L : Lane) (f : HkSt → HkSt) : (L.onHk f).twp = L.twp := rfl
@[simp] theorem Lane.onHk_ths (L : Lane) (f : HkSt → HkSt) : (L.onHk f).ths = L.ths := rfl
@[simp] theorem Lane.onHk_alm (L : Lane) (f : HkSt → HkSt) : (L.onHk f).alm = L.alm := rfl
@[simp] theorem Lane.onHk_rd (L : Lane) (f : HkSt → HkSt) (x : Nat) : (L.onHk f).rd x = L.rd x := rfl
@[simp] theorem Lane.onHk_byte (L : Lane) (f : HkSt → HkSt) (x : Nat) : (L.onHk f).byte x = L.byte x := rfl
@[simp] theorem Lane.onHk_get (L : Lane) (f : HkSt → HkSt) (g : Fld) (j i : Nat) : (L.onHk f).get g j i = L.get g j i := rfl

@[simp] theorem Lane.onEth_strap (L : Lane) (f : EthSt → EthSt) : (L.onEth f).strap = L.strap := rfl
@[simp] theorem Lane.onEth_regs (L : Lane) (f : EthSt → EthSt) : (L.onEth f).regs = L.regs := rfl
@[simp] theorem Lane.onEth_mem (L : Lane) (f : EthSt → EthSt) : (L.onEth f).mem = L.mem := rfl
@[simp] theorem Lane.onEth_evqTime (L : Lane) (f : EthSt → EthSt) : (L.onEth f).evqTime = L.evqTime := rfl
@[simp] theorem Lane.onEth_evqRead (L : Lane) (f : EthSt → EthSt) : (L.onEth f).evqRead = L.evqRead := rfl
@[simp] theorem Lane.onEth_tokens (L : Lane) (f : EthSt → EthSt) : (L.onEth f).tokens = L.tokens := rfl
@[simp] theorem Lane.onEth_now (L : Lane) (f : EthSt → EthSt) : (L.onEth f).now = L.now := rfl
@[simp] theorem Lane.onEth_mt (L : Lane) (f : EthSt → EthSt) : (L.onEth f).mt = L.mt := rfl
@[simp] theorem Lane.onEth_claimed (L : Lane) (f : EthSt → EthSt) : (L.onEth f).claimed = L.claimed := rfl
@[simp] theorem Lane.onEth_ip (L : Lane) (f : EthSt → EthSt) : (L.onEth f).ip = L.ip := rfl
@[simp] theorem Lane.onEth_claimData (L : Lane) (f : EthSt → EthSt) : (L.onEth f).claimData = L.claimData := rfl
@[simp] theorem Lane.onEth_isolated (L : Lane) (f : EthSt → EthSt) : (L.onEth f).isolated = L.isolated := rfl
@[simp] theorem Lane.onEth_cyc (L : Lane) (f : EthSt → EthSt) : (L.onEth f).cyc = L.cyc := rfl
@[simp] theorem Lane.onEth_rst (L : Lane) (f : EthSt → EthSt) : (L.onEth f).rst = L.rst := rfl
@[simp] theorem Lane.onEth_link (L : Lane) (f : EthSt → EthSt) : (L.onEth f).link = L.link := rfl
@[simp] theorem Lane.onEth_clk (L : Lane) (f : EthSt → EthSt) : (L.onEth f).clk = L.clk := rfl
@[simp] theorem Lane.onEth_ozl (L : Lane) (f : EthSt → EthSt) : (L.onEth f).ozl = L.ozl := rfl
@[simp] theorem Lane.onEth_sdl (L : Lane) (f : EthSt → EthSt) : (L.onEth f).sdl = L.sdl := rfl
@[simp] theorem Lane.onEth_trio (L : Lane) (f : EthSt → EthSt) : (L.onEth f).trio = L.trio := rfl
@[simp] theorem Lane.onEth_cmdq (L : Lane) (f : EthSt → EthSt) : (L.onEth f).cmdq = L.cmdq := rfl
@[simp] theorem Lane.onEth_gate (L : Lane) (f : EthSt → EthSt) : (L.onEth f).gate = L.gate := rfl
@[simp] theorem Lane.onEth_loops (L : Lane) (f : EthSt → EthSt) : (L.onEth f).loops = L.loops := rfl
@[simp] theorem Lane.onEth_drive (L : Lane) (f : EthSt → EthSt) : (L.onEth f).drive = L.drive := rfl
@[simp] theorem Lane.onEth_cnvs (L : Lane) (f : EthSt → EthSt) : (L.onEth f).cnvs = L.cnvs := rfl
@[simp] theorem Lane.onEth_icv (L : Lane) (f : EthSt → EthSt) : (L.onEth f).icv = L.icv := rfl
@[simp] theorem Lane.onEth_pos (L : Lane) (f : EthSt → EthSt) : (L.onEth f).pos = L.pos := rfl
@[simp] theorem Lane.onEth_saf (L : Lane) (f : EthSt → EthSt) : (L.onEth f).saf = L.saf := rfl
@[simp] theorem Lane.onEth_hsf (L : Lane) (f : EthSt → EthSt) : (L.onEth f).hsf = L.hsf := rfl
@[simp] theorem Lane.onEth_pwr (L : Lane) (f : EthSt → EthSt) : (L.onEth f).pwr = L.pwr := rfl
@[simp] theorem Lane.onEth_test (L : Lane) (f : EthSt → EthSt) : (L.onEth f).test = L.test := rfl
@[simp] theorem Lane.onEth_can (L : Lane) (f : EthSt → EthSt) : (L.onEth f).can = L.can := rfl
@[simp] theorem Lane.onEth_flx (L : Lane) (f : EthSt → EthSt) : (L.onEth f).flx = L.flx := rfl
@[simp] theorem Lane.onEth_twp (L : Lane) (f : EthSt → EthSt) : (L.onEth f).twp = L.twp := rfl
@[simp] theorem Lane.onEth_hk (L : Lane) (f : EthSt → EthSt) : (L.onEth f).hk = L.hk := rfl
@[simp] theorem Lane.onEth_ths (L : Lane) (f : EthSt → EthSt) : (L.onEth f).ths = L.ths := rfl
@[simp] theorem Lane.onEth_alm (L : Lane) (f : EthSt → EthSt) : (L.onEth f).alm = L.alm := rfl
@[simp] theorem Lane.onEth_rd (L : Lane) (f : EthSt → EthSt) (x : Nat) : (L.onEth f).rd x = L.rd x := rfl
@[simp] theorem Lane.onEth_byte (L : Lane) (f : EthSt → EthSt) (x : Nat) : (L.onEth f).byte x = L.byte x := rfl
@[simp] theorem Lane.onEth_get (L : Lane) (f : EthSt → EthSt) (g : Fld) (j i : Nat) : (L.onEth f).get g j i = L.get g j i := rfl

end Sys2Proof.Machine
end

