-- ==== Sys2Proof/Laws/Registers.lean ====
section
/-!
SUPPORT. Laws/Registers.lean: registers, their fields and memory: what a read gives after a write, and the canonical form that every
operation on them keeps.
-/

namespace Sys2Proof

/-! ### Fields of a number -/

/-- A replaced field stands between the parts above and below it. -/
theorem putBits_eq (x lo w v : Nat) :
    putBits x lo w v = x / 2 ^ (lo + w) * 2 ^ (lo + w) + v % 2 ^ w * 2 ^ lo + x % 2 ^ lo := by
  unfold putBits bits
  rw [Nat.shiftRight_eq_div_pow, Nat.pow_add, ← Nat.div_div_eq_div_mul]
  have h1 := Nat.div_add_mod x (2 ^ lo)
  have h2 := Nat.div_add_mod (x / 2 ^ lo) (2 ^ w)
  generalize x / 2 ^ lo = q at *
  generalize x % 2 ^ lo = r at *
  generalize q / 2 ^ w = t at *
  generalize q % 2 ^ w = u at *
  generalize 2 ^ lo = P at *
  generalize 2 ^ w = Q at *
  have h3 : x = t * (P * Q) + u * P + r := by rw [← h1, ← h2]; ring
  rw [h3]; omega

/-- The field just replaced reads as what was put there. -/
theorem bits_putBits_same (x lo w v : Nat) : bits (putBits x lo w v) lo w = v % 2 ^ w := by
  rw [putBits_eq, bits, Nat.shiftRight_eq_div_pow]
  have hr : x % 2 ^ lo < 2 ^ lo := Nat.mod_lt _ (by positivity)
  have h : (x / 2 ^ (lo + w) * 2 ^ (lo + w) + v % 2 ^ w * 2 ^ lo + x % 2 ^ lo) / 2 ^ lo =
      x / 2 ^ (lo + w) * 2 ^ w + v % 2 ^ w := by
    rw [Nat.pow_add, show x / (2 ^ lo * 2 ^ w) * (2 ^ lo * 2 ^ w) + v % 2 ^ w * 2 ^ lo + x % 2 ^ lo =
      x % 2 ^ lo + 2 ^ lo * (x / (2 ^ lo * 2 ^ w) * 2 ^ w + v % 2 ^ w) by ring, Nat.add_mul_div_left _ _ (by positivity),
      Nat.div_eq_of_lt hr, Nat.zero_add]
  rw [h, Nat.mul_comm, Nat.mul_add_mod, Nat.mod_mod]

/-- The part above a replaced field stays. -/
theorem putBits_div (x lo w v : Nat) : putBits x lo w v / 2 ^ (lo + w) = x / 2 ^ (lo + w) := by
  rw [putBits_eq]
  have hr : x % 2 ^ lo < 2 ^ lo := Nat.mod_lt _ (by positivity)
  have hv : v % 2 ^ w < 2 ^ w := Nat.mod_lt _ (by positivity)
  have h : v % 2 ^ w * 2 ^ lo + x % 2 ^ lo < 2 ^ (lo + w) := by
    rw [Nat.pow_add]
    calc v % 2 ^ w * 2 ^ lo + x % 2 ^ lo < v % 2 ^ w * 2 ^ lo + 2 ^ lo := by omega
      _ = (v % 2 ^ w + 1) * 2 ^ lo := by ring
      _ ≤ 2 ^ w * 2 ^ lo := Nat.mul_le_mul_right _ hv
      _ = 2 ^ lo * 2 ^ w := Nat.mul_comm _ _
  rw [Nat.add_assoc, Nat.mul_comm, Nat.mul_add_div (by positivity), Nat.div_eq_of_lt h, Nat.add_zero]

/-- The part below a replaced field stays. -/
theorem putBits_mod (x lo w v : Nat) : putBits x lo w v % 2 ^ lo = x % 2 ^ lo := by
  rw [putBits_eq, Nat.pow_add, show x / (2 ^ lo * 2 ^ w) * (2 ^ lo * 2 ^ w) + v % 2 ^ w * 2 ^ lo + x % 2 ^ lo =
    x % 2 ^ lo + 2 ^ lo * (x / (2 ^ lo * 2 ^ w) * 2 ^ w + v % 2 ^ w) by ring, Nat.add_mul_mod_self_left, Nat.mod_mod]

/-- A field beside the one replaced reads as before. -/
theorem bits_putBits_disjoint (x lo w v lo2 w2 : Nat) (h : lo2 + w2 ≤ lo ∨ lo + w ≤ lo2) :
    bits (putBits x lo w v) lo2 w2 = bits x lo2 w2 := by
  unfold bits
  rw [Nat.shiftRight_eq_div_pow, Nat.shiftRight_eq_div_pow]
  rcases h with h | h
  · obtain ⟨d, rfl⟩ := Nat.exists_eq_add_of_le h
    have key (y : Nat) : y / 2 ^ lo2 % 2 ^ w2 = y % 2 ^ (lo2 + w2 + d) / 2 ^ lo2 % 2 ^ w2 := by
      rw [Nat.pow_add, Nat.pow_add, Nat.mul_assoc, Nat.mod_mul_right_div_self, Nat.mod_mul_right_mod]
    rw [key (putBits x _ w v), putBits_mod, ← key]
  · obtain ⟨d, rfl⟩ := Nat.exists_eq_add_of_le h
    rw [Nat.pow_add 2 (lo + w) d, ← Nat.div_div_eq_div_mul, putBits_div, Nat.div_div_eq_div_mul]

/-- A field put into a number of 32 bits leaves one of 32 bits. -/
theorem putBits_lt (x lo w v : Nat) (hx : x < 2 ^ 32) (h : lo + w ≤ 32) : putBits x lo w v < 2 ^ 32 := by
  obtain ⟨d, hd⟩ := Nat.exists_eq_add_of_le h
  have h1 : x / 2 ^ (lo + w) < 2 ^ d := by
    rw [Nat.div_lt_iff_lt_mul (by positivity), ← Nat.pow_add, Nat.add_comm d, ← hd]; exact hx
  have h2 := putBits_div x lo w v
  have h3 : putBits x lo w v < 2 ^ d * 2 ^ (lo + w) := by
    rw [← Nat.div_lt_iff_lt_mul (by positivity), h2]; exact h1
  rwa [← Nat.pow_add, Nat.add_comm d, ← hd] at h3

end Sys2Proof

namespace Sys2Proof.Machine

/-! ### Registers -/

/-- A register reads as written. -/
@[simp] theorem Lane.rd_wr_same (L : Lane) (a : Nat) (v : Word) : (L.wr a v).rd a = v := by simp [Lane.rd, Lane.wr]

/-- A write leaves every other register alone. -/
theorem Lane.rd_wr_ne (L : Lane) {a b : Nat} (v : Word) (h : b ≠ a) : (L.wr a v).rd b = L.rd b := by
  simp [Lane.rd, Lane.wr, sget_sput_ne _ _ h]

theorem Lane.reg_lt (L : Lane) (r : Reg) (n i : Nat) : L.reg r n i < 2 ^ 32 := (L.rd (r.addr n i)).isLt

@[simp] theorem Lane.reg_setReg_same (L : Lane) (r : Reg) (v n i : Nat) : (L.setReg r v n i).reg r n i = v % 2 ^ 32 := by
  simp [Lane.reg, Lane.setReg]

/-- A register set leaves every register at another address alone. -/
theorem Lane.rd_setReg_ne (L : Lane) (r : Reg) (v n i : Nat) {a : Nat} (h : a ≠ r.addr n i) : (L.setReg r v n i).rd a = L.rd a :=
  L.rd_wr_ne _ h

/-- A field put leaves every register at another address alone. -/
theorem Lane.rd_put_ne (L : Lane) (f : Fld) (v n i : Nat) {a : Nat} (h : a ≠ f.reg.addr n i) : (L.put f v n i).rd a = L.rd a :=
  L.rd_wr_ne _ h

/-- The register of a field put. -/
theorem Lane.reg_put_same (L : Lane) (f : Fld) (v n i : Nat) (h : f.lo + f.w ≤ 32) :
    (L.put f v n i).reg f.reg n i = putBits (L.reg f.reg n i) f.lo f.w v := by
  rw [Lane.put, Lane.reg_setReg_same, Nat.mod_eq_of_lt (putBits_lt _ _ _ _ (L.reg_lt _ _ _) h)]

/-- A field reads as put, cut to its width. -/
theorem Lane.get_put_same (L : Lane) (f : Fld) (v n i : Nat) (h : f.lo + f.w ≤ 32) : (L.put f v n i).get f n i = v % 2 ^ f.w := by
  rw [Lane.get, Lane.reg_put_same _ _ _ _ _ h, bits_putBits_same]

/-- Another field of the same register reads as before. -/
theorem Lane.get_put_disjoint (L : Lane) (f g : Fld) (v n i : Nat) (hr : g.reg = f.reg) (h : f.lo + f.w ≤ 32)
    (hd : g.lo + g.w ≤ f.lo ∨ f.lo + f.w ≤ g.lo) : (L.put f v n i).get g n i = L.get g n i := by
  rw [Lane.get, hr, Lane.reg_put_same _ _ _ _ _ h, bits_putBits_disjoint _ _ _ _ _ _ hd, Lane.get, hr]

/-- A field of a register at another address reads as before. -/
theorem Lane.get_put_ne (L : Lane) (f g : Fld) (v n i m j : Nat) (h : g.reg.addr m j ≠ f.reg.addr n i) :
    (L.put f v n i).get g m j = L.get g m j := by
  simp [Lane.get, Lane.reg, Lane.rd_put_ne _ _ _ _ _ h]

/-! ### Memory -/

@[simp] theorem Lane.byte_setByte_same (L : Lane) (a : Nat) (v : Byte) : (L.setByte a v).byte a = v := by simp [Lane.byte, Lane.setByte]

/-- A byte written leaves every other byte alone. -/
theorem Lane.byte_setByte_ne (L : Lane) {a b : Nat} (v : Byte) (h : b ≠ a) : (L.setByte a v).byte b = L.byte b := by
  simp [Lane.byte, Lane.setByte, sget_sput_ne _ _ h]

/-- A word written leaves every byte outside its four alone. -/
theorem Lane.byte_setMemWord_ne (L : Lane) {a b : Nat} (v : Word) (h : b < a ∨ a + 4 ≤ b) : (L.setMemWord a v).byte b = L.byte b := by
  simp only [Lane.setMemWord]
  rw [Lane.byte_setByte_ne _ _ (by omega), Lane.byte_setByte_ne _ _ (by omega), Lane.byte_setByte_ne _ _ (by omega),
    Lane.byte_setByte_ne _ _ (by omega)]

/-- A word of memory reads as written, the byte at the lowest address in bits [7:0] (log 6). -/
@[simp] theorem Lane.memWord_setMemWord_same (L : Lane) (a : Nat) (v : Word) : (L.setMemWord a v).memWord a = v := by
  have h0 : (L.setMemWord a v).byte a = BitVec.ofNat 8 v.toNat := by
    simp only [Lane.setMemWord]
    rw [Lane.byte_setByte_ne _ _ (by omega), Lane.byte_setByte_ne _ _ (by omega), Lane.byte_setByte_ne _ _ (by omega),
      Lane.byte_setByte_same]
  have h1 : (L.setMemWord a v).byte (a + 1) = BitVec.ofNat 8 (v.toNat / 0x100) := by
    simp only [Lane.setMemWord]
    rw [Lane.byte_setByte_ne _ _ (by omega), Lane.byte_setByte_ne _ _ (by omega), Lane.byte_setByte_same]
  have h2 : (L.setMemWord a v).byte (a + 2) = BitVec.ofNat 8 (v.toNat / 0x10000) := by
    simp only [Lane.setMemWord]
    rw [Lane.byte_setByte_ne _ _ (by omega), Lane.byte_setByte_same]
  have h3 : (L.setMemWord a v).byte (a + 3) = BitVec.ofNat 8 (v.toNat / 0x1000000) := by
    simp only [Lane.setMemWord]; rw [Lane.byte_setByte_same]
  have hv := v.isLt
  apply BitVec.eq_of_toNat_eq
  simp only [Lane.memWord, h0, h1, h2, h3, BitVec.toNat_ofNat]
  omega

/-- Bytes written leave every byte outside them alone. -/
theorem Lane.byte_setMemBytes_ne (bs : List Byte) : ∀ (L : Lane) {a b : Nat}, b < a ∨ a + bs.length ≤ b →
    (L.setMemBytes a bs).byte b = L.byte b := by
  induction bs with
  | nil => intro L a b _; rfl
  | cons x t ih =>
    intro L a b h
    simp only [List.length_cons] at h
    rw [Lane.setMemBytes, ih _ (by omega), Lane.byte_setByte_ne _ _ (by omega)]

/-- Bytes of memory read as written. -/
theorem Lane.memBytes_setMemBytes (bs : List Byte) : ∀ (L : Lane) (a : Nat), (L.setMemBytes a bs).memBytes a bs.length = bs := by
  induction bs with
  | nil => intro L a; rfl
  | cons x t ih =>
    intro L a
    simp only [List.length_cons, Lane.memBytes, Lane.setMemBytes]
    rw [ih, Lane.byte_setMemBytes_ne t _ (by omega), Lane.byte_setByte_same]

/-! ### The canonical form -/

theorem Lane.wr_storesWf (L : Lane) (a : Nat) (v : Word) (h : L.storesWf = true) : (L.wr a v).storesWf = true := by
  simp only [Lane.storesWf, Lane.regsWf, Memory.wf, Lane.wr, Bool.and_eq_true] at *
  exact ⟨swf_sput (resetWord L.strap) a v L.regs h.1, h.2⟩

theorem Lane.put_storesWf (L : Lane) (f : Fld) (v n i : Nat) (h : L.storesWf = true) : (L.put f v n i).storesWf = true :=
  L.wr_storesWf _ _ h

theorem Lane.setByte_storesWf (L : Lane) (a : Nat) (v : Byte) (h : L.storesWf = true) : (L.setByte a v).storesWf = true := by
  simp only [Lane.storesWf, Lane.regsWf, Memory.wf, Lane.setByte, Bool.and_eq_true] at *
  exact ⟨h.1, swf_sput (fun _ => 0) a v L.mem h.2⟩

theorem Lane.setMemWord_storesWf (L : Lane) (a : Nat) (v : Word) (h : L.storesWf = true) : (L.setMemWord a v).storesWf = true :=
  Lane.setByte_storesWf _ _ _ (Lane.setByte_storesWf _ _ _ (Lane.setByte_storesWf _ _ _ (Lane.setByte_storesWf _ _ _ h)))

theorem Lane.setMemBytes_storesWf (bs : List Byte) : ∀ (L : Lane) (a : Nat), L.storesWf = true → (L.setMemBytes a bs).storesWf = true := by
  induction bs with
  | nil => intro L a h; exact h
  | cons x t ih => intro L a h; exact ih _ _ (L.setByte_storesWf a x h)

theorem Lane.wipe_storesWf (L : Lane) (lo hi : Nat) (h : L.storesWf = true) : (L.wipe lo hi).storesWf = true := by
  have g (t : TestSt) : ({ L with mem := L.mem.filter (fun c => decide (c.1 < lo ∨ hi ≤ c.1)), test := t } : Lane).storesWf = true := by
    simp only [Lane.storesWf, Lane.regsWf, Memory.wf, Bool.and_eq_true] at *
    exact ⟨h.1, swf_filter (fun _ => 0) _ L.mem h.2⟩
  unfold Lane.wipe
  dsimp only
  split
  · exact g _
  · exact Lane.put_storesWf _ _ _ _ _ (g _)

theorem Lane.setReg_storesWf (L : Lane) (r : Reg) (v n i : Nat) (h : L.storesWf = true) : (L.setReg r v n i).storesWf = true :=
  L.wr_storesWf _ _ h

theorem Lane.raise_storesWf (L : Lane) (r : Reg) (m n i : Nat) (h : L.storesWf = true) : (L.raise r m n i).storesWf = true :=
  L.setReg_storesWf r _ n i h

theorem Lane.unpoisonIn_storesWf (L : Lane) (lo hi : Nat) (h : L.storesWf = true) : (L.unpoisonIn lo hi).storesWf = true := by
  unfold Lane.unpoisonIn
  split
  · exact Lane.put_storesWf _ _ _ _ _ h
  · exact h

/-! ### Flags that an event sets -/

/-- A flag set by an event reads as set, and no other register changes. -/
theorem Lane.raise_rd_ne (L : Lane) {r : Reg} {m n i a : Nat} (h : a ≠ r.addr n i) : (L.raise r m n i).rd a = L.rd a :=
  L.rd_wr_ne _ h

@[simp] theorem Lane.raise_byte (L : Lane) (r : Reg) (m n i a : Nat) : (L.raise r m n i).byte a = L.byte a := rfl
@[simp] theorem Lane.raise_strap (L : Lane) (r : Reg) (m n i : Nat) : (L.raise r m n i).strap = L.strap := rfl
@[simp] theorem Lane.raise_mem (L : Lane) (r : Reg) (m n i : Nat) : (L.raise r m n i).mem = L.mem := rfl
@[simp] theorem Lane.raise_now (L : Lane) (r : Reg) (m n i : Nat) : (L.raise r m n i).now = L.now := rfl

/-! ### Frames -/

theorem Lane.only_refl (L : Lane) (K : List Nat) : L.only K L := ⟨rfl, fun _ => rfl, fun _ _ => rfl⟩

theorem Lane.only_mono {L M : Lane} {K J : List Nat} (h : L.only K M) (hs : ∀ a, a ∈ K → a ∈ J) : L.only J M :=
  ⟨h.1, h.2.1, fun a ha => h.2.2 a fun hk => ha (hs a hk)⟩

theorem Lane.only_trans {L M N : Lane} {K : List Nat} (h : L.only K M) (g : M.only K N) : L.only K N :=
  ⟨g.1.trans h.1, fun a => (g.2.1 a).trans (h.2.1 a), fun a ha => (g.2.2 a ha).trans (h.2.2 a ha)⟩

theorem Lane.only_wr (L : Lane) (K : List Nat) {a : Nat} (v : Word) (h : a ∈ K) : L.only K (L.wr a v) :=
  ⟨rfl, fun _ => rfl, fun _ hb => L.rd_wr_ne v (fun e => hb (e ▸ h))⟩

theorem Lane.only_put (L : Lane) (K : List Nat) (f : Fld) (v n i : Nat) (h : f.reg.addr n i ∈ K) : L.only K (L.put f v n i) :=
  L.only_wr K _ h

theorem Lane.only_setReg (L : Lane) (K : List Nat) (r : Reg) (v n i : Nat) (h : r.addr n i ∈ K) : L.only K (L.setReg r v n i) :=
  L.only_wr K _ h

theorem Lane.only_raise (L : Lane) (K : List Nat) (r : Reg) (m n i : Nat) (h : r.addr n i ∈ K) : L.only K (L.raise r m n i) :=
  ⟨rfl, fun _ => rfl, fun _ hb => L.raise_rd_ne (fun e => hb (e ▸ h))⟩

end Sys2Proof.Machine
end

