-- ==== Sys2Proof/Laws/Events.lean ====
section
/-!
SUPPORT. Laws/Events.lean: all that recording an event does: which registers it may change (R55, R518, R521), what it shows, and what
it leaves alone.
-/

namespace Sys2Proof.Machine

/-! ### The Almanac's side -/

/-- A lane that differs from this one in its event record alone. -/
def Lane.almOnly (L K : Lane) : Prop := ∃ a, K = { L with alm := a }

theorem Lane.almOnly_refl (L : Lane) : L.almOnly L := ⟨L.alm, rfl⟩

theorem Lane.almOnly_trans {L K M : Lane} (h : L.almOnly K) (g : K.almOnly M) : L.almOnly M := by
  obtain ⟨a, rfl⟩ := h; obtain ⟨b, rfl⟩ := g; exact ⟨b, rfl⟩

theorem Lane.almOnly_set {L K : Lane} (h : L.almOnly K) (a : AlmSt) : L.almOnly { K with alm := a } :=
  Lane.almOnly_trans h ⟨a, rfl⟩

theorem Lane.almOnly_put {L K : Lane} (h : L.almOnly K) (off n v : Nat) : L.almOnly (K.almPut off n v) :=
  Lane.almOnly_trans h ⟨_, rfl⟩

theorem Lane.almOnly_inc {L K : Lane} (h : L.almOnly K) (off n d : Nat) : L.almOnly (K.almInc off n d) :=
  Lane.almOnly_trans h ⟨_, rfl⟩

theorem Lane.almOnly_ite {L K M : Lane} {c : Prop} [Decidable c] (h : L.almOnly K) (g : L.almOnly M) :
    L.almOnly (if c then K else M) := by split <;> assumption

theorem Lane.almApply_eq (L : Lane) (o : AlmOcc) : L.almOnly (L.almApply o) := by
  have h := Lane.almOnly_inc L.almOnly_refl (0x0C0 + 6 * o.blk + 2 * (o.cls - 1)) 2 1
  unfold Lane.almApply
  exact Lane.almOnly_ite (Lane.almOnly_set (Lane.almOnly_inc (Lane.almOnly_put (Lane.almOnly_put (Lane.almOnly_put (Lane.almOnly_put
    (Lane.almOnly_put (Lane.almOnly_put (Lane.almOnly_put (Lane.almOnly_put h ..) ..) ..) ..) ..) ..) ..) ..) ..) _) h

theorem almFold_eq (q : List AlmOcc) : ∀ L : Lane, L.almOnly (q.foldl (fun K o => K.almApply o) L) := by
  induction q with
  | nil => exact Lane.almOnly_refl
  | cons o t ih => intro L; exact Lane.almOnly_trans (L.almApply_eq o) (ih _)

/-- Occurrences that waited reach the record; nothing else of the lane changes. -/
theorem Lane.almDrain_eq (L : Lane) : L.almOnly L.almDrain :=
  Lane.almOnly_ite (Lane.almOnly_set (almFold_eq L.alm.queue L) _) L.almOnly_refl

/-- An occurrence that reaches ALM changes the record and, where it is dropped, ALM_STAT (R521). -/
theorem Lane.almTake_eq (L : Lane) (o : AlmOcc) :
    ∃ a w, L.almTake o = { L with alm := a } ∨ L.almTake o = ({ L with alm := a }).wr (R.ALM_STAT.addr 0 0) w := by
  obtain ⟨a, ha⟩ := L.almDrain_eq
  unfold Lane.almTake
  generalize L.almDrain = K at ha ⊢
  subst ha
  dsimp only
  split
  · obtain ⟨b, hb⟩ := ({ L with alm := a } : Lane).almApply_eq o
    exact ⟨b, 0, .inl hb⟩
  · split
    · exact ⟨_, 0, .inl rfl⟩
    · exact ⟨a, _, .inr rfl⟩

/-! ### The history queue -/

/-- A lane that differs from this one in registers, the queue's time words and marks, the events of the cycle and the Almanac alone. -/
def Lane.noteOnly (L K : Lane) : Prop :=
  ∃ r t q c a, K = { L with regs := r, evqTime := t, evqRead := q, cyc := c, alm := a }

theorem Lane.noteOnly_refl (L : Lane) : L.noteOnly L := ⟨_, _, _, _, _, rfl⟩

theorem Lane.noteOnly_trans {L K M : Lane} (h : L.noteOnly K) (g : K.noteOnly M) : L.noteOnly M := by
  obtain ⟨r, t, q, c, a, rfl⟩ := h; obtain ⟨r2, t2, q2, c2, a2, rfl⟩ := g; exact ⟨_, _, _, _, _, rfl⟩

theorem Lane.noteOnly_wr {L K : Lane} (h : L.noteOnly K) (a : Nat) (w : Word) : L.noteOnly (K.wr a w) :=
  Lane.noteOnly_trans h ⟨_, _, _, _, _, rfl⟩

theorem Lane.noteOnly_setReg {L K : Lane} (h : L.noteOnly K) (r : Reg) (v n k : Nat) : L.noteOnly (K.setReg r v n k) :=
  Lane.noteOnly_wr h _ _

theorem Lane.noteOnly_estat {L K : Lane} (h : L.noteOnly K) (b : Blk) (n m : Nat) : L.noteOnly (K.estat b n m) := by
  obtain ⟨r, t, q, c, a, rfl⟩ := h
  exact ⟨_, _, _, _, _, rfl⟩

theorem Lane.estat_rd (L : Lane) {b : Blk} {n x : Nat} (m : Nat) (h : x ≠ (H.ESTAT b).addr n 0) : (L.estat b n m).rd x = L.rd x :=
  L.rd_wr_ne _ h

theorem Lane.noteOnly_mark {L K : Lane} (h : L.noteOnly K) (q : List Nat) : L.noteOnly { K with evqRead := q } :=
  Lane.noteOnly_trans h ⟨_, _, _, _, _, rfl⟩

theorem Lane.noteOnly_time {L K : Lane} (h : L.noteOnly K) (t : List (Nat × Word)) : L.noteOnly { K with evqTime := t } :=
  Lane.noteOnly_trans h ⟨_, _, _, _, _, rfl⟩

theorem Lane.noteOnly_alm {L K K' : Lane} (h : L.noteOnly K) (g : ∃ a, K' = { K with alm := a }) : L.noteOnly K' := by
  obtain ⟨a, rfl⟩ := g; exact Lane.noteOnly_trans h ⟨_, _, _, _, _, rfl⟩

theorem Lane.noteOnly_cyc {L K : Lane} (h : L.noteOnly K) (c : CycSt) : L.noteOnly { K with cyc := c } :=
  Lane.noteOnly_trans h ⟨_, _, _, _, _, rfl⟩

theorem Lane.noteOnly_ite {L K M : Lane} {c : Prop} [Decidable c] (h : L.noteOnly K) (g : L.noteOnly M) :
    L.noteOnly (if c then K else M) := by split <;> assumption

theorem Lane.noteOnly_shift {L K : Lane} (h : L.noteOnly K) (b : Blk) (n k : Nat) : L.noteOnly (K.evqShift b n k) :=
  Lane.noteOnly_mark (Lane.noteOnly_time (Lane.noteOnly_wr h _ _) _) _

theorem Lane.noteOnly_see {L K : Lane} (h : L.noteOnly K) (e : Event) (n : Nat) : L.noteOnly (K.almSee e n) := by
  unfold Lane.almSee
  refine Lane.noteOnly_ite h (Lane.noteOnly_ite (Lane.noteOnly_alm h ⟨_, rfl⟩) ?_)
  obtain ⟨a, w, g | g⟩ := K.almTake_eq _ <;> rw [g]
  · exact Lane.noteOnly_alm h ⟨_, rfl⟩
  · exact Lane.noteOnly_wr (Lane.noteOnly_alm h ⟨_, rfl⟩) _ _

/-- An occurrence entered into a queue changes registers, the time words and the marks (R55). -/
theorem Lane.evqEnter_eq (L : Lane) (b : Blk) (n code cls : Nat) : L.noteOnly (L.evqEnter b n code cls) := by
  have h := L.noteOnly_refl
  have g := Lane.noteOnly_shift (Lane.noteOnly_shift (Lane.noteOnly_shift h b n 2) b n 1) b n 0
  unfold Lane.evqEnter
  dsimp only
  refine Lane.noteOnly_time ?_ _
  refine Lane.noteOnly_ite (Lane.noteOnly_setReg h _ _ _ _) ?_
  generalize ((L.evqShift b n 2).evqShift b n 1).evqShift b n 0 = S at g ⊢
  have k := Lane.noteOnly_mark (Lane.noteOnly_setReg g (H.EVQ b) (evqWord code cls 1) n 0)
    ((S.setReg (H.EVQ b) (evqWord code cls 1) n 0).evqRead.filter (fun a => a != evqA b n 0))
  exact Lane.noteOnly_ite (Lane.noteOnly_estat k _ _ _) k

/-- Recording an event changes registers, the time words and marks of the queue, the events of the cycle and the Almanac, and nothing
else. -/
theorem Lane.note_eq (L : Lane) (e : Event) (n : Nat) : L.noteOnly (L.note e n) := by
  unfold Lane.note
  exact Lane.noteOnly_see (Lane.noteOnly_cyc (Lane.noteOnly_estat (L.evqEnter_eq e.blk n e.code e.cls.num) _ _ _) _) e n

theorem Lane.rd_ite {K M : Lane} {c : Prop} [Decidable c] {x : Nat} {w : Word} (h : K.rd x = w) (g : M.rd x = w) :
    (if c then K else M).rd x = w := by split <;> assumption

/-- The registers that entering an occurrence into a queue may change (R55). -/
theorem Lane.evqEnter_rd (L : Lane) {b : Blk} {n code cls x : Nat} (h0 : x ≠ (H.ESTAT b).addr n 0) (h1 : x ≠ evqA b n 0)
    (h2 : x ≠ evqA b n 1) (h3 : x ≠ evqA b n 2) (h4 : x ≠ evqA b n 3) : (L.evqEnter b n code cls).rd x = L.rd x := by
  have time (M : Lane) (i k : Nat) (t : Word) : (M.setEvqTime b i k t).rd x = M.rd x := rfl
  have sh (M : Lane) (k : Nat) (hk : x ≠ evqA b n (k + 1)) : (M.evqShift b n k).rd x = M.rd x := M.rd_wr_ne _ hk
  have set0 (M : Lane) (v : Nat) : (M.setReg (H.EVQ b) v n 0).rd x = M.rd x := M.rd_setReg_ne _ _ _ _ h1
  have key (M : Lane) (v : Nat) (q : List Nat) : ({ M.setReg (H.EVQ b) v n 0 with evqRead := q } : Lane).rd x = M.rd x := set0 M v
  unfold Lane.evqEnter
  refine (time _ _ _ _).trans (Lane.rd_ite (set0 _ _) ?_)
  have g (q : List Nat) : ({ (((L.evqShift b n 2).evqShift b n 1).evqShift b n 0).setReg (H.EVQ b) (evqWord code cls 1) n 0
      with evqRead := q } : Lane).rd x = L.rd x := (key _ _ q).trans ((sh _ 0 h2).trans ((sh _ 1 h3).trans (sh _ 2 h4)))
  exact Lane.rd_ite ((Lane.estat_rd _ _ h0).trans (g _)) (g _)

/-- The registers that recording an event may change (R55, R521). -/
theorem Lane.note_rd (L : Lane) (e : Event) (n : Nat) {x : Nat} (hx : x ∉ evRegs e.blk n) : (L.note e n).rd x = L.rd x := by
  simp only [evRegs, List.mem_cons, List.not_mem_nil, or_false, not_or] at hx
  obtain ⟨h0, h1, h2, h3, h4, h5⟩ := hx
  have see (M : Lane) : (M.almSee e n).rd x = M.rd x := by
    simp only [Lane.almSee]; split
    · rfl
    · split
      · rfl
      · obtain ⟨a, w, h | h⟩ := M.almTake_eq _
        · rw [h]; rfl
        · rw [h, Lane.rd_wr_ne _ _ h5]; rfl
  exact (see _).trans ((Lane.estat_rd _ _ h0).trans (L.evqEnter_rd h0 h1 h2 h3 h4))

/-- Recording an event leaves memory, the socket and every register outside the queue's alone. -/
theorem Lane.note_only (L : Lane) (e : Event) (n : Nat) : L.only (evRegs e.blk n) (L.note e n) := by
  refine ⟨?_, ?_, fun x hx => L.note_rd e n hx⟩
  · obtain ⟨r, t, q, c, a, h⟩ := L.note_eq e n; rw [h]
  · intro x; obtain ⟨r, t, q, c, a, h⟩ := L.note_eq e n; rw [h]; rfl

@[simp] theorem Lane.note_strap (L : Lane) (e : Event) (n : Nat) : (L.note e n).strap = L.strap := by
  obtain ⟨r, t, q, c, a, h⟩ := L.note_eq e n; rw [h]
@[simp] theorem Lane.note_byte (L : Lane) (e : Event) (n x : Nat) : (L.note e n).byte x = L.byte x := (L.note_only e n).2.1 x
@[simp] theorem Lane.note_tokens (L : Lane) (e : Event) (n : Nat) : (L.note e n).tokens = L.tokens := by
  obtain ⟨r, t, q, c, a, h⟩ := L.note_eq e n; rw [h]
@[simp] theorem Lane.note_now (L : Lane) (e : Event) (n : Nat) : (L.note e n).now = L.now := by
  obtain ⟨r, t, q, c, a, h⟩ := L.note_eq e n; rw [h]
@[simp] theorem Lane.note_mt (L : Lane) (e : Event) (n : Nat) : (L.note e n).mt = L.mt := by
  obtain ⟨r, t, q, c, a, h⟩ := L.note_eq e n; rw [h]
@[simp] theorem Lane.note_claimed (L : Lane) (e : Event) (n : Nat) : (L.note e n).claimed = L.claimed := by
  obtain ⟨r, t, q, c, a, h⟩ := L.note_eq e n; rw [h]
@[simp] theorem Lane.note_ip (L : Lane) (e : Event) (n : Nat) : (L.note e n).ip = L.ip := by
  obtain ⟨r, t, q, c, a, h⟩ := L.note_eq e n; rw [h]
@[simp] theorem Lane.note_claimData (L : Lane) (e : Event) (n : Nat) : (L.note e n).claimData = L.claimData := by
  obtain ⟨r, t, q, c, a, h⟩ := L.note_eq e n; rw [h]
@[simp] theorem Lane.note_isolated (L : Lane) (e : Event) (n : Nat) : (L.note e n).isolated = L.isolated := by
  obtain ⟨r, t, q, c, a, h⟩ := L.note_eq e n; rw [h]
@[simp] theorem Lane.note_rst (L : Lane) (e : Event) (n : Nat) : (L.note e n).rst = L.rst := by
  obtain ⟨r, t, q, c, a, h⟩ := L.note_eq e n; rw [h]
@[simp] theorem Lane.note_link (L : Lane) (e : Event) (n : Nat) : (L.note e n).link = L.link := by
  obtain ⟨r, t, q, c, a, h⟩ := L.note_eq e n; rw [h]
@[simp] theorem Lane.note_clk (L : Lane) (e : Event) (n : Nat) : (L.note e n).clk = L.clk := by
  obtain ⟨r, t, q, c, a, h⟩ := L.note_eq e n; rw [h]
@[simp] theorem Lane.note_ozl (L : Lane) (e : Event) (n : Nat) : (L.note e n).ozl = L.ozl := by
  obtain ⟨r, t, q, c, a, h⟩ := L.note_eq e n; rw [h]
@[simp] theorem Lane.note_sdl (L : Lane) (e : Event) (n : Nat) : (L.note e n).sdl = L.sdl := by
  obtain ⟨r, t, q, c, a, h⟩ := L.note_eq e n; rw [h]
@[simp] theorem Lane.note_trio (L : Lane) (e : Event) (n : Nat) : (L.note e n).trio = L.trio := by
  obtain ⟨r, t, q, c, a, h⟩ := L.note_eq e n; rw [h]
@[simp] theorem Lane.note_cmdq (L : Lane) (e : Event) (n : Nat) : (L.note e n).cmdq = L.cmdq := by
  obtain ⟨r, t, q, c, a, h⟩ := L.note_eq e n; rw [h]
@[simp] theorem Lane.note_gate (L : Lane) (e : Event) (n : Nat) : (L.note e n).gate = L.gate := by
  obtain ⟨r, t, q, c, a, h⟩ := L.note_eq e n; rw [h]
@[simp] theorem Lane.note_loops (L : Lane) (e : Event) (n : Nat) : (L.note e n).loops = L.loops := by
  obtain ⟨r, t, q, c, a, h⟩ := L.note_eq e n; rw [h]
@[simp] theorem Lane.note_drive (L : Lane) (e : Event) (n : Nat) : (L.note e n).drive = L.drive := by
  obtain ⟨r, t, q, c, a, h⟩ := L.note_eq e n; rw [h]
@[simp] theorem Lane.note_cnvs (L : Lane) (e : Event) (n : Nat) : (L.note e n).cnvs = L.cnvs := by
  obtain ⟨r, t, q, c, a, h⟩ := L.note_eq e n; rw [h]
@[simp] theorem Lane.note_icv (L : Lane) (e : Event) (n : Nat) : (L.note e n).icv = L.icv := by
  obtain ⟨r, t, q, c, a, h⟩ := L.note_eq e n; rw [h]
@[simp] theorem Lane.note_pos (L : Lane) (e : Event) (n : Nat) : (L.note e n).pos = L.pos := by
  obtain ⟨r, t, q, c, a, h⟩ := L.note_eq e n; rw [h]
@[simp] theorem Lane.note_saf (L : Lane) (e : Event) (n : Nat) : (L.note e n).saf = L.saf := by
  obtain ⟨r, t, q, c, a, h⟩ := L.note_eq e n; rw [h]
@[simp] theorem Lane.note_hsf (L : Lane) (e : Event) (n : Nat) : (L.note e n).hsf = L.hsf := by
  obtain ⟨r, t, q, c, a, h⟩ := L.note_eq e n; rw [h]
@[simp] theorem Lane.note_pwr (L : Lane) (e : Event) (n : Nat) : (L.note e n).pwr = L.pwr := by
  obtain ⟨r, t, q, c, a, h⟩ := L.note_eq e n; rw [h]
@[simp] theorem Lane.note_test (L : Lane) (e : Event) (n : Nat) : (L.note e n).test = L.test := by
  obtain ⟨r, t, q, c, a, h⟩ := L.note_eq e n; rw [h]
@[simp] theorem Lane.note_can (L : Lane) (e : Event) (n : Nat) : (L.note e n).can = L.can := by
  obtain ⟨r, t, q, c, a, h⟩ := L.note_eq e n; rw [h]
@[simp] theorem Lane.note_flx (L : Lane) (e : Event) (n : Nat) : (L.note e n).flx = L.flx := by
  obtain ⟨r, t, q, c, a, h⟩ := L.note_eq e n; rw [h]
@[simp] theorem Lane.note_eth (L : Lane) (e : Event) (n : Nat) : (L.note e n).eth = L.eth := by
  obtain ⟨r, t, q, c, a, h⟩ := L.note_eq e n; rw [h]
@[simp] theorem Lane.note_twp (L : Lane) (e : Event) (n : Nat) : (L.note e n).twp = L.twp := by
  obtain ⟨r, t, q, c, a, h⟩ := L.note_eq e n; rw [h]
@[simp] theorem Lane.note_hk (L : Lane) (e : Event) (n : Nat) : (L.note e n).hk = L.hk := by
  obtain ⟨r, t, q, c, a, h⟩ := L.note_eq e n; rw [h]
@[simp] theorem Lane.note_ths (L : Lane) (e : Event) (n : Nat) : (L.note e n).ths = L.ths := by
  obtain ⟨r, t, q, c, a, h⟩ := L.note_eq e n; rw [h]

/-! ### The stores keep their form -/

theorem Lane.storesWf_of_eq {L K : Lane} (h : L.storesWf = true) (hs : K.strap = L.strap) (hr : K.regs = L.regs) (hm : K.mem = L.mem) :
    K.storesWf = true := by
  simpa only [Lane.storesWf, Lane.regsWf, hs, hr, hm] using h

theorem Lane.evqShift_storesWf (L : Lane) (b : Blk) (n k : Nat) (h : L.storesWf = true) : (L.evqShift b n k).storesWf = true :=
  L.wr_storesWf _ _ h

theorem Lane.setEvqTime_storesWf (L : Lane) (b : Blk) (n k : Nat) (t : Word) (h : L.storesWf = true) :
    (L.setEvqTime b n k t).storesWf = true := h

theorem Lane.evqRead_storesWf (L : Lane) (q : List Nat) (h : L.storesWf = true) : ({ L with evqRead := q } : Lane).storesWf = true := h

theorem Lane.cyc_storesWf (L : Lane) (c : CycSt) (h : L.storesWf = true) : ({ L with cyc := c } : Lane).storesWf = true := h

theorem Lane.estat_storesWf (L : Lane) (b : Blk) (n m : Nat) (h : L.storesWf = true) : (L.estat b n m).storesWf = true :=
  L.raise_storesWf _ _ _ _ h

theorem Lane.evqEnter_storesWf (L : Lane) (b : Blk) (n code cls : Nat) (h : L.storesWf = true) : (L.evqEnter b n code cls).storesWf = true := by
  have g := Lane.evqShift_storesWf _ b n 0 (Lane.evqShift_storesWf _ b n 1 (L.evqShift_storesWf b n 2 h))
  unfold Lane.evqEnter
  dsimp only
  generalize ((L.evqShift b n 2).evqShift b n 1).evqShift b n 0 = S at g ⊢
  refine Lane.setEvqTime_storesWf _ _ _ _ _ ?_
  split
  · exact L.setReg_storesWf _ _ _ _ h
  · have k := Lane.evqRead_storesWf _ ((S.setReg (H.EVQ b) (evqWord code cls 1) n 0).evqRead.filter (fun a => a != evqA b n 0))
      (S.setReg_storesWf (H.EVQ b) (evqWord code cls 1) n 0 g)
    split
    · exact Lane.estat_storesWf _ _ _ _ k
    · exact k

/-- Recording an event keeps the stores in canonical form. -/
theorem Lane.note_storesWf (L : Lane) (e : Event) (n : Nat) (h : L.storesWf = true) : (L.note e n).storesWf = true := by
  have see (M : Lane) (hM : M.storesWf = true) : (M.almSee e n).storesWf = true := by
    unfold Lane.almSee
    dsimp only
    split
    · exact hM
    · split
      · exact Lane.storesWf_of_eq hM rfl rfl rfl
      · obtain ⟨a, w, k | k⟩ := M.almTake_eq { blk := almIdx e.blk, inst := n, code := e.code, cls := e.cls.num, t := M.stamp e.blk }
        · rw [k]; exact Lane.storesWf_of_eq hM rfl rfl rfl
        · rw [k]; exact Lane.wr_storesWf _ _ _ (Lane.storesWf_of_eq (L := M) hM rfl rfl rfl)
  unfold Lane.note
  exact see _ (Lane.cyc_storesWf _ _ (Lane.estat_storesWf _ _ _ _ (L.evqEnter_storesWf e.blk n e.code e.cls.num h)))

end Sys2Proof.Machine
end

