-- ==== Sys2Proof/WellFormed.lean ====
section
/-!
DEFINITION. WellFormed.lean: the commands whose operands lie in the ranges the spec gives them. A command outside them is none the block
can receive; exec is total on it all the same.
-/

namespace Sys2Proof

/-- A block instance exists (Table 1.10). -/
def instOk (b : Blk) (n : Nat) : Bool := decide (n < b.count)

/-- An element exists (Table 11.1). -/
def Elem.ok : Elem → Bool
  | .cnv n => decide (n < 8)
  | .loop n => decide (n < 4)
  | .drv n => decide (n < 4)
  | .pos c => decide (c < 10)
  | .can n => decide (n < 4)
  | .eth p => decide (p < 3)
  | .sram k => decide (k < 8)
  | .core c => decide (c < 3)
  | .icv | .flx | .svc => true

/-- A CAN frame's data length suits its format (R406). -/
def CanFrame.ok (f : CanFrame) : Bool :=
  if f.fmt.val = 0 then decide (f.data.length ≤ 8)
  else if f.fmt.val = 1 then decide (f.data.length ≤ 64) && !f.rtr
  else decide (1 ≤ f.data.length) && decide (f.data.length ≤ 2048) && !f.rtr

/-- Stream words lie at word addresses; a forwarded packet has 16 to 64 bytes (Table 4.1). -/
def StreamItem.ok : StreamItem → Bool
  | .mirror ws | .graftImage ws | .replay ws => ws.all (fun w => w.1 % 4 == 0)
  | .packet bs => decide (16 ≤ bs.length) && decide (bs.length ≤ 64)
  | .sensor _ _ | .digests _ _ | .lcConfirm _ | .challenge _ | .bulk | .moduleTime _ => true
  | .relayed _ item => item.ok

/-- A protected word is stored as 20 symbols (R396). -/
def ScrubFind.ok (f : ScrubFind) : Bool := f.stored.length == 20

/-- What a fallow test found names an element of Table 4.10. -/
def FallowFind.ok : FallowFind → Bool
  | .elem e => e.ok
  | .bridge _ _ | .switch _ | .chopper => true

/-- What a decoder test found names an SRAM bank where it names an element (R404). -/
def DecMem.ok : DecMem → Bool
  | .elem (.sram k) => decide (k < 8)
  | .elem _ => false
  | .trioTcm | .nvm | .svcTcm => true

/-- The command's operands lie in their ranges. -/
def Instr.wellFormed : Instr → Bool
  | .srst _ b n => instOk b n
  | .evqClr _ b n => instOk b n
  | .evqRead _ _ b n _ => instOk b n
  | .lbTokenExpire _ b n => instOk b n
  | .complete _ _ src => decide (1 ≤ src) && decide (src < 128)
  | .vcell _ cell _ _ => cell.length == 72
  | .vote _ _ _ cell => cell.length == 80
  | .relayVote _ _ _ cell => cell.length == 80
  | .heart _ _ _ cell => cell.length == 80
  | .stream _ _ _ cell item => cell.length == 80 && item.ok
  | .xinhAssert l p => decide (l ≠ p)
  | .xinhReadback l p _ => decide (l ≠ p)
  | .mirrorStale l p => decide (l ≠ p)
  | .kernelRelease _ _ app => decide (app.length ≤ 8)
  | .fallowStepEnd _ _ found _ => found.all FallowFind.ok
  | .extHeart _ _ cell h => cell.length == 80 && h.traj.length == 4
  | .post _ _ _ slot => decide (slot < 64)
  | .allocLapse _ _ slot => decide (slot < 64)
  | .calDone _ _ m => m.weights.length == 12
  | .icvWindowEnd _ counts _ => counts.length == 8
  | .refcheckEnd _ meas => meas.length == 8
  | .conversionEnd _ _ code => decide (-4096 ≤ code) && decide (code < 4096)
  | .scrubPassEnd _ found => found.all ScrubFind.ok
  | .decoderTest _ (some m) => m.ok
  | .canRxFrame _ _ f _ => f.ok
  | .canWakeFrame _ _ (.data f) => f.ok && f.fmt.val == 0
  | .flxRxFrame _ f => decide (f.payload.length ≤ 254) && f.payload.length % 2 == 0
  | .twpTxreq _ _ p => decide (p.length ≤ 1024)
  | .bemfSample _ mv => mv.length == 4
  | _ => true

end Sys2Proof
end

