-- ==== Sys2Proof/Tests/Slice0.lean ====
section
/-!
SUPPORT. Tests: for every statement about commands a state in which each of them happens (witness_…), the checks of WellFormed, and the spec's
worked examples.
-/

namespace Sys2Proof.Tests

open Sys2Proof Sys2Proof.Machine

set_option Elab.async false

/-- Registers of the small lane below that do not stand at reset: the domains ON, three lanes ACTIVE in one membership, debug open. -/
def lightRegs : List (Nat × Word) :=
  (1073741968, 0x20) :: (List.range 20).flatMap (fun d => [(1073807636 + 16 * d, if d ∈ ([7, 8, 9, 12, 13, 14, 15, 16, 17, 18, 19] : List Nat) then 0x3e else 0xbe), (1073807640 + 16 * d, 0x100001)]) ++
  [(1074069572, 1), (1074069576, 1), (1074069584, 0x73111), (1074298952, 0x2001388), (1074659340, 4), (1074659360, 0x10602),
   (1074659396, 0x40)]

/-- A lane that runs, in the membership of three, with nothing under way. -/
def light : Lane :=
  { Lane.fresh .a with
    regs := lightRegs
    evqTime := [(1074659376, 1200000000)]
    now := 2000000000, mt := 1200000000
    rst := { (Lane.fresh .a).rst with sources := [], phase := .running, phaseAt := 2000000000, powered := true }
    link := { (Lane.fresh .a).link with trained := true, hedgeMt := 1200000000 }
    clk := { (Lane.fresh .a).clk with xtalOk := true, pllOn := true }
    trio := { (Lane.fresh .a).trio with injAt := 2000000000, svcInjAt := 2000000000, pmp := (Lane.fresh .a).lockedPmp, appRuns := true }
    alm := { (Lane.fresh .a).alm with
      rcd := [(0, 1), (2, 0x4c), (3, 0x41), (12, 1), (16, 1), (18, 1), (21, 1), (278, 1), (437, 0x8c), (438, 0x86), (439, 0x47),
        (440, 0xe), (442, 2), (443, 2)]
      loaded := true, newest := some (14, 0, 2, 2000000000) } }

/-- References of a vote cell. -/
def refs0 : Refs := ⟨3, 0, 7, 0xF, 0, 0, 0, [0x1000, 0x2000, 0xF000, 0], [0x100, 0x200, 0x300, 0x400]⟩

/-- A command in the queue. -/
def cmd (op act : Nat) (params : List Byte) (phase : CmdPhase := .admitted) : TCmd :=
  { op := op, tag := 0x10, net := false, rreq := true, urgent := false, act := act, lanes := 7, params := params, issue := 6000000,
    due := 120001, ring := 0, phase := phase, startAt := 1900000000, limited := 0, planned := 1000000000 }

/-- The lane with loop engine 0 about to execute an instruction of program 2. -/
def looping (i : MIns) : Lane :=
  { light.setMemWord (pmemA 0 16) (encodeM i) with
    loops := light.loops.set 0 { act := some {
      prog := 2, pc := 16, acc := [1073741824, -1073741824, 12345678, -7], x := [0, 5, 4095, 3, 7, 0, 1, 2], k := 300, stack := [64]
      startAt := 0, cycles := 10 } } }

/-- A condition of a Miokin statement on the lane and the activation. -/
def acts (p : Lane → LoopAct → Bool) (L : Lane) : Bool :=
  match (L.eng 0).act with
  | some A => p L A
  | none => false

/-- The command's condition holds in the lane. -/
def happens (p : Instr × Lane) : Bool := p.1.ready p.2

theorem witness_HedgeLinkTransfers : ([
  (.legPeriodic .a, light),
  (.timeSend .a, light),
  (.time .a 0x4002 0x1234, { light with link := { light.link with timePend := true } }),
  (.timeLost .a, light),
  (.irqRefresh .a, light),
  (.leg .a 0x10 0x10 0x10 0x10, light),
  (.legTimeout .a, light.wr 0x50000050 0x100),
  (.vref .a 0x10 0x10 0x10,
    { light with sdl := { light.sdl with vrefOut := some { level := 3, share := 0, member := 7, ena := 0xf, asc := 0, leave := 0, join := 0, tq := [0x1010, 0x2000, 0xf000, 0], fx := [0x100, 0x200, 0x300, 0x400] } } }),
  (.vcell .a ([1, 2, 3, 4]) 0x10 0x10, light),
  (.irq .a 0x10 0x10, light)] : List (Instr × Lane)).all happens = true := by decide +kernel

theorem witness_HedgeLinkIntegrity : ([
  (.time .a 0x4002 0x1234, { light with link := { light.link with timePend := true } }),
  (.leg .a 0x10 0x10 0x10 0x10, light),
  (.vref .a 0x10 0x10 0x10,
    { light with sdl := { light.sdl with vrefOut := some { level := 3, share := 0, member := 7, ena := 0xf, asc := 0, leave := 0, join := 0, tq := [0x1010, 0x2000, 0xf000, 0], fx := [0x100, 0x200, 0x300, 0x400] } } }),
  (.vcell .a ([1, 2, 3, 4]) 0x10 0x10, light),
  (.irq .a 0x10 0x10, light),
  (.wr .a 0x10 0x1234 0x10 0x10, light),
  (.rd .a 0x10 0x10 0x10, light),
  (.rsp .a 0x10 0x10,
    { light with link := { light.link with accesses := [{ write := false, off := 68, data := 0x1234, tries := 0, sentAt := 1000 }], rsp := some (0, 0x55) } }),
  (.rspTimeout .a,
    { light with link := { light.link with accesses := [{ write := true, off := 68, data := 0x1234, tries := 0, sentAt := 1000 }, { write := false, off := 68, data := 0x1234, tries := 1, sentAt := 1000 }] } })] : List (Instr × Lane)).all happens = true := by decide +kernel

theorem witness_RegisterWriteReaches : ([
  (.registerWrite .a .svc 5 5, light)] : List (Instr × Lane)).all happens = true := by decide +kernel

theorem witness_ClocksAndModuleTime : ([
  (.clkmon .a, light),
  (.aonXtalLost .a, light),
  (.aonXtalClear .a 0x400A0040, { light with clk := { light.clk with aonLostAt := some 0 } }),
  (.clkLevelReq .a 1, light),
  (.clkSwitch .a, { light with clk := { light.clk with phase := .raiseSettle 1 1000 } }),
  (.criticalPathMargin .a, light),
  (.timeSteer .a, { light with ozl := { light.ozl with peerMt := [some (1200000100, 1999999990), some (1200000100, 1999999990)] } }),
  (.timeDrift .a, { light with clk := { light.clk with driftSince := some 0 } }),
  (.solo .a, light),
  (.clkMtLoRead .a .trioM, light)] : List (Instr × Lane)).all happens = true := by decide +kernel

theorem witness_ResetsAndTheirOrder : ([
  (.hedgePowerOn .a, { light with rst := { light.rst with vbatOk := false } }),
  (.vbatLow .a, light),
  (.laneReset .a .pin, light),
  (.sysRstreq .a 0x1234, light),
  (.xtalLoss .a, light),
  (.pllUnlock .a, light),
  (.resetRelease .a .por, { light with rst := { light.rst with sources := [.por], phase := .held } }),
  (.crystalValid .a, { light with rst := { light.rst with phase := .wiping, phaseAt := 5 } }),
  (.hedgeLinkTrained .a true, { light with link := { light.link with trained := false } }),
  (.kernelRelease .a true ([]), { light with rst := { light.rst with phase := .linked, phaseAt := 5 } }),
  (.srst .a .clk 0, light),
  (.lstopClr .a, light)] : List (Instr × Lane)).all happens = true := by decide +kernel

theorem witness_EventsAndInterrupts : ([
  (.evqClr .a .clk 1, light),
  (.evqRead .a .trioM .clk 1 0, light),
  (.lbTokenExpire .a .clk 1, light),
  (.claim .a 0 none, light),
  (.complete .a 0 1, light),
  (.mirrorStale .a .b, light)] : List (Instr × Lane)).all happens = true := by decide +kernel

theorem witness_OztinLinks : ([
  (.linkCycle .a 0, light),
  (.vote .a 0 0 ([1, 2, 3, 4]), light),
  (.relayVote .a 0 0 ([1, 2, 3, 4]), light),
  (.heart .a 0 0 ([1, 2, 3, 4]), light),
  (.stream .a 0 0 ([1, 2, 3, 4]) .bulk, light),
  (.linkHeartLoss .a 0, light),
  (.linkRetrain .a 0, light.wr 0x40050044 0x0),
  (.linkTrained .a 0 1, { light with ozl := { light.ozl with training := [true, true, true], trainFails := [2, 1, 2] } }),
  (.cellBuild .a, { light with mt := 0x4786af8c }),
  (.cellSend .a,
    { light with mt := 0x4786aff0, ozl := { light.ozl with cellOut := some { vseq := 0x1d4c1, origin := 0, lstate := 1, shadow := false, late := false, novote := false, refs := { level := 3, share := 0, member := 7, ena := 0xf, asc := 0, leave := 0, join := 0, tq := [0x1000, 0x2000, 0xf000, 0], fx := [0x100, 0x200, 0x300, 0x400] }, score := 0x64, resolve := 0, cdig := 0, sdig := 0, e2e := 0xdc02b22b } } })] : List (Instr × Lane)).all happens = true := by decide +kernel

theorem witness_VotedValues : ([
  (.saddleDecision .a, { light with mt := 0x47868C00 + 9570 })] : List (Instr × Lane)).all happens = true := by decide +kernel

theorem witness_FrozenAndMinorityVotes : ([
  (.saddleDecision .a, { light with mt := 0x47868C00 + 9570 })] : List (Instr × Lane)).all happens = true := by decide +kernel

theorem witness_CrossInhibit : ([
  (.xinhAssert .a .b, { light with sdl := { light.sdl with xDecide := [some 1000, some 1000] } }),
  (.xinhStopped .a, { light with sdl := { light.sdl with bothSince := some 1000 } }),
  (.xinhRelease .a, light),
  (.xinhSingle .a, { light with sdl := { light.sdl with oneSince := some 1000 } }),
  (.xinhReadback .a .b true, light),
  (.sdlXinhStoppedClear .a, light)] : List (Instr × Lane)).all happens = true := by decide +kernel

theorem witness_BoundaryTakesEffect : ([
  (.voteBoundary .a, light),
  (.mark10ms .a [⟨0, .x 5, 7⟩, ⟨1, .csr 0x300, 0x88⟩], { light with ozl := { light.ozl with lastBound := some 1200000000 } })] : List (Instr × Lane)).all happens = true := by decide +kernel

theorem witness_LanesFormAndGraft : ([
  (.graftHoldoff .a, light.wr 0x40050050 0x73113),
  (.graftPhaseDone .a,
    { (light.wr 0x40050054 0x1).wr 0x40050050 0x73110 with ozl := { light.ozl with graftAt := 1999999000, shadowOk := 1000, refPass := 255, odiagDone := 0xf } }),
  (.graftPhaseTimeout .a, (light.wr 0x40050054 0x1).wr 0x40050050 0x63110),
  (.formation .a,
    { light.wr 0x40050050 0x73110 with ozl := { light.ozl with graftAt := 1999990000, shadowOk := 1000000, readyAt := some 1000, refPass := 255, odiagDone := 0xf } }),
  (.formAlone .a, { light.wr 0x40050050 0x3000 with ozl := { light.ozl with readyAt := some 5 } })] : List (Instr × Lane)).all happens = true := by decide +kernel

theorem witness_FallowAndPair : ([
  (.voteBoundary .a, light),
  (.fallowOverdue .a, light.wr 0x40050058 0x82),
  (.fallowStepEnd .a 0x1234 ([]) true, { light.wr 0x40050050 0x73112 with test := { light.test with fallowAt := some 0, fstep := 1 } }),
  (.fallowRestart .a, { light.wr 0x40050050 0x73112 with test := { light.test with fallowAt := some 0, fstep := 5 } }),
  (.fallowAbort .a, light.wr 0x40050050 0x73112),
  (.extLinkCycle .a, (light.put F.OZL_PAIR_PAIRED 1).put F.OZL_LINK_UP 1 0 2),
  (.extHeart .a 2 (List.replicate 80 0) ⟨true, 2, false, 55, 1200000000, [1, 2, 3, 4], []⟩,
    (light.put F.OZL_PAIR_PAIRED 1).put F.OZL_LINK_UP 1 0 2),
  (.pairSwitchover .a, (light.put F.OZL_PAIR_PAIRED 1).put F.OZL_PAIR_ROLE 0)] : List (Instr × Lane)).all happens = true := by decide +kernel

theorem witness_TrioComparators : ([
  (.coreMismatch .a .haltAck .haltAck .haltAck, light),
  (.handOverPoint .a, { light with trio := { light.trio with drain := some (.resync 1 false) } }),
  (.resyncDone .a, { light.wr 0x40030040 0x71 with trio := { light.trio with copying := some (.resync 2 false), copyAt := 1000 } }),
  (.cstComplete .a 1, light.wr 0x40030040 0x76),
  (.cstTimeout .a 0, light.wr 0x40030040 0x76)] : List (Instr × Lane)).all happens = true := by decide +kernel

theorem witness_TrioInjectionsAndRequests : ([
  (.injection .a (.named 0), { light with trio := { light.trio with halted := 3, injDefer := some 1000 } }),
  (.svcInjection .a true, { light with trio := { light.trio with svcInjAt := 5 } }),
  (.svcMismatch .a, light),
  (.svcRestartDone .a, light.put F.TRIO_SVC_RESTART 1),
  (.trioSplitReq .a, light),
  (.trioSplitAll .a, light),
  (.trioSplitJoin .a, light),
  (.debugHalt .a 0, light),
  (.debugResume .a, { light with trio := { light.trio with halted := 3, injDefer := some 1000 } }),
  (.svcHalt .a 0, light),
  (.svcResume .a, light)] : List (Instr × Lane)).all happens = true := by decide +kernel

theorem witness_RingCommands : ([
  (.alloc .a .trioM 0, light),
  (.post .a .trioM 0 1, light),
  (.allocLapse .a 0 0,
    { light with cmdq := { light.cmdq with slots := [{ ring := 0, slot := 0, posted := false, svc := false, since := 5 }, { ring := 0, slot := 1, posted := false, svc := false, since := 1999999999 }, { ring := 1, slot := 1, posted := true, svc := false, since := 5 }, { ring := 3, slot := 63, posted := false, svc := false, since := 5 }] } }),
  (.cplHeadWrite .a 1, light),
  (.replyPost .a, { light with cmdq := { light.cmdq with waiting := [(cmd 2 0 [], 0, [1, 2, 3], true), (cmd 3 0 [], 0, [], false)] } })] : List (Instr × Lane)).all happens = true := by decide +kernel

theorem witness_IntakeAndReplies : ([
  (.intake .a (.ring 0 []), light),
  (.deferredStart .a 0x10 false, { light with cmdq := { light.cmdq with queue := [cmd 16 1 [0x88, 0x13, 0, 0, 0xe8, 3, 0, 0] .deferred] } }),
  (.deferTimeout .a 0x10 false, { light with cmdq := { light.cmdq with queue := [{ cmd 16 1 [] .deferred with startAt := 5 }] } }),
  (.commandArrival .a 0x10 false 5 true, { light with cmdq := { light.cmdq with queue := [cmd 16 1 [] .running] } }),
  (.commandTimeout .a 0x10 false, { light with cmdq := { light.cmdq with queue := [cmd 16 1 [0x88, 0x13, 0, 0, 0xe8, 3, 0, 0] .running] } })] : List (Instr × Lane)).all happens = true := by decide +kernel

theorem witness_TrellisReads : ([
  (.ident .a 0x10 false, { light with cmdq := { light.cmdq with queue := [cmd 1 0 (List.replicate 4 0)] } }),
  (.status .a 0x10 false, { light with cmdq := { light.cmdq with queue := [cmd 2 0 []] } }),
  (.sleepQuery .a 0x10 false, { light with cmdq := { light.cmdq with queue := [cmd 66 0 []] } }),
  (.cfgRead .a 0x10 false, { light with cmdq := { light.cmdq with queue := [cmd 81 0 [1, 0, 0, 0, 0x44, 0, 5, 0x40]] } }),
  (.sealRead .a 0x10 false, { light with cmdq := { light.cmdq with queue := [cmd 83 0 []] } }),
  (.almRead .a 0x10 false, { light with cmdq := { light.cmdq with queue := [cmd 96 0 [0, 0, 0, 0, 0x30, 0, 0, 0]] } }),
  (.laneStatus .a 0x10 false, { light with cmdq := { light.cmdq with queue := [cmd 112 0 []] } })] : List (Instr × Lane)).all happens = true := by decide +kernel

theorem witness_MotionAndEnvelope : ([
  (.steerAngle .a 0x10 false, { light with cmdq := { light.cmdq with queue := [cmd 16 1 [0x88, 0x13, 0, 0, 0xe8, 3, 0, 0]] } }),
  (.steerTorque .a 0x10 false, { light with cmdq := { light.cmdq with queue := [cmd 17 1 [0x88, 0x13, 0, 0, 0xe8, 3, 0, 0]] } }),
  (.clampForce .a 0x10 false, { light with cmdq := { light.cmdq with queue := [cmd 18 2 [0xf4, 1, 0, 0, 0x64, 0, 0, 0]] } }),
  (.clampRelease .a 0x10 false, { light with cmdq := { light.cmdq with queue := [cmd 19 2 [0x64, 0, 0, 0]] } }),
  (.hold .a 0x10 false, { light with cmdq := { light.cmdq with queue := [cmd 20 1 (List.replicate 4 0)] } })] : List (Instr × Lane)).all happens = true := by decide +kernel

theorem witness_BridgeAndServiceCommands : ([
  (.bridgeEnable .a 0x10 false, { light with cmdq := { light.cmdq with queue := [cmd 21 1 []] } }),
  (.bridgeDisable .a 0x10 false, { light with cmdq := { light.cmdq with queue := [cmd 22 1 [0x64, 0, 0, 0]] } }),
  (.ascBrake .a 0x10 false, { light with cmdq := { light.cmdq with queue := [cmd 23 1 []] } }),
  (.cnvSelfcal .a 0x10 false, { light with cmdq := { light.cmdq with queue := [cmd 32 0 [0xff, 0, 0, 0]] } }),
  (.angleZero .a 0x10 false, { light with cmdq := { light.cmdq with queue := [cmd 33 1 (List.replicate 4 0)] } }),
  (.caliperKisspoint .a 0x10 false, { light with cmdq := { light.cmdq with queue := [cmd 34 2 (List.replicate 8 0)] } }),
  (.encoderAlign .a 0x10 false, { light with cmdq := { light.cmdq with queue := [cmd 35 1 (List.replicate 4 0)] } }),
  (.offstateDiag .a 0x10 false 200000000, { light with cmdq := { light.cmdq with queue := [cmd 50 0 []] } }),
  (.icvRefcheck .a 0x10 false, { light with cmdq := { light.cmdq with queue := [cmd 51 0 [0x88, 0x13, 0, 0, 0xff, 0, 0, 0]] } })] : List (Instr × Lane)).all happens = true := by decide +kernel

theorem witness_LaneOpcodes : ([
  (.weedSlice .a 0x10 false, { light with cmdq := { light.cmdq with queue := [cmd 48 0 (List.replicate 4 0)] } }),
  (.fallowRequest .a 0x10 false, { light with cmdq := { light.cmdq with queue := [cmd 49 0 []] } }),
  (.graft .a 0x10 false, { light with cmdq := { light.cmdq with queue := [cmd 113 0 []] } }),
  (.prune .a 0x10 false, { light with cmdq := { light.cmdq with queue := [cmd 114 0 (List.replicate 4 0)] } }),
  (.trioSplit .a 0x10 false, { light with cmdq := { light.cmdq with queue := [cmd 115 0 [0, 0, 0, 0, 0x40, 0, 0, 0]] } }),
  (.trioJoin .a 0x10 false, { light with cmdq := { light.cmdq with queue := [cmd 116 0 []] } })] : List (Instr × Lane)).all happens = true := by decide +kernel

theorem witness_SystemOpcodes : ([
  (.lifecycle .a 0x10 false, { light with cmdq := { light.cmdq with queue := [cmd 3 0 [1, 0, 0, 0, 0, 0, 0, 0, 0, 0, 0, 0]] } }),
  (.powerVote .a 0x10 false, { light with cmdq := { light.cmdq with queue := [cmd 64 0 [0, 1, 0, 0]] } }),
  (.powerUnvote .a 0x10 false, { light with cmdq := { light.cmdq with queue := [cmd 65 0 [8, 0, 0, 0]] } }),
  (.cfgWrite .a 0x10 false, { light with cmdq := { light.cmdq with queue := [cmd 80 0 [1, 0, 0, 0, 0x44, 0, 5, 0x40, 5, 0, 0, 0]] } }),
  (.sealConfirm .a 0x10 false, { light with cmdq := { light.cmdq with queue := [cmd 82 0 [0x34, 0x12, 0, 0]] } }),
  (.almMark .a 0x10 false,
    { light with cmdq := { light.cmdq with queue := [cmd 97 0 [1, 0, 0, 0, 0x41, 0x41, 0x41, 0x41, 0x41, 0x41, 0x41, 0x41, 0x41, 0x41, 0x41, 0x41, 0x41, 0x41, 0x41, 0x41]] } })] : List (Instr × Lane)).all happens = true := by decide +kernel

theorem witness_LoopCommands : ([
  (.overrun .a 0,
    { light with mt := 0x4786b11c, loops := light.loops.set 0 { act := some { prog := 2, pc := 16, acc := [1073741824, -1073741824, 12345678, -7], x := [0, 5, 4095, 3, 7, 0, 1, 2], k := 300, stack := [64], z := false, n := false, clp := false, sat := false, staged := List.replicate 8 none, rep := 0, startAt := 0, cycles := 10 }, snaps := List.replicate 8 { fb := 100, spr := 5, spt := 0, vrefT := 0, vrefF := 0, alt := 0, xfer := false, degr := false }, vrefT := [1, 2, 3, 4] } }),
  (.resel .a 0 0, light),
  (.wbufWrite .a 0 0x40 0x10, light),
  (.wbufDrain .a 0, { light with loops := light.loops.set 0 { wbuf := [(5, 0x4d), (6, 0xffff)] } })] : List (Instr × Lane)).all happens = true := by decide +kernel

theorem witness_MiokinMemoryForms : ([
  (.ld .a 0 1 (⟨0, 0, 5⟩), looping (.ld 1 (⟨0, 0, 5⟩))),
  (.st .a 0 1 (⟨0, 0, 5⟩), looping (.st 1 (⟨0, 0, 5⟩))),
  (.add .a 0 1 (⟨0, 0, 5⟩), looping (.add 1 (⟨0, 0, 5⟩))),
  (.sub .a 0 1 (⟨0, 0, 5⟩), looping (.sub 1 (⟨0, 0, 5⟩))),
  (.ldk .a 0 (⟨0, 0, 5⟩), looping (.ldk (⟨0, 0, 5⟩))),
  (.mpy .a 0 1 (⟨0, 0, 5⟩), looping (.mpy 1 (⟨0, 0, 5⟩))),
  (.mac .a 0 1 (⟨0, 0, 5⟩), looping (.mac 1 (⟨0, 0, 5⟩))),
  (.msu .a 0 1 (⟨0, 0, 5⟩), looping (.msu 1 (⟨0, 0, 5⟩))),
  (.cmp .a 0 1 (⟨0, 0, 5⟩), looping (.cmp 1 (⟨0, 0, 5⟩))),
  (.lim .a 0 1 (⟨0, 0, 5⟩), looping (.lim 1 (⟨0, 0, 5⟩))),
  (.ldx .a 0 1 0x40, looping (.ldx 1 0x40)),
  (.stx .a 0 1 0x40, looping (.stx 1 0x40)),
  (.lut .a 0 1 (⟨0, 0, 5⟩), looping (.lut 1 (⟨0, 0, 5⟩))),
  (.divA .a 0 1 (⟨0, 0, 5⟩), looping (.div 1 (⟨0, 0, 5⟩)))] : List (Instr × Lane)).all happens = true := by decide +kernel

theorem witness_MiokinRegisterForms : ([
  (.mpyp .a 0 1 (⟨0, 0⟩) (⟨0, 0⟩), looping (.mpyp 1 (⟨0, 0⟩) (⟨0, 0⟩))),
  (.macp .a 0 1 (⟨0, 0⟩) (⟨0, 0⟩), looping (.macp 1 (⟨0, 0⟩) (⟨0, 0⟩))),
  (.msbp .a 0 1 (⟨0, 0⟩) (⟨0, 0⟩), looping (.msbp 1 (⟨0, 0⟩) (⟨0, 0⟩))),
  (.movA .a 0 1 1, looping (.mov 1 1)),
  (.adda .a 0 1 1, looping (.adda 1 1)),
  (.suba .a 0 1 1, looping (.suba 1 1)),
  (.neg .a 0 1, looping (.neg 1)),
  (.absA .a 0 1, looping (.abs 1)),
  (.clr .a 0 1, looping (.clr 1)),
  (.sha .a 0 1 3, looping (.sha 1 3)),
  (.sat .a 0 1, looping (.sat 1)),
  (.maxA .a 0 1 1, looping (.max 1 1)),
  (.minA .a 0 1 1, looping (.min 1 1)),
  (.mulk .a 0 1 1, looping (.mulk 1 1)),
  (.cmpa .a 0 1 1, looping (.cmpa 1 1)),
  (.movk .a 0 1, looping (.movk 1)),
  (.ldi .a 0 1 0x10, looping (.ldi 1 0x10)),
  (.addi .a 0 1 0x10, looping (.addi 1 0x10)),
  (.lki .a 0 0x10, looping (.lki 0x10)),
  (.lxi .a 0 1 0x40, looping (.lxi 1 0x40)),
  (.axi .a 0 1 0x40, looping (.axi 1 0x40)),
  (.nop .a 0, looping .nop)] : List (Instr × Lane)).all happens = true := by decide +kernel

theorem witness_MiokinControlAndFaults : ([
  (.rep .a 0 3, looping (.rep 3)),
  (.get .a 0 1 1, looping (.get 1 1)),
  (.outP .a 0 1 1 true, looping (.out 1 1 true)),
  (.jmp .a 0 1 0x40, looping (.jmp 1 0x40)),
  (.call .a 0 0x40, looping (.call 0x40)),
  (.ret .a 0, looping .ret),
  (.endAct .a 0, looping .endI)] : List (Instr × Lane)).all happens = true := by decide +kernel

theorem witness_DriveFramesAndDecisions : ([
  (.driveFrame .a 0 0x40 0x40 0x40 0x40 0x40, light.wr 0x400a0044 0x1),
  (.decision .a 0, light)] : List (Instr × Lane)).all happens = true := by decide +kernel

theorem witness_DriveStates : ([
  (.sampleLost .a 0,
    { light.wr 0x400a0044 0x1 with drive := { light.drive with eng := light.drive.eng.set 0 { lateRun := 4, isumOver := 8, magRun := 32, climSince := some 1000, sixRun := 40, sdiffRun := 16, sensorOk := true, confLow := 60000, wc := 40000000, rearmAt := some 1000, noregAt := 5 } } }),
  (.magnetised .a 0,
    { light.wr 0x400a0044 0x2 with drive := { light.drive with eng := light.drive.eng.set 0 { lateRun := 4, isumOver := 8, magRun := 32, climSince := some 1000, sixRun := 40, sdiffRun := 16, sensorOk := true, confLow := 60000, wc := 40000000, rearmAt := some 1000, noregAt := 5 } } }),
  (.sixEnter .a 0,
    { light.wr 0x400a0044 0x1 with drive := { light.drive with eng := light.drive.eng.set 0 { sixRun := 32, wc := 4000000 }, eff := [(1074397248, 0xffffffff), (1074397304, 0x10001), (1074413632, 0xffffffff), (1074413688, 0x10001), (1074430016, 0xffffffff), (1074430072, 0x10001), (1074446400, 0xffffffff), (1074446456, 0x10001)] } }),
  (.catchFail .a 0, light.wr 0x400a0044 0x6),
  (.prechargeTimeout .a 0, light.wr 0x400a0044 0x1),
  (.magnetiseTimeout .a 0, light.wr 0x400a0044 0x2),
  (.rampdownTimeout .a 0, light.wr 0x400a0044 0x4)] : List (Instr × Lane)).all happens = true := by decide +kernel

theorem witness_AngleCatchAndReports : ([
  (.isum .a 0,
    { light with drive := { light.drive with eng := light.drive.eng.set 0 { lateRun := 4, isumOver := 8, magRun := 32, climSince := some 1000, sixRun := 40, sdiffRun := 16, sensorOk := true, confLow := 60000, wc := 40000000, rearmAt := some 1000, noregAt := 5 } } }),
  (.takeover .a 0, ((light.put F.DRV_STATE_STATE 4).put F.DRV_STATE_ASRC 0).put F.DRV_SPD_CONF 0x7FFF),
  (.rearm .a 0, light),
  (.rearmRefused .a 0,
    { light with drive := { light.drive with eng := light.drive.eng.set 0 { lateRun := 4, isumOver := 8, magRun := 32, climSince := some 1000, sixRun := 40, sdiffRun := 16, sensorOk := true, confLow := 60000, wc := 40000000, rearmAt := some 1000, noregAt := 5 } } }),
  (.obsLost .a 0,
    { light.wr 0x400a0044 0x1 with drive := { light.drive with eng := light.drive.eng.set 0 { lateRun := 4, isumOver := 8, magRun := 32, climSince := some 1000, sixRun := 40, sdiffRun := 16, sensorOk := true, confLow := 60000, wc := 40000000, rearmAt := some 1000, noregAt := 5 } } }),
  (.catchWindow .a 0, light.wr 0x400a0044 0x2),
  (.catchDone .a 0,
    { light.wr 0x400a0044 0x2 with drive := { light.drive with eng := light.drive.eng.set 0 { frame := some { due := 1200000000, iu := 100, iv := -50, iw := none, vm := 1000000, cover := false }, psiDue := false, caught := some { theta := 5, w := 9, endAt := 3 } } } }),
  (.noregClear .a 0, light.wr 0x400a0044 0x50),
  (.clim .a 0,
    { light with drive := { light.drive with eng := light.drive.eng.set 0 { lateRun := 4, isumOver := 8, magRun := 32, climSince := some 1000, sixRun := 40, sdiffRun := 16, sensorOk := true, confLow := 60000, wc := 40000000, rearmAt := some 1000, noregAt := 5 } } }),
  (.swcntRead .a .trioM 0, light)] : List (Instr × Lane)).all happens = true := by decide +kernel

theorem witness_GateAndMotorSupplies : ([
  (.uvloHs .a 0, light),
  (.uvloLs .a 0, light),
  (.uvloCp .a, light),
  (.uvloRelease .a 0, light),
  (.grdy .a 0, { (light.put F.GD_UVLO_HS 0).put F.GD_UVLO_LS 0 with gate := { light.gate with precharge := [true, false, false, false] } }),
  (.offCmd .a 0, { light with gate := { light.gate with offCmd := List.replicate 4 false } }),
  (.chargePumpStop .a, { light with gate := { light.gate with cpRun := true } }),
  (.ov1 .a, light),
  (.vmBelowOv1 .a, light),
  (.brkOff .a, light),
  (.chopFault .a, light.wr 0x50001044 0x30),
  (.ov2 .a, light),
  (.hwAsc .a, light),
  (.regenerationChange .a 0 true, light),
  (.hwAscEnd .a, { light with gate := { light.gate with hwAsc := true } }),
  (.chopStuck .a, light)] : List (Instr × Lane)).all happens = true := by decide +kernel

theorem witness_GateLatchesAndLaneStops : ([
  (.legTimeout .a, light.wr 0x50000050 0x100),
  (.clkmon .a, light),
  (.deadTime .a, light),
  (.dtFuse .a .svc 0x7D0F 1, light),
  (.dtFuseDone .a 1, { light with gate := { light.gate with dtFuse := some (2, 1) } }),
  (.ilkRelease .a 1, light),
  (.scDetect .a 0 true,
    { light with gate := { light.gate with on := List.replicate 24 true, edgeAt := List.replicate 12 5, kept := List.replicate 12 1 } }),
  (.scTrip .a 0, { light with gate := { light.gate with scFirst := [some (1, 5), some (4, 5), some (6, 5), some (11, 5)] } }),
  (.scHoldEnd .a 0, { light with gate := { light.gate with scOff := List.replicate 12 true, holdEnd := List.replicate 4 (some 5) } }),
  (.latchRelease .a 1, light),
  (.ov3 .a, light),
  (.ov3Clear .a, light),
  (.vmUv .a, light),
  (.vmuvClear .a, light),
  (.stoPin .a, light),
  (.stoRelease .a, light)] : List (Instr × Lane)).all happens = true := by decide +kernel

theorem witness_StageTestsAndAlive : ([
  (.odiagStart .a 1 1, light),
  (.odiagStepEnd .a true 1, { light with gate := { light.gate with odQueue := [2], odRun := some (0, 0, 0) } }),
  (.chopTest .a 1, light),
  (.chopTestEnd .a true, { light with gate := { light.gate with chopRun := true } }),
  (.sopTest .a 0, light),
  (.sopTestEnd .a true, { light with gate := { light.gate with sopRun := some 3 } }),
  (.sopTestDue .a 0, light),
  (.aliveToggle .a, light),
  (.aliveKick .a 0x10, light),
  (.kickLapse .a, light.wr 0x5000006c 0x20000)] : List (Instr × Lane)).all happens = true := by decide +kernel

theorem witness_ConversionSequences : ([
  (.sequenceEnable .a 0 true true, light),
  (.sequenceTrigger .a 0 true, light.wr 0x40080044 0x40010),
  (.rseqGo .a 0, light.wr 0x40080040 0x40010),
  (.iseqGo .a 0, light.wr 0x40080044 0x40010),
  (.entryStart .a 0 true, { light with cnvs := light.cnvs.set 0 { rNext := some 1, rTrig := 3 } }),
  (.conversionEnd .a 0 5,
    { light with cnvs := light.cnvs.set 0 { iNext := some 1, conv := some { what := .regular 2, sel := 1, start := 0 } } }),
  (.resRead .a .trioM 0 true 0, light)] : List (Instr × Lane)).all happens = true := by decide +kernel

theorem witness_CalibrationAndCrossCheck : ([
  (.calGo .a 0, light),
  (.calDone .a 0 (⟨3, 5, List.replicate 12 4, true, 1843, -1843, 0⟩), { light with cnvs := light.cnvs.set 0 { calAt := some 5 } }),
  (.icvWindowEnd .a ([10, -10, 0, 5, 100, 200, -300, 7]) 1,
    { light with icv := { light.icv with winK := some 119999, due := some (1000, 1200000000) } }),
  (.crossCheck .a, { light with icv := { light.icv with len := 1000, results := true } }),
  (.suspectFallback .a 0,
    { light with cnvs := light.cnvs.set 0 { conv := some { what := .check 1, sel := 9, start := 0 }, suspectAt := some 5 } }),
  (.suspectCheckDone .a 0, { light with cnvs := light.cnvs.set 0 { suspectAt := some 5, checks := [1843, -1843, 0] } }),
  (.refchkGo .a, light.put F.CNV_SQ_REFCHK_BUSY 0),
  (.refcheckStart .a,
    { light with icv := { light.icv with queue := [{ mask := 255, win := 5000, by_ := .write, askedAt := 1199999000 }, { mask := 3, win := 100, by_ := .forming, askedAt := 1199999000 }] } }),
  (.refcheckEnd .a (List.replicate 8 ⟨1000, 800, false⟩),
    { light with icv := { light.icv with run := some { req := { mask := 15, win := 5000, by_ := .graft, askedAt := 1199998000 }, startAt := 1199999000, stim := 1, notRun := 0, endAt := 5, len := 1000 } } })] : List (Instr × Lane)).all happens = true := by decide +kernel

theorem witness_PositionAndProbes : ([
  (.quadEdge .a true 0 true true, light.wr 0x50003100 0x3c0215),
  (.hallStep .a true 0 1, light.wr 0x50003100 0x3c021a),
  (.indexEvent .a 0 true, light.wr 0x40090100 0x1f0411),
  (.posChannelEnable .a 0 true, light),
  (.probeEdge .a 0 true, light.wr 0x40090280 0x401),
  (.prbValRead .a .trioM 0, light),
  (.prbTRead .a .trioM 0, light),
  (.qValRead .a .trioM 0, light),
  (.cmpTgtWrite .a 0 0 true 0x1234, light),
  (.speedUpdate .a, light),
  (.speedZero .a 0,
    { light.wr 0x40090100 0x1f0411 with pos := { light.pos with q := light.pos.q.set 0 { val := 100, ang := 77, valid := true, avalid := true, spd := 50 }, enc := light.pos.enc.set 0 { lines := 1, seen := true, dirn := true, edge := some (5, 1), used := some (5, 1) }, henc := light.pos.henc.set 0 { lines := 1, seen := true } } })] : List (Instr × Lane)).all happens = true := by decide +kernel

theorem witness_ResolversAndSent : ([
  (.rpeak .a 0, { light.wr 0x40090180 0x2021 with mt := 0x47869f88 }),
  (.resSamplePair .a 0,
    { ((light.wr 0x400801c0 0x47868c32).wr 0x400811c0 0x47868c32).wr 0x40090180 0x2021 with pos := { light.pos with q := light.pos.q.set 0 { val := 100, valid := true, avalid := true }, res := light.pos.res.set 0 { trigAt := some 1200000000, bad := 8, theta := 5, speed := 1000000, pairAt := some 1199990000 } } }),
  (.resLos .a 0,
    { light.wr 0x40090180 0x2021 with pos := { light.pos with q := light.pos.q.set 4 { valid := true }, res := light.pos.res.set 0 { bad := 8 } } }),
  (.resTrackStep .a 0,
    { light.wr 0x40090180 0x2021 with pos := { light.pos with q := light.pos.q.set 0 { val := 100, valid := true, avalid := true }, res := light.pos.res.set 0 { trigAt := some 1200000000, bad := 8, theta := 5, speed := 1000000, pairAt := some 1199990000 } } }),
  (.sentFrame .a true 0 (⟨33600, List.replicate 8 7200⟩), light.wr 0x50003100 0x3c0215),
  (.sentTimeout .a 0, light.wr 0x40090200 0x3c0421),
  (.sentTrigger .a 0, light.wr 0x40090200 0x3c0421)] : List (Instr × Lane)).all happens = true := by decide +kernel

theorem witness_SafetyReactions : ([
  (.violationConfirm .a 0 0, { light with saf := { light.saf with cnt := List.replicate 12 5, ext := [some 1, none, none, none] } }),
  (.safSto .a 0, { light with saf := { light.saf with conf := List.replicate 12 (some 5) } }),
  (.slrLimitChange .a true, { light with hsf := { light.hsf with lim := { light.hsf.lim with falls := [(5, 2)] } } }),
  (.l1Late .a, { light with saf := { light.saf with l1From := some 5 } }),
  (.sbhCheckEnd .a 0, { light with saf := { light.saf with sbh := light.saf.sbh.set 0 { phase := .check, at_ := 5 } } })] : List (Instr × Lane)).all happens = true := by decide +kernel

theorem witness_HardWiredTorqueOff : ([
  (.hsfStop .a 0, { light with hsf := { light.hsf with cnt := List.replicate 4 9 } }),
  (.hsfStoReq .a 1, light),
  (.hsfStoRel .a 1 1, light),
  (.hunavail .a 0, { light with hsf := { light.hsf with unavAt := [some 5, some 5, some 5] } })] : List (Instr × Lane)).all happens = true := by decide +kernel

theorem witness_SealCommands : ([
  (.sealChk .a, light),
  (.sealLock .a 0x3C96, light),
  (.hsealChk .a, light),
  (.hsealLock .a, light),
  (.sealDone .a true, { light with hsf := { light.hsf with run := some { endAt := 5, val := some 9 } } }),
  (.sealRecheck .a false, light.wr 0x40060084 0x20)] : List (Instr × Lane)).all happens = true := by decide +kernel

theorem witness_WeedingSlices : ([
  (.sliceSchedule .a, light),
  (.sliceGo .a 1 1, light),
  (.sliceStart .a, { light with test := { light.test with slice := some { elem := .cnv 0, sched := true, cmd := none, startAt := none } } }),
  (.sliceEnd .a true,
    { light with test := { light.test with slice := some { elem := .cnv 0, sched := true, cmd := none, startAt := some 5 } } }),
  (.sliceAbort .a true,
    { light with test := { light.test with slice := some { elem := .cnv 0, sched := true, cmd := none, startAt := some 5 } } })] : List (Instr × Lane)).all happens = true := by decide +kernel

theorem witness_MemoryProtection : ([
  (.scrubPass .a, light),
  (.scrubPassEnd .a ([⟨0x20000000, List.replicate 20 0⟩]),
    { light with test := { light.test with scrubAt := some 5, fixedNow := [536870912], fixedLast := [536870912] } }),
  (.remapDone .a, { light with test := { light.test with remap := some (3, 5) } }),
  (.nvmSpared .a, light),
  (.decoderTest .a none, light)] : List (Instr × Lane)).all happens = true := by decide +kernel

theorem witness_CanReceptionAndModes : ([
  (.canRxFrame .a 0 (⟨0, false, 0x123 <<< 18, false, 8, false, 0, 0, false, 0, List.replicate 8 0x5A, 5⟩) 1,
    { light.wr 0x40100040 0x11 with can := light.can.set 0 { intg := true } }),
  (.objLockRead .a 0 0 .trioM, light),
  (.objUnlockRead .a 0 0 .trioM, light),
  (.lockLapse .a 0 5,
    { light with can := light.can.set 0 { intg := true, locks := [{ obj := 5, who := .svc, at_ := 5 }, { obj := 0, who := .trioM, at_ := 1999999999 }], hold := [(5, { fmt := 0, ide := false, id := 0x48c0000, rtr := false, dlc := 8, esi := false, sdt := 0, vcid := 0, sec := false, af := 0, data := List.replicate 8 0x5a, ts := 5 })] } }),
  (.recover .a 0, (light.put F.CAN_ERR_BO 1).put F.CAN_MODE_BOAUTO 0),
  (.busOffRecovery .a 0, (light.wr 0x40100040 0x11).wr 0x40100058 0x20000),
  (.canWakeEdge .a 0, { light.wr 0x40100100 0x215 with pwr := { light.pwr with sleep := .parked } }),
  (.canWakeFrame .a 0 .other, { light.wr 0x40100100 0x216 with pwr := { light.pwr with sleep := .parked } }),
  (.canEnable .a 0 true, light),
  (.canIntegration .a 0, light.wr 0x40100040 0x11),
  (.canVoteLapse .a 0, light)] : List (Instr × Lane)).all happens = true := by decide +kernel

theorem witness_CanTransmission : ([
  (.txrq .a 0 0 0x1234, light),
  (.txcan .a 0 0 0x1234, light),
  (.arbitration .a 0 true, { light.wr 0x40100040 0x11 with can := light.can.set 0 { intg := true } }),
  (.canTxEnd .a 0 .sent 0x1234 1, { light.wr 0x40100040 0x11 with can := light.can.set 0 { intg := true, tx := some 5 } })] : List (Instr × Lane)).all happens = true := by decide +kernel

theorem witness_FlexRayStates : ([
  (.flxEnable .a true, light),
  (.listenTimeout .a, (light.wr 0x40140040 0x1d1).wr 0x4014005c 0x301),
  (.integration .a 3, (light.wr 0x40140040 0x1d1).wr 0x4014005c 0x301),
  (.cycleStart .a 1 1, (light.wr 0x40140040 0x1d1).wr 0x4014005c 0x308),
  (.cpi .a 0,
    { ((light.wr 0x40140040 0x1d1).wr 0x40140044 0x3e80).wr 0x4014005c 0x304 with flx := { light.flx with attempts := 3, cpiEff := [8388864, 8389120, 0, 9437187], started := true, inLim := 5, passive := 2 } }),
  (.clockCorrection .a 5 5 1 1 true, (light.wr 0x40140040 0x1d1).wr 0x4014005c 0x308),
  (.waketx .a, light),
  (.flxWake .a, { light.wr 0x4001004c 0xa01 with pwr := { light.pwr with sleep := .parked } })] : List (Instr × Lane)).all happens = true := by decide +kernel

theorem witness_FlexRayBuffers : ([
  (.flxRxFrame .a (⟨false, 1, [1, 2, 3, 4], false, 0, false, false, 9⟩), (light.wr 0x40140040 0x1d1).wr 0x4014005c 0x301),
  (.flxLockRead .a 0 .trioM, light),
  (.flxUnlockRead .a 0 .trioM, light),
  (.flxTxrq .a 0 0x1234, light),
  (.payloadTake .a 2 0x40 false,
    { ((light.put F.FLX_CTL_EN 1).put F.FLX_POC_STATE 4).bp 2 0 0 2 2 with flx := { light.flx with started := true } })] : List (Instr × Lane)).all happens = true := by decide +kernel

theorem witness_TwinPathFrames : ([
  (.twpTxreq .a 0 ([1, 2, 3, 4]),
    { light with mem := [(1075253248, 5), (1075253250, 3), (1075253251, 1), (1075253252, 3), (1075253254, 7)] }),
  (.copy .a (.eth 7 0) ([1, 2, 3, 4]), light),
  (.comparisonEnd .a 0, light),
  (.rxqPop .a, light),
  (.pairSilent .a, (((light.put F.OZL_PAIR_PAIRED 1).put F.OZL_PAIR_ROLE 0).dp 0 0 16 1 1).dp 0 0 20 1 1),
  (.didEnable .a 0 true, light)] : List (Instr × Lane)).all happens = true := by decide +kernel

theorem witness_SwitchCommands : ([
  (.sync .a 0 5, light),
  (.qbvSwap .a 0, light),
  (.gclTakeover .a 0,
    { light.put F.ETH_QBV_PEND 1 with eth := { light.eth with admin := [some ⟨1200000000, 100, [(100, 3)]⟩, none, none] } }),
  (.plcaLost .a, light.wr 0x40160060 0x8),
  (.plcaBeacon .a, light.wr 0x40160070 0x54080800),
  (.t1sWake .a, { light.wr 0x4001004c 0xa02 with pwr := { light.pwr with sleep := .parked } }),
  (.portLinkChange .a 0 true, light),
  (.ethVoteLapse .a, light),
  (.gptpAnnounce .a true none, light),
  (.gateControlEvent .a 0,
    { light.put F.ETH_QBV_EN 1 with eth := { light.eth with oper := [some ⟨1200000000, 100, [(100, 3)]⟩, none, none] } })] : List (Instr × Lane)).all happens = true := by decide +kernel

theorem witness_PowerDomains : ([
  (.pwrVote .a .trioM 0x1234, light),
  (.domainDrop .a 0, { light with pwr := { light.pwr with dom := List.replicate 21 (.drop 0 0 5) } }),
  (.retentionSigned .a 0, { light with pwr := { light.pwr with dom := List.replicate 21 (.drop 2 1 5) } }),
  (.domainStepReady .a 1 ([]) true,
    { light with pwr := { light.pwr with dom := [.stable, .rise 2 100 true, .stable, .stable, .stable, .stable, .stable, .stable, .stable, .stable, .stable, .stable, .stable, .stable, .stable, .stable, .stable, .stable, .stable, .stable, .stable], sleep := .waking } }),
  (.stepFail .a 1,
    { light with pwr := { light.pwr with dom := [.stable, .rise 2 100 true, .stable, .stable, .stable, .stable, .stable, .stable, .stable, .stable, .stable, .stable, .stable, .stable, .stable, .stable, .stable, .stable, .stable, .stable, .stable], sleep := .waking } })] : List (Instr × Lane)).all happens = true := by decide +kernel

theorem witness_SleepAndWake : ([
  (.sleepReq .a none, light),
  (.wakePin .a false, light.wr 0x4001004c 0xa0c),
  (.bemfSample .a ([3000, 100, 5000, 0]), { light with pwr := { light.pwr with sleep := .parked } }),
  (.coldForm .a, { light.wr 0x40010054 0x40 with ozl := { light.ozl with readyAt := some 5 } })] : List (Instr × Lane)).all happens = true := by decide +kernel

theorem witness_PreqExchanges : ([
  (.preqExchange .a,
    { light with pwr := { light.pwr with queue := [{ rank := 2, cmd := 1, rail := 0, value := 820 }, { rank := 3, cmd := 3, rail := 1, value := 0 }, { rank := 4, cmd := 5, rail := 2, value := 0 }] } }),
  (.preqRead .a 0x1234,
    { light with pwr := { light.pwr with run := some { req := { rank := 2, cmd := 1, rail := 0, value := 820 }, seq := 5, tries := 0, t0 := 5, nextAt := 5, busy := false } } }),
  (.preqTimeout .a,
    { light with pwr := { light.pwr with run := some { req := { rank := 2, cmd := 1, rail := 0, value := 820 }, seq := 5, tries := 0, t0 := 5, nextAt := 5, busy := false } } }),
  (.pmicStatusPoll .a, light.wr 0x40180048 0x2),
  (.setRail .a 1 0x40, light),
  (.preqEnable .a 1 0x40, light),
  (.preqDisable .a 1 0x40, light),
  (.preqStatus .a 1 0x40, light),
  (.preqSleep .a 1 0x40, light),
  (.wakeCfg .a 1 0x40, light)] : List (Instr × Lane)).all happens = true := by decide +kernel

theorem witness_ThermalShutdown : ([
  (.dieSd .a 1, light),
  (.thsRestart .a 1, light),
  (.tdFuse .a .trioM 0x27D1E 4000000000, light),
  (.tdFuseDone .a 1 0x1234, { light with ths := { light.ths with fuse := some { input := 0, kind := 0, val := 117442048, at_ := 5 } } }),
  (.furrowSlot .a 5, { light with ths := { light.ths with round := some { startAt := 5, slot := 0, held := false, endDue := false } } })] : List (Instr × Lane)).all happens = true := by decide +kernel

theorem witness_FurrowRounds : ([
  (.furrowRound .a, light),
  (.furrowSlot .a 5, { light with ths := { light.ths with round := some { startAt := 5, slot := 0, held := false, endDue := false } } }),
  (.roundEnd .a, { light with ths := { light.ths with round := some { startAt := 5, slot := 23, held := false, endDue := true } } }),
  (.tlSample .a 5 5, light)] : List (Instr × Lane)).all happens = true := by decide +kernel

theorem witness_AlmanacAndLifeCycle : ([
  (.almanacAlarm .a, { light with alm := { light.alm with since := 600 } }),
  (.snap .a, light),
  (.almWrite .a, light),
  (.almanacWriteDone .a true, light.wr 0x400e0044 0x41),
  (.calset .a 0x1234, light),
  (.calendarSecond .a, light),
  (.lcConfirmTimeout .a,
    { light with alm := { light.alm with lc := some { tag := 0x10, net := false, old := 0, target := 1, startAt := 5, conf := 0, written := true } } }),
  (.digestRecheckDone .a true, { light with sdl := { light.sdl with resolving := true, recheckAt := some 1 } })] : List (Instr × Lane)).all happens = true := by decide +kernel

/-! ### What the statements about operations of their own suppose -/

theorem witness_EveryCommandAnswers : (State.reset.pending = [] ∧ State.reset.free = 0) := by decide +kernel

theorem witness_StepIdles : State.reset.pending = [] := by decide +kernel

theorem witness_MiokinRoundTrip : [MIns.ld 3 ⟨7, 2, 0xFFF⟩, .lxi 7 0xFFF, .jmp 12 0xFFF, .nop].all MIns.wf = true := by decide +kernel

/-! ### WellFormed refuses an ill-formed command for each of its checks -/

theorem test_illFormed : ([.srst .a .cnv 8, .evqClr .a .sys 1, .evqRead .a .trioM .can 4 0, .lbTokenExpire .a .drv 4, .complete .a 0 0,
    .complete .a 0 128, .vcell .a [1, 2] 0 0, .vote .a 0 0 [1], .relayVote .a 0 0 [], .heart .a 0 0 (List.replicate 81 0),
    .stream .a 0 0 [] .bulk, .stream .a 0 0 (List.replicate 80 0) (.packet [1, 2]),
    .stream .a 0 0 (List.replicate 80 0) (.mirror [(0x40050041, 5)]), .xinhAssert .a .a, .xinhReadback .b .b true, .mirrorStale .c .c,
    .kernelRelease .a true (List.replicate 9 ⟨0, 16, true, false, true, false, false, false⟩), .fallowStepEnd .a 0 [.elem (.cnv 8)] true,
    .extHeart .a 0 (List.replicate 80 0) ⟨true, 2, false, 55, 7, [1], []⟩, .post .a .trioM 0 64, .allocLapse .a 0 64,
    .calDone .a 0 ⟨3, 5, [], true, 1843, -1843, 0⟩, .icvWindowEnd .a [1] 1, .refcheckEnd .a [], .conversionEnd .a 0 4096,
    .conversionEnd .a 0 (-4097), .scrubPassEnd .a [⟨0x20000000, []⟩], .decoderTest .a (some (.elem (.cnv 0))),
    .canRxFrame .a 0 ⟨0, false, 1, false, 8, false, 0, 0, false, 0, List.replicate 9 1, 5⟩ 0,
    .canWakeFrame .a 0 (.data ⟨1, false, 1, false, 8, false, 0, 0, false, 0, [], 5⟩), .flxRxFrame .a ⟨false, 1, [1], false, 0, false, false, 9⟩,
    .twpTxreq .a 0 (List.replicate 1025 0), .bemfSample .a []] : List Instr).all (fun i => !i.wellFormed) = true := by decide +kernel

theorem test_wellFormed : ([.srst .a .cnv 7, .complete .a 0 127, .xinhAssert .a .b, .post .a .trioM 0 63, .conversionEnd .a 0 (-4096)]
    : List Instr).all Instr.wellFormed = true := by decide +kernel

/-! ### The spec's worked examples -/

/-- 04_trellis_commands.md: CRC-32C over "123456789". -/
theorem test_crc32c_check : crc32c [0x31, 0x32, 0x33, 0x34, 0x35, 0x36, 0x37, 0x38, 0x39] = 0xE3069283 := by decide +kernel

/-- 04_trellis_commands.md, the worked packet: bytes 0 to 11 and the parameters. -/
theorem test_trellis_packet_crc :
    crc32c [0x10, 0x11, 0x2A, 0x00, 0x01, 0x07, 0x08, 0x00, 0x00, 0xE1, 0xF5, 0x05, 0x98, 0x3A, 0x00, 0x00, 0x90, 0x5F, 0x01, 0x00] =
      0x1AC6303A := by decide +kernel

/-- 10_safety_functions.md, the worked Seal of two entries. -/
theorem test_seal_example : crc32c (sealEntry 0x40050040 0x32 ++ sealEntry 0x50004040 0x200) = 0x18069FC3 := by decide +kernel

/-- The masks of those two entries in the sealed image. -/
theorem test_seal_masks : (sealRows .ozl 0).contains (0x40050040, 0xFF) && (sealRows .sdl 0).contains (0x50004040, 0x7FFF) = true := by
  decide +kernel

/-- 15_power_domains.md: CRC-8 over "123456789" (R484). -/
theorem test_crc8_check : crc8 [0x31, 0x32, 0x33, 0x34, 0x35, 0x36, 0x37, 0x38, 0x39] = 0x4B := by decide +kernel

/-- 15_power_domains.md, the worked exchange: VCORE of 800 mV with SEQ 5, and the frame the PMIC answers. -/
theorem test_preq_frame : preqFrame (preqHead { rank := 3, cmd := 1, rail := 0, value := 800 } 5) = 0x103205D9 ∧
    preqCrcOk 0x003205C1 = true := by decide +kernel

/-- 05_loop_engines.md, the worked back-calculation. -/
theorem test_back_calculation : backValue 0x0410 0x6000 12 3 = 0x0458 := by decide +kernel

/-- 16_thermal.md, the worked throttling of bridge 0: six rounds from step 0. -/
theorem test_throttle_example : ([2048, 2232, 2352, 2288, 2248, 2125] : List Int).foldl (fun (a : List Nat × Nat) t =>
    let k := throttleStep 130 8 a.2 t; (a.1 ++ [k], k)) ([], 0) = ([0, 2, 3, 3, 2, 1], 1) := by decide +kernel

/-- 02_three_lanes_one_authority.md, the worked vote: the median of 0x1200, 0x1210, 0x1500 and lane C the minority. -/
theorem test_saddle_example :
    let r (t : Half) : Refs := { refs0 with tq := [t, 0, 0, 0] }
    (refs3 0x80 0x80 (r 0x1200) (r 0x1210) (r 0x1500)).1.tq.headD 0 = 0x1210 ∧
      (refs3 0x80 0x80 (r 0x1200) (r 0x1210) (r 0x1500)).2 = 4 := by decide +kernel

/-- Words written out from Tables 5.2 to 5.4: opcode in bits 31 to 26. -/
theorem test_miokin_words : decodeM (0x01 <<< 26 ||| 1 <<< 24 ||| 5) = some (.ld 1 ⟨0, 0, 5⟩) ∧ decodeM (0x28 <<< 26 ||| 1 <<< 24 ||| 0x10) = some (.ldi 1 0x10) := by
  decide +kernel

/-- SAE J2716 (log 142): the CRC of the nibbles 5 3 14 5 3 14 is 15, of 7 4 8 7 4 8 it is 3. -/
theorem test_sent_crc : sentCrc false [5, 3, 0xE, 5, 3, 0xE] = 0xF ∧ sentCrc false [7, 4, 8, 7, 4, 8] = 3 := by decide +kernel

/-- FIPS 180-4: SHA-256 of "abc". -/
theorem test_sha256 : sha256 [0x61, 0x62, 0x63] =
    bytesBE 32 0xba7816bf8f01cfea414140de5dae2223b00361a396177a9cb410ff61f20015ad := by decide +kernel

/-- A protected word at 0x20000040 with its check symbols (R396), some of its 20 stored symbols changed. -/
def stored (bad : List Nat) : List Nat :=
  let d := [1, 2, 3, 4, 5, 6, 7, 8, 9, 10, 11, 12, 13, 14, 15, 16]
  (d ++ memCheck 0x20000040 d).zipIdx.map (fun p => if bad.contains p.2 then p.1 ^^^ 0xA5 else p.1)

/-- R397: two wrong symbols are corrected, three are not, and a word of another address shows as an address error. -/
theorem test_memory_code : memDecode 0x20000040 (stored []) = .clean ∧
    memDecode 0x20000040 (stored [0]) = .fixed 1 [1, 2, 3, 4, 5, 6, 7, 8, 9, 10, 11, 12, 13, 14, 15, 16] ∧
    memDecode 0x20000040 (stored [3, 19]) = .fixed 2 [1, 2, 3, 4, 5, 6, 7, 8, 9, 10, 11, 12, 13, 14, 15, 16] ∧
    memDecode 0x20000040 (stored [3, 7, 19]) = .bad false ∧ memDecode 0x20000050 (stored []) = .bad true := by decide +kernel

/-! ### Conditions within a statement -/

/-- The condition of a command and one on its lane hold together. -/
def holds (i : Instr) (L : Lane) (p : Lane → Prop) [∀ L, Decidable (p L)] : Bool := i.ready L && decide (p L)

/-- A vote cell from lane B in slot 0 with `n` of its bytes wrong (R67, R68). -/
def voteCell (n : Nat) : List Byte :=
  (sealCell ⟨0, 1, 1, 0, false, 5, 0, 0⟩ (votePayload ⟨7, 1, 1, false, false, false, refs0, 100, 0, 0, 0, 0⟩)).zipIdx.map (fun p =>
    if p.2 % 16 = 3 ∧ p.2 / 16 < n then p.1 ^^^ 0x5A else p.1)

theorem test_link_code : (decodeCell (voteCell 0)).1 = .clean ∧ decodeCell (voteCell 4) = (.corrected, (voteCell 0).take 72) ∧
    (decodeCell (voteCell 5)).1 = .failed := by decide +kernel

/-- Module time at which slot 0 of a link cycle ends, and 25 ns later; delay 0 (R66, R69). -/
def atSlot (late : Nat) : Lane := { light.put F.OZL_LINK_UP 1 with mt := 1200000016 + BitVec.ofNat 64 late }

theorem witness_LinkCellsTaken : ((Instr.vote .a 0 0 (voteCell 4)).ready (atSlot 0) &&
    decide (((atSlot 0).cellOff 0 0).2.natAbs ≤ 20 ∧ (decodeCell (voteCell 4)).1 ≠ .failed ∧
      (cellHdr (cellBody (voteCell 4))).slot = ((atSlot 0).cellOff 0 0).1 ∧ (cellHdr (cellBody (voteCell 4))).kind = 1 ∧
      (cellHdr (cellBody (voteCell 4))).src = (portPeer .a 0).idx ∧ 20 < ((atSlot 5).cellOff 0 0).2.natAbs ∧
      ((atSlot 4).cellOff 0 0).2.natAbs ≤ 20)) = true := by decide +kernel

/-- A transfer of the Hedge link stands or does not, for each type with a payload: LEG, VREF, VCELL, TIME, IRQ, WR, RD, RSP. -/
theorem witness_HedgeLink : ([(1, [0x1111, 0x2222]), (2, vrefBeats refs0 5), (3, byteBeats (List.replicate 72 7)),
    (4, wordBeats light.timePayload), (5, [1, 2]), (6, [0x44, 0, 7]), (7, [0x44]), (8, [0, 0, 5])] : List (Nat × List Half)).all (fun p =>
      let h := hdrBeat p.1 9 p.2.length
      xferOk p.1 p.2 h (crcBeat h p.2) && !xferOk p.1 p.2 h (crcBeat h p.2 ^^^ 1) && !xferOk p.1 p.2 (h ^^^ 1) (crcBeat (h ^^^ 1) p.2)) = true := by
  decide +kernel

/-- RSP and its time-out: the first two tries and the last. -/
theorem witness_HedgeAccesses : ([0, 1, 2].map (fun n =>
    let L : Lane := { light with link := { light.link with accesses := [⟨false, 68, 5, n, 1000⟩], rsp := some (0, 9) } }
    (holds (.rspTimeout .a) L (fun L => (L.link.accesses.head?.map (·.tries)).getD 0 < 2), (Instr.rsp .a 0 0).ready L))) =
      [(true, true), (true, true), (false, true)] := by decide +kernel

/-- REGISTER_WRITE: an unaligned or guarded address, a word of RAM, a register of a logic-die block, the Hedge window. -/
theorem witness_RegisterWrite : ([(.trioM, 0x40000041), (.trioM, 0x10000004), (.svc, 0x40093000), (.trioM, 0x50000044)] :
    List (Master × Word)).all (fun p => (Instr.registerWrite .a p.1 p.2 5).ready light) = true ∧
    permits .svc true 0x40093000 = false ∧ inMemory 0x10000004 = true ∧ blockAt 0x50000044 ≠ none := by decide +kernel

theorem witness_RegisterWrite_plain : ∃ r, light.plainReg 0x40030080 .trio 0 r := by
  refine ⟨(findRow .trio 0x80).get (by decide +kernel), 0x80, by decide +kernel, by simp, ?_⟩
  decide +kernel


/-- The lane at its decision, with the vote cells of the next boundary that came, each with its own TQREF_0. -/
def voting (tq : List (Option Half)) : Lane :=
  { light with mt := 0x47868C00 + 9570, sdl := { light.sdl with
      cells := (tq.zip [0, 1, 2]).map (fun p => p.1.map (fun t =>
        ⟨light.nextSeq, p.2, 1, false, false, false, { refs0 with tq := [t, 0x2000, 0xF000, 0] }, 100, 0, 0, 0, 0⟩))
      came := tq.map Option.isSome
      held := false, agreed := some refs0, minHist := [0, 0, 0] } }

/-- Which lanes' cells count. -/
def counts (L : Lane) : List Bool := [L.counted .a, L.counted .b, L.counted .c].map Option.isSome

/-- A state whose lane A is `L`. -/
def withA (L : Lane) : State := { State.reset with laneA := L }

/-- The vote of the worked example in lane A: three cells count, lane C the minority. -/
theorem witness_VotedValues_three : ((Instr.saddleDecision .a).ready (voting [some 0x1200, some 0x1210, some 0x1500]) &&
    counts (voting [some 0x1200, some 0x1210, some 0x1500]) == [true, true, true]) = true := by decide +kernel

theorem test_saddle_decides : (match exec (.saddleDecision .a) (withA (voting [some 0x1200, some 0x1210, some 0x1500])) with
    | .next t => (t.laneA.sdl.voted.map (fun r => r.tq.headD 0), t.laneA.get F.SDL_VSTAT_MINOR)
    | _ => (none, 0)) = (some 0x1210, 4) := by decide +kernel

theorem witness_VotedValues_two : ((Instr.saddleDecision .a).ready (voting [some 0x1200, some 0x1210, none]) &&
    counts (voting [some 0x1200, some 0x1210, none]) == [true, true, false] && !light.sdl.resolving) = true := by decide +kernel

theorem witness_FrozenVotes : ((Instr.saddleDecision .a).ready (voting [some 0x1200, some 0x5500, none]) &&
    counts (voting [some 0x1200, some 0x5500, none]) == [true, true, false] &&
    counts (voting [some 0x1200, none, none]) == [true, false, false]) = true := by decide +kernel

theorem witness_MinorityRemoved : (counts (voting [some 0x5500, some 0x1210, some 0x1200]) == [true, true, true] &&
    (refs3 0x80 0x80 { refs0 with tq := [0x5500] } { refs0 with tq := [0x1210] } { refs0 with tq := [0x1200] }).2 == 1) = true := by
  decide +kernel

theorem witness_NoShootThrough : ∀ leg, leg < 12 → ¬ (nthB light.gate.on (2 * leg) = true ∧ nthB light.gate.on (2 * leg + 1) = true) := by
  decide +kernel

theorem witness_OneLaneCannotSway : [refs0, refs0, refs0].all (fun r => r.tq.length == 4 && r.fx.length == 4) = true := by decide +kernel

/-- The memory operand of a Miokin instruction lies in the program's window. -/
theorem witness_Miokin_window : (looping (.ld 1 ⟨0, 0, 5⟩)).inData 0 2 5 = true := by decide +kernel

/-- The command with the tag is no longer waiting for its opcode. -/
def acted (p : Instr × Lane) : Bool :=
  match exec p.1 (withA p.2) with
  | .next t => !((t.laneA.cmd 0x10 false).any (fun c => c.phase == .admitted))
  | _ => false

/-- Every opcode acts on its command. -/
theorem witness_opcodes_act : ([
  (.ident .a 0x10 false, { light with cmdq := { light.cmdq with queue := [cmd 1 0 (List.replicate 4 0)] } }),
  (.status .a 0x10 false, { light with cmdq := { light.cmdq with queue := [cmd 2 0 []] } }),
  (.lifecycle .a 0x10 false, { light with cmdq := { light.cmdq with queue := [cmd 3 0 [1, 0, 0, 0, 0, 0, 0, 0, 0, 0, 0, 0]] } }),
  (.steerAngle .a 0x10 false, { light with cmdq := { light.cmdq with queue := [cmd 16 1 [0x88, 0x13, 0, 0, 0xe8, 3, 0, 0]] } }),
  (.steerTorque .a 0x10 false, { light with cmdq := { light.cmdq with queue := [cmd 17 1 [0x88, 0x13, 0, 0, 0xe8, 3, 0, 0]] } }),
  (.clampForce .a 0x10 false, { light with cmdq := { light.cmdq with queue := [cmd 18 2 [0xf4, 1, 0, 0, 0x64, 0, 0, 0]] } }),
  (.clampRelease .a 0x10 false, { light with cmdq := { light.cmdq with queue := [cmd 19 2 [0x64, 0, 0, 0]] } }),
  (.hold .a 0x10 false, { light with cmdq := { light.cmdq with queue := [cmd 20 1 (List.replicate 4 0)] } }),
  (.bridgeEnable .a 0x10 false, { light with cmdq := { light.cmdq with queue := [cmd 21 1 []] } }),
  (.bridgeDisable .a 0x10 false, { light with cmdq := { light.cmdq with queue := [cmd 22 1 [0x64, 0, 0, 0]] } }),
  (.ascBrake .a 0x10 false, { light with cmdq := { light.cmdq with queue := [cmd 23 1 []] } }),
  (.cnvSelfcal .a 0x10 false, { light with cmdq := { light.cmdq with queue := [cmd 32 0 [0xff, 0, 0, 0]] } }),
  (.angleZero .a 0x10 false, { light with cmdq := { light.cmdq with queue := [cmd 33 1 (List.replicate 4 0)] } }),
  (.caliperKisspoint .a 0x10 false, { light with cmdq := { light.cmdq with queue := [cmd 34 2 (List.replicate 8 0)] } }),
  (.encoderAlign .a 0x10 false, { light with cmdq := { light.cmdq with queue := [cmd 35 1 (List.replicate 4 0)] } }),
  (.weedSlice .a 0x10 false, { light with cmdq := { light.cmdq with queue := [cmd 48 0 (List.replicate 4 0)] } }),
  (.fallowRequest .a 0x10 false, { light with cmdq := { light.cmdq with queue := [cmd 49 0 []] } }),
  (.icvRefcheck .a 0x10 false, { light with cmdq := { light.cmdq with queue := [cmd 51 0 [0x88, 0x13, 0, 0, 0xff, 0, 0, 0]] } }),
  (.powerVote .a 0x10 false, { light with cmdq := { light.cmdq with queue := [cmd 64 0 [0, 1, 0, 0]] } }),
  (.powerUnvote .a 0x10 false, { light with cmdq := { light.cmdq with queue := [cmd 65 0 [8, 0, 0, 0]] } }),
  (.sleepQuery .a 0x10 false, { light with cmdq := { light.cmdq with queue := [cmd 66 0 []] } }),
  (.cfgWrite .a 0x10 false, { light with cmdq := { light.cmdq with queue := [cmd 80 0 [1, 0, 0, 0, 0x44, 0, 5, 0x40, 5, 0, 0, 0]] } }),
  (.cfgRead .a 0x10 false, { light with cmdq := { light.cmdq with queue := [cmd 81 0 [1, 0, 0, 0, 0x44, 0, 5, 0x40]] } }),
  (.sealConfirm .a 0x10 false, { light with cmdq := { light.cmdq with queue := [cmd 82 0 [0x34, 0x12, 0, 0]] } }),
  (.sealRead .a 0x10 false, { light with cmdq := { light.cmdq with queue := [cmd 83 0 []] } }),
  (.almRead .a 0x10 false, { light with cmdq := { light.cmdq with queue := [cmd 96 0 [0, 0, 0, 0, 0x30, 0, 0, 0]] } }),
  (.almMark .a 0x10 false, { light with cmdq := { light.cmdq with queue := [cmd 97 0 [1, 0, 0, 0, 0x41, 0x41, 0x41, 0x41, 0x41, 0x41, 0x41, 0x41, 0x41, 0x41, 0x41, 0x41, 0x41, 0x41, 0x41, 0x41]] } }),
  (.laneStatus .a 0x10 false, { light with cmdq := { light.cmdq with queue := [cmd 112 0 []] } }),
  (.graft .a 0x10 false, { light with cmdq := { light.cmdq with queue := [cmd 113 0 []] } }),
  (.prune .a 0x10 false, { light with cmdq := { light.cmdq with queue := [cmd 114 0 (List.replicate 4 0)] } }),
  (.trioSplit .a 0x10 false, { light with cmdq := { light.cmdq with queue := [cmd 115 0 [0, 0, 0, 0, 0x40, 0, 0, 0]] } }),
  (.trioJoin .a 0x10 false, { light with cmdq := { light.cmdq with queue := [cmd 116 0 []] } })] : List (Instr × Lane)).all acted = true := by decide +kernel

end Sys2Proof.Tests
end

section
/-!
SUPPORT. What a command of the Hedge reads and leaves alone while the logic die ends commands and leaves the membership: frames of
the Hedge's registers, of the Saddle's hidden state and of the gates.
-/

namespace Sys2Proof.Machine

/-! ### Reads through a frame -/

theorem Lane.get_of_rd {L M : Lane} {f : Fld} {n i : Nat} (h : M.rd (f.reg.addr n i) = L.rd (f.reg.addr n i)) :
    M.get f n i = L.get f n i := by
  simp only [Lane.get, Lane.reg, h]

theorem Lane.flagged_of_rd {L M : Lane} {e : Event} {n : Nat} (h : M.rd ((H.ESTAT e.blk).addr n 0) = L.rd ((H.ESTAT e.blk).addr n 0)) :
    M.flagged e n = L.flagged e n := by
  simp only [Lane.flagged, Lane.reg, h]

/-! ### What the Hedge keeps -/

/-- Socket and Saddle as before, and of the Hedge's registers (Table 1.10, from 0x50000000 on) only those of `K` changed. -/
def Lane.hedgeOnly (L : Lane) (K : List Nat) (M : Lane) : Prop :=
  M.strap = L.strap ∧ M.sdl = L.sdl ∧ ∀ a, 0x50000000 ≤ a → a ∉ K → M.rd a = L.rd a

/-- A change within the logic die: socket, Saddle, gates and the Hedge's registers as before. -/
def Lane.hedgeKept (L M : Lane) : Prop := L.hedgeOnly [] M ∧ M.gate = L.gate

theorem Lane.hedgeOnly_trans {L M N : Lane} {K : List Nat} (h : L.hedgeOnly K M) (g : M.hedgeOnly K N) : L.hedgeOnly K N := by
  obtain ⟨hs, hd, hr⟩ := h
  obtain ⟨gs, gd, gr⟩ := g
  exact ⟨gs.trans hs, gd.trans hd, fun a ha hk => (gr a ha hk).trans (hr a ha hk)⟩

theorem Lane.hedgeOnly_mono {L M : Lane} {K J : List Nat} (h : L.hedgeOnly K M) (hs : ∀ a, a ∈ K → a ∈ J) : L.hedgeOnly J M :=
  ⟨h.1, h.2.1, fun a ha hj => h.2.2 a ha fun hk => hj (hs a hk)⟩

theorem Lane.hedgeOnly_of_only {L M : Lane} {K : List Nat} (h : L.only K M) (hd : M.sdl = L.sdl) : L.hedgeOnly K M :=
  ⟨h.1, hd, fun a _ hk => h.2.2 a hk⟩

theorem Lane.hedgeKept.hedgeOnly {L M : Lane} (h : L.hedgeKept M) (K : List Nat) : L.hedgeOnly K M :=
  Lane.hedgeOnly_mono h.1 fun _ ha => absurd ha List.not_mem_nil

theorem Lane.hedgeKept_refl (L : Lane) : L.hedgeKept L := ⟨⟨rfl, rfl, fun _ _ _ => rfl⟩, rfl⟩

theorem Lane.hedgeKept_trans {L M N : Lane} (h : L.hedgeKept M) (g : M.hedgeKept N) : L.hedgeKept N :=
  ⟨Lane.hedgeOnly_trans h.1 g.1, g.2.trans h.2⟩

theorem Lane.hedgeKept_ite {L M N : Lane} {c : Prop} [Decidable c] (h : L.hedgeKept M) (g : L.hedgeKept N) :
    L.hedgeKept (if c then M else N) := by split <;> assumption

theorem Lane.hedgeKept_foldl {α : Type} {f : Lane → α → Lane} (hf : ∀ (K : Lane) x, K.hedgeKept (f K x)) (xs : List α) :
    ∀ L : Lane, L.hedgeKept (xs.foldl f L) := by
  induction xs with
  | nil => exact Lane.hedgeKept_refl
  | cons x t ih => exact fun L => Lane.hedgeKept_trans (hf L x) (ih _)

/-! ### Operations of the logic die -/

theorem Lane.setReg_hedgeKept (L : Lane) (r : Reg) (v n i : Nat) (h : r.addr n i < 0x50000000) : L.hedgeKept (L.setReg r v n i) :=
  ⟨⟨rfl, rfl, fun _ ha _ => L.rd_setReg_ne r v n i (by omega)⟩, rfl⟩

theorem Lane.put_hedgeKept (L : Lane) (f : Fld) (v n i : Nat) (h : f.reg.addr n i < 0x50000000) : L.hedgeKept (L.put f v n i) :=
  L.setReg_hedgeKept f.reg _ n i h

/-- The registers an event of a logic-die block may change lie below the Hedge window. -/
theorem evRegs_below {b : Blk} (h : b.isHedge = false) : ∀ a ∈ evRegs b 0, a < 0x50000000 := by
  revert h
  cases b <;> decide

/-- An event of a logic-die block changes nothing of the Hedge. -/
theorem Lane.note_hedgeKept (L : Lane) (e : Event) (h : e.blk.isHedge = false) : L.hedgeKept (L.note e 0) :=
  ⟨⟨L.note_strap e 0, L.note_sdl e 0, fun _ ha _ => L.note_rd e 0 fun hx => absurd (evRegs_below h _ hx) (by omega)⟩, L.note_gate e 0⟩

theorem Lane.onCmdq_hedgeKept (L : Lane) (f : CmdqSt → CmdqSt) : L.hedgeKept (L.onCmdq f) := L.hedgeKept_refl

theorem Lane.onOzl_hedgeKept (L : Lane) (f : OzlSt → OzlSt) : L.hedgeKept (L.onOzl f) := L.hedgeKept_refl

theorem Lane.pulse_hedgeKept (L : Lane) (src : Nat) : L.hedgeKept (L.pulse src) :=
  Lane.hedgeKept_ite L.hedgeKept_refl L.hedgeKept_refl

theorem Lane.setMemBytes_hedgeKept (bs : List Byte) : ∀ (L : Lane) (a : Nat), L.hedgeKept (L.setMemBytes a bs) := by
  induction bs with
  | nil => exact fun L _ => L.hedgeKept_refl
  | cons b t ih => exact fun L a => ih (L.setByte a b) (a + 1)

theorem Lane.outst_hedgeKept (L : Lane) : L.hedgeKept L.outst :=
  Lane.hedgeKept_trans (L.put_hedgeKept _ _ 0 0 (by decide)) (Lane.put_hedgeKept _ _ _ 0 0 (by decide))

theorem Lane.dropCmd_hedgeKept (L : Lane) (c : TCmd) : L.hedgeKept (L.dropCmd c) :=
  Lane.hedgeKept_trans (L.onCmdq_hedgeKept _) (Lane.outst_hedgeKept _)

theorem Lane.cplPut_hedgeKept (L : Lane) (bs : List Byte) : L.hedgeKept (L.cplPut bs) :=
  Lane.hedgeKept_trans (Lane.setMemBytes_hedgeKept bs L _) (Lane.put_hedgeKept _ _ _ 0 0 (by decide))

/-- Posting a reply changes nothing of the Hedge (R156, R157). -/
theorem Lane.postReply_hedgeKept (L : Lane) (c : TCmd) (status : Nat) (res : List Byte) (final : Bool) :
    L.hedgeKept (L.postReply c status res final) := by
  have drop {M : Lane} (h : L.hedgeKept M) : L.hedgeKept (if final then M.dropCmd c else M) :=
    Lane.hedgeKept_ite (Lane.hedgeKept_trans h (M.dropCmd_hedgeKept c)) h
  have handed (f : CmdqSt → CmdqSt) : L.hedgeKept (if L.isMember L.strap then L.onCmdq f else L) :=
    Lane.hedgeKept_ite (L.onCmdq_hedgeKept f) L.hedgeKept_refl
  have waits := L.onCmdq_hedgeKept fun q => { q with waiting := q.waiting ++ [(c, status, res, final)] }
  unfold Lane.postReply
  refine Lane.hedgeKept_ite (drop L.hedgeKept_refl) (Lane.hedgeKept_ite (drop (Lane.hedgeKept_ite ?_ ?_)) (Lane.hedgeKept_ite ?_ ?_))
  · exact Lane.hedgeKept_trans (handed _) (Lane.hedgeKept_trans (Lane.put_hedgeKept _ _ _ 0 0 (by decide)) (Lane.note_hedgeKept _ _ rfl))
  · exact Lane.hedgeKept_trans (handed _) (Lane.cplPut_hedgeKept _ _)
  · exact Lane.hedgeKept_ite (Lane.hedgeKept_trans waits (Lane.onCmdq_hedgeKept _ _)) waits
  · exact drop (L.cplPut_hedgeKept _)

theorem Lane.endAll_hedgeKept (L : Lane) (p : TCmd → Bool) (status : Nat) : L.hedgeKept (L.endAll p status) :=
  Lane.hedgeKept_foldl (fun K c => K.postReply_hedgeKept c status [] true) _ L

theorem Lane.outOfVote_hedgeKept (L : Lane) : L.hedgeKept L.outOfVote := L.endAll_hedgeKept _ _

theorem Lane.gmSet_hedgeKept (L : Lane) (k : Nat) (gm : Option (BitVec 64)) : L.hedgeKept (L.gmSet k gm) := by
  refine Lane.hedgeKept_ite L.hedgeKept_refl (Lane.hedgeKept_trans (M := L.onEth fun e => { e with gm := L.eth.gm.set k gm })
    L.hedgeKept_refl ?_)
  exact Lane.hedgeKept_trans (Lane.note_hedgeKept _ Ev.ETH_GM_CHANGE rfl) (Lane.pulse_hedgeKept _ 102)

theorem Lane.gmDrop_hedgeKept (L : Lane) : L.hedgeKept L.gmDrop :=
  Lane.hedgeKept_ite (Lane.hedgeKept_trans (L.put_hedgeKept _ _ 0 0 (by decide)) (Lane.gmSet_hedgeKept _ 0 none)) L.hedgeKept_refl

theorem Lane.pairStep_hedgeKept (L : Lane) : L.hedgeKept L.pairStep := by
  have h := L.put_hedgeKept F.OZL_PAIR_ROLE (b2n L.pairRole) 0 0 (by decide)
  exact Lane.hedgeKept_ite h (Lane.hedgeKept_trans h (Lane.gmDrop_hedgeKept _))

theorem Lane.setMembers_hedgeKept (L : Lane) (m : Nat) : L.hedgeKept (L.setMembers m) :=
  Lane.hedgeKept_trans (Lane.hedgeKept_trans (L.put_hedgeKept _ _ 0 0 (by decide)) (Lane.put_hedgeKept _ _ _ 0 0 (by decide)))
    (Lane.pairStep_hedgeKept _)

theorem Lane.outOfMembers_hedgeKept (L : Lane) : L.hedgeKept L.outOfMembers :=
  Lane.hedgeKept_ite (Lane.hedgeKept_trans (L.setMembers_hedgeKept _) (Lane.endAll_hedgeKept _ _ _)) L.hedgeKept_refl

theorem Lane.setStOf_hedgeKept (L : Lane) (x : LaneId) (v : Nat) : L.hedgeKept (L.setStOf x v) := by
  cases x <;> exact L.put_hedgeKept _ v 0 0 (by decide)

end Sys2Proof.Machine
end

section
/-!
SUPPORT. The gates under a lane stop (R259, R262, R264), the registers a lane stop changes, and what a recorded event shows (R55).
-/

namespace Sys2Proof.Machine

/-! ### Switches turned off -/

/-- Every switch of the lane is commanded off (R264). -/
def Lane.allOff (L : Lane) : Prop := ∀ k, k < 24 → nthB L.gate.on k = false

theorem GateSt.turnOff_on (g : GateSt) (now s k : Nat) : nthB (g.turnOff now s).on k = (nthB g.on k && decide (k ≠ s)) := by
  unfold GateSt.turnOff
  by_cases hs : k = s
  · subst hs
    split
    · rw [nthB, List.getD_eq_getElem?_getD, List.getElem?_set_self']
      cases g.on[k]? <;> simp
    · simp_all
  · split <;> simp [nthB, hs, Ne.symm hs]

theorem GateSt.applyLeg_zero_on (g : GateSt) (now dt leg k : Nat) :
    nthB (g.applyLeg now dt leg 0).on k = (nthB g.on k && decide (k ≠ 2 * leg) && decide (k ≠ 2 * leg + 1)) := by
  simp [GateSt.applyLeg, GateSt.turnOff_on]

/-- Legs that are all wanted off end with every switch off, the `n` last legs whatever they were. -/
theorem Lane.driveLegs_off (L : Lane) (h : ∀ b kept trip, legWanted (L.modeOf b) kept trip = 0) :
    ∀ (n : Nat) (g : GateSt) (k : Nat), n ≤ 12 → k < 24 → (24 ≤ k + 2 * n ∨ nthB g.on k = false) →
      nthB (L.driveLegs n g).on k = false
  | 0, g, k, _, hk, hg => hg.resolve_left (by omega)
  | n + 1, g, k, hn, hk, hg => by
    refine Lane.driveLegs_off L h n _ k (by omega) hk ?_
    rw [h, GateSt.applyLeg_zero_on]
    by_cases hlast : 24 ≤ k + 2 * n
    · exact .inl hlast
    · refine .inr ?_
      rcases hg with hg | hg
      · have hleg : k = 2 * (11 - n) ∨ k = 2 * (11 - n) + 1 := by omega
        rcases hleg with hleg | hleg <;> simp [hleg]
      · simp [hg]

theorem GateSt.sopYield_on (g : GateSt) : g.sopYield.on = g.on := by
  unfold GateSt.sopYield
  split
  · split <;> rfl
  · rfl

/-- Under a lane stop every bridge's mode is a latch or STOP (Table 7.5), and both want every leg off. -/
theorem Lane.legWanted_of_anyStop {L : Lane} (h : L.anyStop = true) (b : Nat) (kept : BitVec 2) (trip : Bool) :
    legWanted (L.modeOf b) kept trip = 0 := by
  have hm : L.modeOf b = 6 ∨ L.modeOf b = 5 := by
    unfold Lane.modeOf
    split
    · exact .inl rfl
    · exact .inr (by simp [h])
  rcases hm with hm | hm <;> simp [legWanted, hm]

/-! ### Causes of a lane stop -/

/-- A one-bit cause of GD_LSTOP (Table 7.6). -/
def stopCause (c : Fld) : Prop := c.reg = R.GD_LSTOP ∧ c.lo < 7 ∧ c.w = 1

theorem Lane.get_lt (L : Lane) (f : Fld) (n i : Nat) : L.get f n i < 2 ^ f.w := Nat.mod_lt _ (by positivity)

/-- A cause that stands is a lane stop. -/
theorem Lane.anyStop_of_cause {L : Lane} {c : Fld} (hc : stopCause c) (h : L.get c = 1) : L.anyStop = true := by
  obtain ⟨hr, hlo, hw⟩ := hc
  have hbit : (L.reg R.GD_LSTOP).testBit c.lo = true := by
    rw [Lane.get, hr, hw, bits, Nat.shiftRight_eq_div_pow] at h
    rw [Nat.testBit_eq_decide_div_mod_eq]
    exact decide_eq_true h
  have h7 : (bits (L.reg R.GD_LSTOP) 0 7).testBit c.lo = true := by
    rw [bits, Nat.shiftRight_zero, Nat.testBit_mod_two_pow, hbit]
    simpa using hlo
  simp only [Lane.anyStop, bne_iff_ne]
  intro h0
  simp [h0] at h7

/-- Re-evaluating the gates sets the summary bit, drives the legs, and shows modes and STO. -/
theorem Lane.gates_eq (L : Lane) : ∃ v w, L.gates = (((L.putB F.GD_LSTOP_HSTOP L.anyStop).onGate fun g =>
    ((L.putB F.GD_LSTOP_HSTOP L.anyStop).driveLegs 12 g).sopYield).setReg R.GD_GMODE v).put F.GD_STO_ACT w := ⟨_, _, rfl⟩

theorem Lane.only_onGate (L : Lane) (K : List Nat) (f : GateSt → GateSt) : L.only K (L.onGate f) := ⟨rfl, fun _ => rfl, fun _ _ => rfl⟩

theorem Lane.onGate_gate (L : Lane) (f : GateSt → GateSt) : (L.onGate f).gate = f L.gate := rfl

theorem Lane.gates_only (L : Lane) : L.only gateRegs L.gates := by
  obtain ⟨v, w, h⟩ := L.gates_eq
  rw [h]
  have hstop := L.only_put gateRegs F.GD_LSTOP_HSTOP (b2n L.anyStop) 0 0 (by decide)
  exact Lane.only_trans hstop (Lane.only_trans (Lane.only_onGate _ _ _) (Lane.only_trans
    (Lane.only_setReg _ gateRegs R.GD_GMODE v 0 0 (by decide)) (Lane.only_put _ gateRegs F.GD_STO_ACT w 0 0 (by decide))))

@[simp] theorem Lane.gates_sdl (L : Lane) : L.gates.sdl = L.sdl := by
  obtain ⟨v, w, h⟩ := L.gates_eq
  simp [h, Lane.putB]

/-- The summary bit re-evaluated leaves the causes alone. -/
theorem Lane.gates_get_cause (L : Lane) {c : Fld} (hc : stopCause c) : L.gates.get c = L.get c := by
  obtain ⟨hr, hlo, hw⟩ := hc
  obtain ⟨v, w, h⟩ := L.gates_eq
  have hput : (L.putB F.GD_LSTOP_HSTOP L.anyStop).get c = L.get c :=
    L.get_put_disjoint F.GD_LSTOP_HSTOP c _ 0 0 hr (by decide) (.inl (show c.lo + c.w ≤ 8 by omega))
  rw [h, ← hput]
  refine Lane.get_of_rd ?_
  rw [hr, Lane.rd_put_ne _ F.GD_STO_ACT w 0 0 (by decide), Lane.rd_setReg_ne _ R.GD_GMODE v 0 0 (by decide), Lane.onGate_rd]

/-- With a lane stop in force the gates end with every switch off (R264). -/
theorem Lane.gates_allOff {L : Lane} (h : L.anyStop = true) : L.gates.allOff := by
  intro k hk
  have hstop : (L.putB F.GD_LSTOP_HSTOP L.anyStop).anyStop = true := by
    have hd := bits_putBits_disjoint (L.reg R.GD_LSTOP) 8 1 (b2n L.anyStop) 0 7 (.inl (by decide))
    have hr : (L.putB F.GD_LSTOP_HSTOP L.anyStop).reg R.GD_LSTOP = putBits (L.reg R.GD_LSTOP) 8 1 (b2n L.anyStop) :=
      L.reg_put_same F.GD_LSTOP_HSTOP _ 0 0 (by decide)
    rw [Lane.anyStop, hr, hd]
    exact h
  obtain ⟨v, w, heq⟩ := L.gates_eq
  have hon : L.gates.gate = ((L.putB F.GD_LSTOP_HSTOP L.anyStop).driveLegs 12 L.gate).sopYield := by
    rw [heq, Lane.put_gate, Lane.setReg_gate, Lane.onGate_gate, Lane.putB, Lane.put_gate]
  rw [hon, GateSt.sopYield_on]
  exact Lane.driveLegs_off _ (fun b kept trip => Lane.legWanted_of_anyStop hstop b kept trip) 12 _ k le_rfl hk (.inl (by omega))

/-! ### The lane stop (R264) -/

/-- A lane stop cause set and its event recorded: the lane before its gates are re-evaluated. -/
theorem Lane.laneStop_cases (L : Lane) {c : Fld} (hc : stopCause c) :
    (L.get c = 1 ∧ L.laneStop c = L) ∨
    (L.is c = false ∧ ∃ K, L.laneStop c = K.gates ∧ (L.put c 1).only (evRegs .gd 0) K ∧ K.sdl = L.sdl) := by
  unfold Lane.laneStop
  split
  · rename_i h
    have hw := L.get_lt c 0 0
    rw [hc.2.2] at hw
    simp only [Lane.is, bne_iff_ne] at h
    exact .inl ⟨by omega, rfl⟩
  · rename_i h
    refine .inr ⟨by simpa using h, _, rfl, ?_⟩
    split
    · exact ⟨Lane.only_refl _ _, rfl⟩
    · exact ⟨Lane.note_only _ _ _, Lane.note_sdl _ _ _⟩

@[simp] theorem Lane.laneStop_sdl (L : Lane) (c : Fld) : (L.laneStop c).sdl = L.sdl := by
  unfold Lane.laneStop
  split
  · rfl
  · rw [Lane.gates_sdl]
    split
    · rw [Lane.put_sdl]
    · rw [Lane.note_sdl, Lane.put_sdl]

theorem Lane.laneStop_only (L : Lane) {c : Fld} (hc : stopCause c) : L.only (gateRegs ++ evRegs .gd 0) (L.laneStop c) := by
  rcases L.laneStop_cases hc with ⟨-, h⟩ | ⟨-, K, h, hK, -⟩ <;> rw [h]
  · exact L.only_refl _
  · have hput := L.only_put gateRegs c 1 0 0 (by rw [hc.1]; decide)
    exact Lane.only_trans (Lane.only_trans (Lane.only_mono hput fun a ha => List.mem_append_left _ ha)
      (Lane.only_mono hK fun a ha => List.mem_append_right _ ha)) (Lane.only_mono K.gates_only fun a ha => List.mem_append_left _ ha)

/-- The causes as a lane stop leaves them: its own set, the others as before. -/
theorem Lane.laneStop_get_cause (L : Lane) {c d : Fld} (hc : stopCause c) (hd : stopCause d) :
    (L.laneStop c).get d = if d = c then 1 else L.get d := by
  rcases L.laneStop_cases hc with ⟨hset, h⟩ | ⟨-, K, h, hK, -⟩ <;> rw [h]
  · split
    · rename_i hdc; rw [hdc, hset]
    · rfl
  · have hnote : K.get d = (L.put c 1).get d := Lane.get_of_rd (hK.2.2 _ (by rw [hd.1]; decide))
    rw [K.gates_get_cause hd, hnote]
    obtain ⟨hcr, hclo, hcw⟩ := hc
    obtain ⟨hdr, hdlo, hdw⟩ := hd
    split
    · rename_i hdc
      rw [hdc, L.get_put_same _ _ _ _ (by omega), hcw]
      rfl
    · rename_i hdc
      have hlo : d.lo ≠ c.lo := fun e => hdc (by cases c; cases d; simp_all)
      exact L.get_put_disjoint c d 1 0 0 (hdr.trans hcr.symm) (by omega) (by omega)

/-- A new lane stop turns every gate off. -/
theorem Lane.laneStop_allOff (L : Lane) {c : Fld} (hc : stopCause c) (h : L.is c = false ∨ L.allOff) : (L.laneStop c).allOff := by
  rcases L.laneStop_cases hc with ⟨hset, hL⟩ | ⟨-, K, hL, hK, -⟩
  · rw [hL]
    exact h.resolve_left (by simp [Lane.is, hset])
  · rw [hL]
    refine Lane.gates_allOff (Lane.anyStop_of_cause hc ?_)
    rw [Lane.get_of_rd (hK.2.2 _ (by rw [hc.1]; decide)), L.get_put_same _ _ _ _ (by have := hc.2; omega), hc.2.2]
    rfl

/-- A cause cleared: it reads 0, and only the Hedge's gate registers change. -/
theorem Lane.laneStopEnd_spec (L : Lane) {c : Fld} (hc : stopCause c) :
    (L.laneStopEnd c).get c = 0 ∧ L.only gateRegs (L.laneStopEnd c) := by
  unfold Lane.laneStopEnd
  split
  · refine ⟨?_, Lane.only_trans (L.only_put gateRegs c 0 0 0 (by rw [hc.1]; decide)) (Lane.gates_only _)⟩
    rw [Lane.gates_get_cause _ hc, L.get_put_same _ _ _ _ (by have := hc.2; omega), Nat.zero_mod]
  · rename_i h
    exact ⟨by simpa [Lane.is] using h, L.only_refl _⟩

/-! ### What an event shows (R55) -/

theorem Cls.num_lt (c : Cls) : c.num < 4 := by cases c <;> decide

/-- The descriptor of an occurrence reads as the event. -/
theorem evqWord_reads {code cls rep : Nat} (hcode : code < 256) (hcls : cls < 4) (hrep : rep < 64) :
    evqWord code cls rep < 2 ^ 32 ∧ bit (evqWord code cls rep) 16 = true ∧ bits (evqWord code cls rep) 0 8 = code ∧
      bits (evqWord code cls rep) 8 2 = cls := by
  unfold evqWord bit bits
  rw [Nat.testBit_eq_decide_div_mod_eq, Nat.shiftRight_eq_div_pow, Nat.shiftRight_eq_div_pow]
  simp only [decide_eq_true_eq]
  omega

/-- An occurrence entered stands in entry 0 of the queue, whether it repeats the entry there or is new. -/
theorem Lane.evqEnter_reg (L : Lane) (b : Blk) (n code cls : Nat) :
    ∃ rep, rep < 64 ∧ (L.evqEnter b n code cls).reg (H.EVQ b) n 0 = evqWord code cls rep % 2 ^ 32 := by
  have apart : (H.EVQ b).addr n 0 ≠ (H.ESTAT b).addr n 0 := by simp [Reg.addr, H.EVQ, H.ESTAT]
  have time (M : Lane) (t : Word) : (M.setEvqTime b n 0 t).reg (H.EVQ b) n 0 = M.reg (H.EVQ b) n 0 := rfl
  have flag (M : Lane) : (M.estat b n 0x10).reg (H.EVQ b) n 0 = M.reg (H.EVQ b) n 0 := congrArg BitVec.toNat (M.estat_rd _ apart)
  have mark (M : Lane) (v : Nat) (q : List Nat) : ({ M.setReg (H.EVQ b) v n 0 with evqRead := q } : Lane).reg (H.EVQ b) n 0 = v % 2 ^ 32 :=
    M.reg_setReg_same _ _ _ _
  unfold Lane.evqEnter
  simp only [time]
  split
  · refine ⟨satU 63 _, ?_, Lane.reg_setReg_same _ _ _ _ _⟩
    unfold satU
    split <;> omega
  · refine ⟨1, by decide, ?_⟩
    split
    · rw [flag, mark]
    · rw [mark]

theorem Lane.estat_reg (L : Lane) (b : Blk) (n m : Nat) : (L.estat b n m).reg (H.ESTAT b) n 0 = (L.reg (H.ESTAT b) n 0 ||| m) % 2 ^ 32 :=
  L.reg_setReg_same (H.ESTAT b) _ n 0

/-- An event of a Hedge block reaches the Almanac with the next IRQ transfer: no register changes for it now (R518). -/
theorem Lane.almSee_rd_hedge (L : Lane) {e : Event} (n a : Nat) (h : e.blk.isHedge = true) : (L.almSee e n).rd a = L.rd a := by
  simp only [Lane.almSee, h, if_true]
  split <;> rfl

/-- The registers as a recorded event of a Hedge block leaves them: those of the queue's entry and ESTAT's class set. -/
theorem Lane.note_rd_hedge (L : Lane) {e : Event} (n a : Nat) (h : e.blk.isHedge = true) :
    (L.note e n).rd a = ((L.evqEnter e.blk n e.code e.cls.num).estat e.blk n (2 ^ e.cls.num)).rd a :=
  Lane.almSee_rd_hedge _ n a h

/-- A recorded event flags its class. -/
theorem Lane.note_flagged (L : Lane) {e : Event} (n : Nat) (h : e.blk.isHedge = true) : (L.note e n).flagged e n = true := by
  have hc := Cls.num_lt e.cls
  unfold Lane.flagged Lane.reg
  rw [Lane.note_rd_hedge _ _ _ h]
  change bit (Lane.reg _ (H.ESTAT e.blk) n 0) e.cls.num = true
  rw [Lane.estat_reg]
  rw [bit, Nat.testBit_mod_two_pow, Nat.testBit_lor, Nat.testBit_two_pow_self, Bool.or_true, Bool.and_true]
  exact decide_eq_true (by omega)

/-- A recorded event stands in entry 0 of its queue and flags its class. -/
theorem Lane.note_shows (L : Lane) {e : Event} (n : Nat) (h : e.blk.isHedge = true) (hcode : e.code < 256) :
    (L.note e n).shows e n = true := by
  obtain ⟨rep, hrep, hreg⟩ := L.evqEnter_reg e.blk n e.code e.cls.num
  obtain ⟨hlt, hvalid, hc, hk⟩ := evqWord_reads hcode (Cls.num_lt e.cls) hrep
  have apart : (H.EVQ e.blk).addr n 0 ≠ (H.ESTAT e.blk).addr n 0 := by simp [Reg.addr, H.EVQ, H.ESTAT]
  have hentry : (L.note e n).reg (H.EVQ e.blk) n 0 = evqWord e.code e.cls.num rep := by
    rw [Lane.reg, L.note_rd_hedge n _ h, Lane.estat_rd _ _ apart]
    exact hreg.trans (Nat.mod_eq_of_lt hlt)
  have hflag := L.note_flagged n h
  unfold Lane.flagged at hflag
  simp [Lane.shows, hentry, hflag, hvalid, hc, hk]

theorem Lane.shows_of_rd {L M : Lane} {e : Event} {n : Nat} (h : ∀ a, M.rd a = L.rd a) : M.shows e n = L.shows e n := by
  simp only [Lane.shows, Lane.reg, h]

end Sys2Proof.Machine
end

section
/-!
SUPPORT. A lane that leaves the vote (Tables 2.8 and 2.9): what it changes of the Hedge, and that every gate of it is off.
-/

namespace Sys2Proof.Machine

/-- What leaving the vote changes of the Hedge: NOVOTE in SDL_VSTAT, the gate registers and GD's events. -/
def leaveRegs : List Nat := R.SDL_VSTAT.addr 0 0 :: (gateRegs ++ evRegs .gd 0)

theorem removed_stopCause : stopCause F.GD_LSTOP_REMOVED := ⟨rfl, by decide, rfl⟩

theorem Lane.showNovote_only (L : Lane) : L.only [R.SDL_VSTAT.addr 0 0] L.showNovote :=
  L.only_put _ F.SDL_VSTAT_NOVOTE _ 0 0 (by decide)

@[simp] theorem Lane.showNovote_sdl (L : Lane) : L.showNovote.sdl = L.sdl := by rw [Lane.showNovote, Lane.putB, Lane.put_sdl]
@[simp] theorem Lane.showNovote_gate (L : Lane) : L.showNovote.gate = L.gate := by rw [Lane.showNovote, Lane.putB, Lane.put_gate]

theorem Lane.own_of_rd {L M : Lane} (hs : M.strap = L.strap) (h : M.rd (R.OZL_LSTATE.addr 0 0) = L.rd (R.OZL_LSTATE.addr 0 0)) :
    M.own = L.own := by
  unfold Lane.own
  rw [hs]
  cases L.strap <;> exact Lane.get_of_rd h

theorem Lane.own_of_only {L M : Lane} {K : List Nat} (h : L.only K M) (hk : R.OZL_LSTATE.addr 0 0 ∉ K) : M.own = L.own :=
  Lane.own_of_rd h.1 (h.2.2 _ hk)

/-- A lane's own state set reads as set. -/
theorem Lane.own_setStOf (L : Lane) {v : Nat} (hv : v < 8) : (L.setStOf L.strap v).own = v := by
  have hput (f : Fld) (hw : f.lo + f.w ≤ 32) (h3 : f.w = 3) : (L.put f v).get f = v := by
    rw [L.get_put_same f v 0 0 hw, h3]
    exact Nat.mod_eq_of_lt hv
  unfold Lane.own Lane.setStOf
  cases h : L.strap <;> simp only [Lane.put_strap, h, Lane.stOf] <;> exact hput _ (by decide) rfl

/-- The lane out of the membership, its state set and no graft phase in progress: a change within the logic die. -/
theorem Lane.leave_hedgeKept (L : Lane) (st : Nat) : L.hedgeKept ((L.outOfMembers.setStOf L.strap st).put F.OZL_GRAFT_PHASE 0) :=
  Lane.hedgeKept_trans L.outOfMembers_hedgeKept (Lane.hedgeKept_trans (Lane.setStOf_hedgeKept _ _ st) (Lane.put_hedgeKept _ _ 0 0 0 (by decide)))

/-- EXCLUDED is a change within the logic die, lane stop REMOVED, and NOVOTE. -/
theorem Lane.exclude_eq (L : Lane) (atOnce : Bool) :
    ∃ K, L.exclude atOnce = (K.laneStop F.GD_LSTOP_REMOVED).showNovote ∧ L.hedgeKept K ∧ K.own = 3 := by
  refine ⟨_, rfl, Lane.hedgeKept_trans (L.leave_hedgeKept 3) (Lane.onOzl_hedgeKept _ _), ?_⟩
  have hstrap : L.outOfMembers.strap = L.strap := L.outOfMembers_hedgeKept.1.1
  have hset : (L.outOfMembers.setStOf L.strap 3).own = 3 := by rw [← hstrap]; exact L.outOfMembers.own_setStOf (by decide)
  have hphase (K : Lane) : (K.put F.OZL_GRAFT_PHASE 0).own = K.own :=
    Lane.own_of_only (K.only_put [R.OZL_GRAFT.addr 0 0] F.OZL_GRAFT_PHASE 0 0 0 (by decide)) (by decide)
  have hozl (K : Lane) (f : OzlSt → OzlSt) : (K.onOzl f).own = K.own := Lane.own_of_rd (K.onOzl_strap f) (K.onOzl_rd f _)
  exact (hozl _ _).trans ((hphase _).trans hset)

/-- PRUNED is a change within the logic die, lane stop REMOVED, and NOVOTE. -/
theorem Lane.pruneLane_eq (L : Lane) : ∃ K, L.pruneLane = (K.laneStop F.GD_LSTOP_REMOVED).showNovote ∧ L.hedgeKept K :=
  ⟨_, rfl, L.leave_hedgeKept 4⟩

theorem Lane.removedStop_hedgeOnly (K : Lane) : K.hedgeOnly leaveRegs (K.laneStop F.GD_LSTOP_REMOVED).showNovote :=
  Lane.hedgeOnly_trans
    (Lane.hedgeOnly_mono (Lane.hedgeOnly_of_only (K.laneStop_only removed_stopCause) (K.laneStop_sdl _)) fun _ ha => List.mem_cons_of_mem _ ha)
    (Lane.hedgeOnly_mono (Lane.hedgeOnly_of_only (Lane.showNovote_only _) (Lane.showNovote_sdl _)) fun _ ha =>
      List.mem_cons.2 (.inl (List.mem_singleton.1 ha)))

theorem Lane.exclude_hedgeOnly (L : Lane) (atOnce : Bool) : L.hedgeOnly leaveRegs (L.exclude atOnce) := by
  obtain ⟨K, h, hk, -⟩ := L.exclude_eq atOnce
  rw [h]
  exact Lane.hedgeOnly_trans (hk.hedgeOnly _) K.removedStop_hedgeOnly

/-- A lane excluded stands in state 3. -/
theorem Lane.exclude_own (L : Lane) (atOnce : Bool) : (L.exclude atOnce).own = 3 := by
  obtain ⟨K, h, -, hown⟩ := L.exclude_eq atOnce
  rw [h, Lane.own_of_only (Lane.showNovote_only _) (by decide), Lane.own_of_only (K.laneStop_only removed_stopCause) (by decide), hown]

/-- Exclusion turns no switch on. -/
theorem Lane.exclude_allOff (L : Lane) (atOnce : Bool) (hoff : L.allOff) : (L.exclude atOnce).allOff := by
  obtain ⟨K, h, hk, -⟩ := L.exclude_eq atOnce
  rw [h, Lane.allOff, Lane.showNovote_gate]
  exact K.laneStop_allOff removed_stopCause (.inr (by rw [Lane.allOff, hk.2]; exact hoff))

/-- Exclusion clears no lane stop cause. -/
theorem Lane.exclude_get_cause (L : Lane) (atOnce : Bool) {d : Fld} (hd : stopCause d) (hne : d ≠ F.GD_LSTOP_REMOVED) :
    (L.exclude atOnce).get d = L.get d := by
  obtain ⟨K, h, hk, -⟩ := L.exclude_eq atOnce
  rw [h, Lane.get_of_rd ((Lane.showNovote_only _).2.2 _ (by rw [hd.1]; decide)), K.laneStop_get_cause removed_stopCause hd, if_neg hne]
  exact Lane.get_of_rd (hk.1.2.2 _ (by rw [hd.1]; decide) List.not_mem_nil)

end Sys2Proof.Machine
end

section
/-!
SUPPORT. The Saddle's decision (R76 to R80, R86 to R91, Table 2.7) by cases, and what its output keeps once it is issued.
-/

namespace Sys2Proof.Machine

/-! ### What stays after the output is issued -/

/-- The decision's output, its mode and the last agreed values stay. -/
def Lane.voteKept (L M : Lane) : Prop :=
  (M.sdl.decided = L.sdl.decided ∧ M.sdl.voted = L.sdl.voted ∧ M.sdl.vrefOut = L.sdl.vrefOut ∧ M.sdl.agreed = L.sdl.agreed) ∧
    M.get F.SDL_VSTAT_MODE = L.get F.SDL_VSTAT_MODE

theorem Lane.voteKept_refl (L : Lane) : L.voteKept L := ⟨⟨rfl, rfl, rfl, rfl⟩, rfl⟩

theorem Lane.voteKept_trans {L M N : Lane} (h : L.voteKept M) (g : M.voteKept N) : L.voteKept N := by
  obtain ⟨⟨h1, h2, h3, h4⟩, h5⟩ := h
  obtain ⟨⟨g1, g2, g3, g4⟩, g5⟩ := g
  exact ⟨⟨g1.trans h1, g2.trans h2, g3.trans h3, g4.trans h4⟩, g5.trans h5⟩

theorem Lane.voteKept_ite {L M N : Lane} {c : Prop} [Decidable c] (h : L.voteKept M) (g : L.voteKept N) :
    L.voteKept (if c then M else N) := by split <;> assumption

/-- A change that leaves the Saddle's hidden state and the mode alone keeps the vote. -/
theorem Lane.voteKept_of_sdl {L M : Lane} (hs : M.sdl = L.sdl) (hm : M.get F.SDL_VSTAT_MODE = L.get F.SDL_VSTAT_MODE) : L.voteKept M := by
  refine ⟨?_, hm⟩
  rw [hs]
  exact ⟨rfl, rfl, rfl, rfl⟩

theorem Lane.voteKept_of_hedgeOnly {L M : Lane} {K : List Nat} (h : L.hedgeOnly K M) (hk : R.SDL_VSTAT.addr 0 0 ∉ K) : L.voteKept M :=
  Lane.voteKept_of_sdl h.2.1 (Lane.get_of_rd (h.2.2 _ (by decide) hk))

theorem Lane.hedgeKept.voteKept {L M : Lane} (h : L.hedgeKept M) : L.voteKept M := Lane.voteKept_of_hedgeOnly h.1 List.not_mem_nil

theorem Lane.showNovote_voteKept (L : Lane) : L.voteKept L.showNovote :=
  Lane.voteKept_of_sdl L.showNovote_sdl (L.get_put_disjoint F.SDL_VSTAT_NOVOTE F.SDL_VSTAT_MODE _ 0 0 rfl (by decide) (by decide))

theorem Lane.removedStop_voteKept (K : Lane) : K.voteKept (K.laneStop F.GD_LSTOP_REMOVED).showNovote :=
  Lane.voteKept_trans (Lane.voteKept_of_hedgeOnly (Lane.hedgeOnly_of_only (K.laneStop_only removed_stopCause) (K.laneStop_sdl _)) (by decide))
    (Lane.showNovote_voteKept _)

theorem Lane.exclude_voteKept (L : Lane) (atOnce : Bool) : L.voteKept (L.exclude atOnce) := by
  obtain ⟨K, h, hk, -⟩ := L.exclude_eq atOnce
  rw [h]
  exact Lane.voteKept_trans hk.voteKept K.removedStop_voteKept

theorem Lane.pruneLane_voteKept (L : Lane) : L.voteKept L.pruneLane := by
  obtain ⟨K, h, hk⟩ := L.pruneLane_eq
  rw [h]
  exact Lane.voteKept_trans hk.voteKept K.removedStop_voteKept

/-- A failed graft is a change within the logic die, and then PRUNED or EXCLUDED. -/
theorem Lane.failGraft_eq (L : Lane) : ∃ K, L.hedgeKept K ∧ (L.failGraft = K.pruneLane ∨ L.failGraft = K.exclude) := by
  unfold Lane.failGraft
  dsimp only
  refine ⟨_, ?_, ite_eq_or_eq _ _ _⟩
  have counted : L.hedgeKept (L.incSat F.OZL_GRAFT_ATTEMPTS) := L.put_hedgeKept F.OZL_GRAFT_ATTEMPTS _ 0 0 (by decide)
  refine Lane.hedgeKept_trans counted (Lane.hedgeKept_trans (Lane.put_hedgeKept _ F.OZL_GRAFT_FAILPH (L.get F.OZL_GRAFT_PHASE) 0 0 (by decide)) ?_)
  exact Lane.hedgeKept_trans (Lane.note_hedgeKept _ Ev.OZL_GRAFT_FAIL rfl) (Lane.onOzl_hedgeKept _ _)

theorem Lane.failGraft_voteKept (L : Lane) : L.voteKept L.failGraft := by
  obtain ⟨K, hk, h | h⟩ := L.failGraft_eq <;> rw [h]
  · exact Lane.voteKept_trans hk.voteKept K.pruneLane_voteKept
  · exact Lane.voteKept_trans hk.voteKept (K.exclude_voteKept false)

/-- The own lane's removal keeps the vote's output (R80). -/
theorem Lane.removeOwn_voteKept (L : Lane) : L.voteKept L.removeOwn := by
  have noted : L.voteKept (L.note Ev.SDL_LANE_REMOVED) :=
    Lane.voteKept_of_hedgeOnly (Lane.hedgeOnly_of_only (L.note_only _ 0) (L.note_sdl _ 0)) (by decide)
  exact Lane.voteKept_trans noted (Lane.voteKept_trans (Lane.outOfVote_hedgeKept _).voteKept (Lane.exclude_voteKept _ _))

/-! ### TRANSIENT events of the Saddle (R378) -/

theorem Lane.hedgeOnly_put (L : Lane) (K : List Nat) (f : Fld) (v n i : Nat) (h : f.reg.addr n i ∈ K) : L.hedgeOnly K (L.put f v n i) :=
  Lane.hedgeOnly_of_only (L.only_put K f v n i h) rfl

theorem Lane.hedgeOnly_ite {L M N : Lane} {K : List Nat} {c : Prop} [Decidable c] (h : L.hedgeOnly K M) (g : L.hedgeOnly K N) :
    L.hedgeOnly K (if c then M else N) := by split <;> assumption

/-- A change of the tokens shows in SDL's bucket count alone. -/
theorem Lane.lbShow_sdl_hedgeOnly (L : Lane) (ts : List Token) :
    L.hedgeOnly (tokRegs .sdl 0) (({ L with tokens := ts } : Lane).lbShow .sdl 0) := by
  unfold Lane.lbShow
  rw [if_neg (by decide)]
  exact Lane.hedgeOnly_put { L with tokens := ts } _ ⟨H.LBCFG .sdl, 24, 6⟩ _ 0 0 (List.mem_cons_self ..)

theorem Lane.note_sdl_hedgeOnly (L : Lane) {e : Event} (h : e.blk = .sdl) : L.hedgeOnly (tokRegs .sdl 0) (L.note e 0) :=
  Lane.hedgeOnly_mono (Lane.hedgeOnly_of_only (L.note_only e 0) (L.note_sdl e 0)) fun _ ha => List.mem_cons_of_mem _ (h ▸ ha)

theorem Lane.lbAdd_sdl_hedgeOnly (L : Lane) (sub : Nat) : L.hedgeOnly (tokRegs .sdl 0) (L.lbAdd .sdl 0 sub) :=
  Lane.hedgeOnly_trans (M := L.lbExpire .sdl 0) (L.lbShow_sdl_hedgeOnly _) (Lane.lbShow_sdl_hedgeOnly _ _)

theorem Lane.lbEmpty_sdl_hedgeOnly (L : Lane) (sub : Nat) : L.hedgeOnly (tokRegs .sdl 0) (L.lbEmpty .sdl 0 sub) :=
  L.lbShow_sdl_hedgeOnly _

/-- A TRANSIENT event: recorded and put into the own record, with a token where its element counts, with the promotion where the bucket
is full (R378). -/
theorem Lane.transientRaw_cases (L : Lane) (e : Event) (n sub : Nat) :
    ∃ K, K = (L.note e n).onOzl (fun o => { o with scoreAt := L.now :: o.scoreAt }) ∧
      ((L.transientRaw e n sub).1 = K ∨ (L.transientRaw e n sub).1 = K.lbAdd e.blk n sub ∨
        (L.transientRaw e n sub).1 =
          (((K.lbAdd e.blk n sub).estat e.blk n 0x20).note (Ev.LB_PROMOTED e.blk) n).lbEmpty e.blk n sub) := by
  refine ⟨_, rfl, ?_⟩
  unfold Lane.transientRaw
  dsimp only
  split
  · split
    · exact .inr (.inr rfl)
    · exact .inr (.inl rfl)
  · exact .inl rfl

theorem Lane.transientRaw_sdl_hedgeOnly (L : Lane) {e : Event} (h : e.blk = .sdl) :
    L.hedgeOnly (tokRegs .sdl 0) (L.transientRaw e 0 0).1 := by
  obtain ⟨K, hK, hcases⟩ := L.transientRaw_cases e 0 0
  rw [h] at hcases
  have noted : L.hedgeOnly (tokRegs .sdl 0) K := by rw [hK]; exact L.note_sdl_hedgeOnly h
  have added := Lane.hedgeOnly_trans noted (K.lbAdd_sdl_hedgeOnly 0)
  rcases hcases with hc | hc | hc <;> rw [hc]
  · exact noted
  · exact added
  · have full (M : Lane) : M.hedgeOnly (tokRegs .sdl 0) (M.estat .sdl 0 0x20) :=
      Lane.hedgeOnly_of_only (M.only_raise _ (H.ESTAT .sdl) 0x20 0 0 (by decide)) rfl
    have promoted := Lane.note_sdl_hedgeOnly ((K.lbAdd .sdl 0 0).estat .sdl 0 0x20) (e := Ev.LB_PROMOTED .sdl) rfl
    exact Lane.hedgeOnly_trans added (Lane.hedgeOnly_trans (full _) (Lane.hedgeOnly_trans promoted (Lane.lbEmpty_sdl_hedgeOnly _ 0)))

/-- A TRANSIENT event of the Saddle concerns no element: a promotion prunes nothing, and only SDL's event registers change. -/
theorem Lane.transient_sdl_hedgeOnly (L : Lane) {e : Event} (h : e.blk = .sdl) : L.hedgeOnly (tokRegs .sdl 0) (L.transient e) := by
  have raw := L.transientRaw_sdl_hedgeOnly h
  unfold Lane.transient
  rw [h]
  exact Lane.hedgeOnly_ite raw raw

end Sys2Proof.Machine
end

section
/-!
SUPPORT. The Saddle's decision (R76 to R80, R86 to R91, Table 2.7) case by case: what it issues, and that what follows keeps it.
-/

namespace Sys2Proof.Machine

/-! ### After the output is issued -/

/-- MINORITY recorded and, a second time within 16 votes, the lane removed: the vote's output stays (R80). -/
theorem Lane.ownMinority_voteKept (L : Lane) (m : Nat) : L.voteKept (L.ownMinority m) := by
  have recorded : L.voteKept (L.transient Ev.SDL_MINORITY) := Lane.voteKept_of_hedgeOnly (L.transient_sdl_hedgeOnly rfl) (by decide)
  exact Lane.voteKept_ite (Lane.voteKept_ite (Lane.voteKept_trans recorded (Lane.removeOwn_voteKept _)) recorded) L.voteKept_refl

theorem Lane.decideStop_voteKept (L : Lane) (i : Nat) : L.voteKept (L.decideStop i) :=
  Lane.voteKept_ite ⟨⟨rfl, rfl, rfl, rfl⟩, rfl⟩ L.voteKept_refl

theorem Lane.stopDecisions_voteKept (L : Lane) : L.voteKept L.stopDecisions := by
  have one (K : Lane) (x : LaneId) (c : Bool) : K.voteKept (if c then K.decideStop (peerIdx L.strap x) else K) :=
    Lane.voteKept_ite (K.decideStop_voteKept _) K.voteKept_refl
  exact Lane.voteKept_trans (one L _ _) (one _ _ _)

theorem Lane.shadowVote_voteKept (L : Lane) (r : Refs) : L.voteKept (L.shadowVote r) := by
  unfold Lane.shadowVote
  refine Lane.voteKept_ite ?_ L.voteKept_refl
  split
  · exact Lane.voteKept_ite (Lane.onOzl_hedgeKept _ _).voteKept (Lane.voteKept_ite
      (Lane.voteKept_trans (Lane.onOzl_hedgeKept _ _).voteKept (Lane.failGraft_voteKept _)) (Lane.onOzl_hedgeKept _ _).voteKept)
  · exact L.voteKept_refl

/-! ### The output issued -/

/-- The decision is made, and the lane's Hedge outputs `r` (Table 2.7). -/
def Lane.issued (M : Lane) (r : Refs) : Prop := M.sdl.decided = true ∧ M.sdl.voted = some r ∧ M.sdl.vrefOut = some r

theorem Lane.issued.of_voteKept {L M : Lane} {r : Refs} (h : L.issued r) (hk : L.voteKept M) : M.issued r := by
  obtain ⟨h1, h2, h3⟩ := h
  obtain ⟨⟨k1, k2, k3, -⟩, -⟩ := hk
  exact ⟨k1.trans h1, k2.trans h2, k3.trans h3⟩

theorem Lane.issue_sdl (L : Lane) (r : Refs) (agreed : Bool) (mode : Nat) : (L.issue r agreed mode).sdl = { L.sdl with
    voted := some r, vrefOut := some r, decided := true, agreed := if agreed then some r else L.sdl.agreed } := rfl

theorem Lane.issue_issued (L : Lane) (r : Refs) (agreed : Bool) (mode : Nat) : (L.issue r agreed mode).issued r := by
  rw [Lane.issued, L.issue_sdl]
  exact ⟨rfl, rfl, rfl⟩

theorem Lane.issue_mode (L : Lane) (r : Refs) (agreed : Bool) {mode : Nat} (h : mode < 4) :
    (L.issue r agreed mode).get F.SDL_VSTAT_MODE = mode := by
  unfold Lane.issue
  exact (Lane.get_put_same _ F.SDL_VSTAT_MODE mode 0 0 (by decide)).trans (Nat.mod_eq_of_lt h)

theorem Lane.freeze_issued (L : Lane) (mode : Nat) : ∃ r, (L.freeze mode).issued r := by
  unfold Lane.freeze
  dsimp only
  split
  · exact ⟨_, Lane.issue_issued _ _ _ _⟩
  · exact ⟨_, Lane.issue_issued _ _ _ _⟩

/-- What the Saddle's hidden state holds beside the output leaves the output alone. -/
theorem Lane.issued.onSdl {L : Lane} {r : Refs} (h : L.issued r) {f : SdlSt → SdlSt}
    (hf : ∀ d, (f d).decided = d.decided ∧ (f d).voted = d.voted ∧ (f d).vrefOut = d.vrefOut) : (L.onSdl f).issued r := by
  obtain ⟨f1, f2, f3⟩ := hf L.sdl
  obtain ⟨h1, h2, h3⟩ := h
  exact ⟨f1.trans h1, f2.trans h2, f3.trans h3⟩

theorem Lane.disagree_issued (L : Lane) (mode : Nat) : ∃ r, (L.disagree mode).issued r := by
  obtain ⟨r, h⟩ := L.freeze_issued mode
  exact ⟨r, h.onSdl fun _ => ⟨rfl, rfl, rfl⟩⟩

theorem Lane.zeroVote_issued (L : Lane) (mode : Nat) : ∃ r, (L.zeroVote mode).issued r := ⟨_, Lane.issue_issued _ _ _ _⟩

/-- Without a peer cell the lane outputs its own references, zero torque, or the last agreed values (R90, R91). -/
theorem Lane.noPeerVote_issued (L : Lane) : ∃ r, L.noPeerVote.issued r := by
  unfold Lane.noPeerVote
  dsimp only
  split
  · split
    · exact ⟨_, Lane.issue_issued _ _ _ _⟩
    · exact ⟨_, Lane.issue_issued _ _ _ _⟩
  · split
    · split
      · exact Lane.freeze_issued _ _
      · obtain ⟨r, h⟩ := Lane.zeroVote_issued (L.onSdl fun d => { d with noPeer := L.sdl.noPeer + 1 }) 0
        exact ⟨r, h.onSdl fun _ => ⟨rfl, rfl, rfl⟩⟩
    · split
      · exact ⟨_, Lane.issue_issued _ _ _ _⟩
      · exact ⟨_, Lane.issue_issued _ _ _ _⟩

/-- Among counted cells there is one that continues (Table 2.6). -/
theorem resolveWinner_isSome (done : LaneId → Nat) {cs : List (LaneId × VoteCell)} (h : cs ≠ []) : ∃ w, resolveWinner done cs = some w := by
  unfold resolveWinner
  split
  · exact ⟨_, rfl⟩
  · cases cs with
    | nil => exact absurd rfl h
    | cons c t => exact ⟨_, rfl⟩

/-- The second vote after a disagreement outputs the voted references or the winner's (Table 2.6). -/
theorem Lane.resolveVote_issued (L : Lane) (done : LaneId → Nat) {cs : List (LaneId × VoteCell)} (voted : Option Refs) (mode : Nat)
    (h : cs ≠ []) : ∃ r, (L.resolveVote done cs voted mode).issued r := by
  obtain ⟨w, hw⟩ := resolveWinner_isSome done h
  unfold Lane.resolveVote
  rw [hw]
  dsimp only
  split
  · exact ⟨_, Lane.issue_issued _ _ _ _⟩
  · rename_i hnone
    exact absurd hnone (by simp)
  · split
    · exact ⟨_, (Lane.issue_issued _ _ _ _).of_voteKept (Lane.removeOwn_voteKept _)⟩
    · exact ⟨_, Lane.issue_issued _ _ _ _⟩

/-! ### The decision by cases -/

/-- The counted cells with their lanes, in the order A, B, C (R75). -/
def Lane.countedCells (L : Lane) : List (LaneId × VoteCell) := LaneId.all.filterMap fun x => (L.counted x).map fun c => (x, c)

/-- What the vote over the counted cells comes to, with the lane's bands (R76 to R79). -/
def Lane.voteResult (L : Lane) : Option Refs × Nat × Bool :=
  voteOver (L.get F.SDL_BAND_TQ_BAND) (L.get F.SDL_BAND_FX_BAND) L.countedCells

/-- What follows the output: the stop decisions, the shadow vote of a graft, NOVOTE shown. -/
def Lane.afterVote (K : Lane) : Lane := (K.stopDecisions.shadowVote (K.sdl.voted.getD noRefs)).showNovote

theorem Lane.afterVote_voteKept (K : Lane) : K.voteKept K.afterVote :=
  Lane.voteKept_trans (Lane.voteKept_trans K.stopDecisions_voteKept (Lane.shadowVote_voteKept _ _)) (Lane.showNovote_voteKept _)

/-- The mode a vote of two or three cells shows (R76). -/
def Lane.voteMode (L : Lane) : Nat := if L.countedCells.length = 3 then 1 else 2

/-- The vote's bookkeeping, before anything is output: who is out of it and present, the minorities, VOTE_FAIL (R75, R79 to R81). -/
def Lane.bookVote (L : Lane) : Lane :=
  let L1 := ((L.outPush.put F.SDL_VSTAT_PRESENT (L.countedCells.foldl (fun m x => m + 2 ^ x.1.idx) 0)).putB F.SDL_VSTAT_VFAIL
    L.voteResult.2.2).minPush L.voteResult.2.1
  if L.voteResult.2.2 then L1.note Ev.SDL_VOTE_FAIL else L1

/-- The vote's output over two or three counted cells: the hold of the first vote after a disagreement, Table 2.6 in the second one, else
the voted references, or the freeze of a new disagreement. -/
def Lane.cellVote (L : Lane) (done : LaneId → Nat) : Lane :=
  let M := L.bookVote.onSdl (fun d => { d with noPeer := 0, splitDue := false })
  if L.sdl.resolving && L.get F.SDL_VSTAT_FRZCNT == 1 then M.freeze L.voteMode
  else if L.sdl.resolving && decide (2 ≤ L.get F.SDL_VSTAT_FRZCNT) then
    M.resolveVote done L.countedCells L.voteResult.1 L.voteMode
  else match L.voteResult.1 with
    | some r => (M.thaw.issue r true L.voteMode).ownMinority L.voteResult.2.1
    | none => M.disagree L.voteMode

/-- The Saddle's decision in these terms. -/
theorem Lane.saddle_eq (L : Lane) (done : LaneId → Nat) :
    L.saddle done = (if L.countedCells.length < 2 then L.bookVote.noPeerVote else L.cellVote done).afterVote := rfl

/-- Outside a resolution a vote that stands issues its references (R76 to R78). -/
theorem Lane.saddle_of_stands {L : Lane} (done : LaneId → Nat) {r : Refs} (h2 : 2 ≤ L.countedCells.length)
    (hres : L.sdl.resolving = false) (hr : L.voteResult.1 = some r) :
    ∃ K : Lane, L.saddle done = ((K.issue r true L.voteMode).ownMinority L.voteResult.2.1).afterVote := by
  rw [L.saddle_eq, if_neg (by omega), Lane.cellVote, hres, hr]
  exact ⟨_, rfl⟩

theorem Lane.cellVote_issued (L : Lane) (done : LaneId → Nat) (h : L.countedCells ≠ []) : ∃ r, (L.cellVote done).issued r := by
  unfold Lane.cellVote
  dsimp only
  split
  · exact Lane.freeze_issued _ _
  · split
    · exact Lane.resolveVote_issued _ done _ _ h
    · split
      · exact ⟨_, (Lane.issue_issued _ _ _ _).of_voteKept (Lane.ownMinority_voteKept _ _)⟩
      · exact Lane.disagree_issued _ _

/-- Every decision issues references (R76). -/
theorem Lane.saddle_issued (L : Lane) (done : LaneId → Nat) : ∃ r, (L.saddle done).issued r := by
  rw [L.saddle_eq]
  split
  · obtain ⟨r, h⟩ := L.bookVote.noPeerVote_issued
    exact ⟨r, h.of_voteKept (Lane.afterVote_voteKept _)⟩
  · rename_i h2
    obtain ⟨r, h⟩ := L.cellVote_issued done fun h0 => h2 (by simp [h0])
    exact ⟨r, h.of_voteKept (Lane.afterVote_voteKept _)⟩

/-- The references of a vote that stands are issued as agreed, in the mode of as many lanes as count (R76, R78, R86). -/
theorem Lane.saddle_stands {L : Lane} (done : LaneId → Nat) {r : Refs} (h2 : 2 ≤ L.countedCells.length)
    (hres : L.sdl.resolving = false) (hr : L.voteResult.1 = some r) :
    (L.saddle done).issued r ∧ (L.saddle done).sdl.agreed = some r ∧ (L.saddle done).get F.SDL_VSTAT_MODE = L.voteMode := by
  obtain ⟨K, hK⟩ := Lane.saddle_of_stands done h2 hres hr
  have hmode : L.voteMode < 4 := by unfold Lane.voteMode; split <;> omega
  have kept : (K.issue r true L.voteMode).voteKept (L.saddle done) := by
    rw [hK]
    exact Lane.voteKept_trans (Lane.ownMinority_voteKept _ _) (Lane.afterVote_voteKept _)
  refine ⟨(K.issue_issued r true L.voteMode).of_voteKept kept, ?_, kept.2.trans (K.issue_mode r true hmode)⟩
  rw [kept.1.2.2.2, K.issue_sdl]
  rfl

end Sys2Proof.Machine
end

section
/-!
SUPPORT. The voted values (R78): medians, means and the values that two cells share.
-/

namespace Sys2Proof.Machine

/-! ### Number formats (R6, R7) -/

theorem q15_bounds (h : Half) : -32768 ≤ q15 h ∧ q15 h ≤ 32767 := by
  have h1 := BitVec.toInt_lt (x := h)
  have h2 := BitVec.le_toInt (x := h)
  unfold q15
  omega

/-- A value in range survives Q1.15. -/
theorem q15_toQ15 {x : Int} (h : -32768 ≤ x ∧ x ≤ 32767) : q15 (toQ15 x) = x := by
  have hsat : satS 16 x = x := by
    unfold satS clampI
    split
    · omega
    · split <;> omega
  rw [toQ15, hsat, q15, BitVec.toInt_ofInt]
  exact Int.bmod_eq_of_le (by omega) (by omega)

/-- The median of three Q1.15 values is one (R78). -/
theorem q15_toQ15_median3 (a b c : Half) : q15 (toQ15 (median3 (q15 a) (q15 b) (q15 c))) = median3 (q15 a) (q15 b) (q15 c) := by
  have ha := q15_bounds a
  have hb := q15_bounds b
  have hc := q15_bounds c
  refine q15_toQ15 ?_
  unfold median3
  omega

/-- The mean of two Q1.15 values is one (R78). -/
theorem q15_toQ15_mean2 (a b : Half) : q15 (toQ15 (mean2 (q15 a) (q15 b))) = mean2 (q15 a) (q15 b) := by
  have ha := q15_bounds a
  have hb := q15_bounds b
  have hsum := Int.mul_tdiv_add_tmod (q15 a + q15 b) 2
  have hlo := Int.lt_tmod_of_pos (q15 a + q15 b) (b := 2) (by decide)
  have hhi := Int.tmod_lt_of_pos (q15 a + q15 b) (b := 2) (by decide)
  refine q15_toQ15 ?_
  unfold mean2
  omega

/-! ### Lists voted place by place -/

/-- Each place of a vote over lists is the vote of that place. -/
theorem vote3_getD {α : Type} (f : α → α → α → α × Nat) (d : α) : ∀ (as bs cs : List α) (k : Nat), k < as.length →
    as.length = bs.length → as.length = cs.length → (vote3 f as bs cs).1.getD k d = (f (as.getD k d) (bs.getD k d) (cs.getD k d)).1
  | [], _, _, _, hk, _, _ => absurd hk (Nat.not_lt_zero _)
  | a :: as, b :: bs, c :: cs, 0, _, _, _ => rfl
  | a :: as, b :: bs, c :: cs, k + 1, hk, hb, hc => by
    simp only [List.length_cons, Nat.add_right_cancel_iff, Nat.add_lt_add_iff_right] at hk hb hc
    simpa only [vote3, List.getD_cons_succ] using vote3_getD f d as bs cs k hk hb hc

/-! ### The discrete fields (Table 2.4) -/

/-- Discrete fields within their widths. -/
def discreteFits (d : List Nat) : Prop := ∃ a b c e g h i, d = [a, b, c, e, g, h, i] ∧ a < 4 ∧ b < 4 ∧ c < 8 ∧ e < 16 ∧ g < 16 ∧ h < 8 ∧ i < 8

theorem discretes_fits (r : Refs) : discreteFits (discretes r) :=
  ⟨_, _, _, _, _, _, _, rfl, r.level.isLt, r.share.isLt, r.member.isLt, r.ena.isLt, r.asc.isLt, r.leave.isLt, r.join.isLt⟩

/-- References built from discrete fields within their widths have these fields. -/
theorem discretes_mkRefs {d : List Nat} (h : discreteFits d) (tq fx : List Half) : discretes (mkRefs d tq fx) = d := by
  obtain ⟨a, b, c, e, g, h, i, rfl, ha, hb, hc, he, hg, hh, hi⟩ := h
  simp only [discretes, mkRefs, nthN, BitVec.toNat_ofNat, List.getD_cons_zero, List.getD_cons_succ]
  rw [Nat.mod_eq_of_lt ha, Nat.mod_eq_of_lt hb, Nat.mod_eq_of_lt hc, Nat.mod_eq_of_lt he, Nat.mod_eq_of_lt hg, Nat.mod_eq_of_lt hh,
    Nat.mod_eq_of_lt hi]

theorem voteD3_or (a b c : Nat) : (voteD3 a b c).1 = a ∨ (voteD3 a b c).1 = b := ite_eq_or_eq _ _ _

/-- A voted discrete field is one of the first two lanes' and within its width. -/
theorem voteD3_lt {a b c m : Nat} (ha : a < m) (hb : b < m) : (voteD3 a b c).1 < m := by
  rcases voteD3_or a b c with h | h <;> rw [h] <;> assumption

theorem vote3_fits {x y z : List Nat} (hx : discreteFits x) (hy : discreteFits y) (hz : discreteFits z) :
    discreteFits (vote3 voteD3 x y z).1 := by
  obtain ⟨a, b, c, e, g, h, i, rfl, ha, hb, hc, he, hg, hh, hi⟩ := hx
  obtain ⟨a', b', c', e', g', h', i', rfl, ha', hb', hc', he', hg', hh', hi'⟩ := hy
  obtain ⟨_, _, _, _, _, _, _, rfl, -⟩ := hz
  exact ⟨_, _, _, _, _, _, _, rfl, voteD3_lt ha ha', voteD3_lt hb hb', voteD3_lt hc hc', voteD3_lt he he', voteD3_lt hg hg',
    voteD3_lt hh hh', voteD3_lt hi hi'⟩

/-- The value at least two of three lanes hold wins (R78). -/
theorem voteD3_majority (a b c : Nat) : (a = b ∨ a = c → (voteD3 a b c).1 = a) ∧ (b = c → (voteD3 a b c).1 = b) := by
  unfold voteD3
  refine ⟨fun h => if_pos h, fun h => ?_⟩
  split
  · omega
  · rfl

/-! ### The two votes -/

/-- The 2oo3 vote of references (R78): the median of each analogue field, the value two lanes hold of each discrete one. -/
theorem refs3_votes (bt bf : Nat) {a b c : Refs} (ha : a.tq.length = 4) (hb : b.tq.length = 4) (hc : c.tq.length = 4)
    (ga : a.fx.length = 4) (gb : b.fx.length = 4) (gc : c.fx.length = 4) :
    (∀ k, k < 4 →
      q15 ((refs3 bt bf a b c).1.tq.getD k 0) = median3 (q15 (a.tq.getD k 0)) (q15 (b.tq.getD k 0)) (q15 (c.tq.getD k 0)) ∧
      q15 ((refs3 bt bf a b c).1.fx.getD k 0) = median3 (q15 (a.fx.getD k 0)) (q15 (b.fx.getD k 0)) (q15 (c.fx.getD k 0))) ∧
    ∀ k, k < 7 → nthN (discretes (refs3 bt bf a b c).1) k =
      (voteD3 (nthN (discretes a) k) (nthN (discretes b) k) (nthN (discretes c) k)).1 := by
  have analogue (band : Nat) (x y z : List Half) (hx : x.length = 4) (hy : y.length = 4) (hz : z.length = 4) (k : Nat) (hk : k < 4) :
      q15 ((vote3 (voteA3 band) x y z).1.getD k 0) = median3 (q15 (x.getD k 0)) (q15 (y.getD k 0)) (q15 (z.getD k 0)) := by
    rw [vote3_getD _ _ _ _ _ _ (by omega) (by omega) (by omega)]
    exact q15_toQ15_median3 _ _ _
  refine ⟨fun k hk => ⟨analogue bt _ _ _ ha hb hc k hk, analogue bf _ _ _ ga gb gc k hk⟩, fun k hk => ?_⟩
  have hd : discretes (refs3 bt bf a b c).1 = (vote3 voteD3 (discretes a) (discretes b) (discretes c)).1 :=
    discretes_mkRefs (vote3_fits (discretes_fits a) (discretes_fits b) (discretes_fits c)) _ _
  rw [hd]
  exact vote3_getD voteD3 0 _ _ _ _ hk rfl rfl

/-- The 2oo2 vote of references that agree (R78): their discrete fields, the mean of each analogue one. -/
theorem refs2_votes {a b : Refs} (ha : a.tq.length = 4) (hb : b.tq.length = 4) (ga : a.fx.length = 4) (gb : b.fx.length = 4) :
    discretes (refs2 a b) = discretes a ∧
    ∀ k, k < 4 → q15 ((refs2 a b).tq.getD k 0) = mean2 (q15 (a.tq.getD k 0)) (q15 (b.tq.getD k 0)) ∧
      q15 ((refs2 a b).fx.getD k 0) = mean2 (q15 (a.fx.getD k 0)) (q15 (b.fx.getD k 0)) := by
  have analogue (x y : List Half) (hx : x.length = 4) (hy : y.length = 4) (k : Nat) (hk : k < 4) :
      q15 (((x.zip y).map fun p => toQ15 (mean2 (q15 p.1) (q15 p.2))).getD k 0) = mean2 (q15 (x.getD k 0)) (q15 (y.getD k 0)) := by
    rw [← q15_toQ15_mean2]
    have hx' : k < x.length := by omega
    have hy' : k < y.length := by omega
    simp [hx', hy', List.getD_eq_getElem?_getD]
  exact ⟨discretes_mkRefs (discretes_fits a) _ _, fun k hk => ⟨analogue _ _ ha hb k hk, analogue _ _ ga gb k hk⟩⟩

/-! ### The counted cells -/

theorem Lane.countedCells_three {L : Lane} {a b c : VoteCell} (ha : L.counted .a = some a) (hb : L.counted .b = some b)
    (hc : L.counted .c = some c) : L.countedCells = [(.a, a), (.b, b), (.c, c)] := by
  simp [Lane.countedCells, LaneId.all, ha, hb, hc]

/-- Two lanes' cells count, the third's does not: the two in their order. -/
theorem Lane.countedCells_two {L : Lane} {x y z : LaneId} {a b : VoteCell}
    (hxyz : [x, y, z] ∈ [[LaneId.a, .b, .c], [.a, .c, .b], [.b, .c, .a]]) (ha : L.counted x = some a) (hb : L.counted y = some b)
    (hz : L.counted z = none) : L.countedCells = [(x, a), (y, b)] := by
  simp only [List.mem_cons, List.cons.injEq, and_true, List.not_mem_nil, or_false] at hxyz
  rcases hxyz with ⟨rfl, rfl, rfl⟩ | ⟨rfl, rfl, rfl⟩ | ⟨rfl, rfl, rfl⟩ <;> simp [Lane.countedCells, LaneId.all, ha, hb, hz]

/-! ### The command -/

/-- A command of one lane that runs where it is ready does to its lane what its function does. -/
theorem does_of_on {l : LaneId} {i : Instr} {c : Lane → Bool} {f : State → Lane → Lane} {p : Lane → Lane → Prop}
    (hexec : ∀ s, exec i s = s.on l c (f s)) (hready : ∀ L, i.ready L = true → c L = true)
    (hp : ∀ s, i.ready (s.lane l) = true → p (s.lane l) (f s (s.lane l))) : Does l i p :=
  fun s hr => ⟨_, (hexec s).trans (s.on_runs l (f s) (hready _ hr)), hp s hr⟩

theorem does_saddleDecision {l : LaneId} {p : Lane → Lane → Prop} (hp : ∀ L done, p L (L.saddle done)) : Does l (.saddleDecision l) p :=
  does_of_on (f := fun s L => L.saddle fun x => (s.lane x).ozl.fallowDone) (fun _ => rfl) (fun _ h => h) fun _ _ => hp _ _

/-- Settles O15: the decision issues what it decides; a vote that stands is `refs3` or `refs2` of the counted cells. -/
theorem votedValues : Obligations.VotedValues := by
  unfold Obligations.VotedValues
  refine ⟨fun l => ?_, fun l => ?_, fun l => ?_⟩
  · refine does_saddleDecision fun L done => ?_
    obtain ⟨r, hdec, hvoted, hvref⟩ := L.saddle_issued done
    exact ⟨hdec, r, hvoted, hvref⟩
  · refine does_saddleDecision fun L done a b c ha hb hc hres ha4 hb4 hc4 ga4 gb4 gc4 hvote => ?_
    have hcells := Lane.countedCells_three ha hb hc
    have hr : L.voteResult.1 = some (refs3 (L.get F.SDL_BAND_TQ_BAND) (L.get F.SDL_BAND_FX_BAND) a.refs b.refs c.refs).1 := by
      simp [Lane.voteResult, hcells, voteOver, hvote]
    obtain ⟨⟨hdec, hvoted, hvref⟩, -, hmode⟩ := Lane.saddle_stands done (by simp [hcells]) hres hr
    obtain ⟨hanalogue, hdiscrete⟩ := refs3_votes (L.get F.SDL_BAND_TQ_BAND) (L.get F.SDL_BAND_FX_BAND) ha4 hb4 hc4 ga4 gb4 gc4
    refine ⟨_, hvoted, hvref, hdec, by simpa [Lane.voteMode, hcells] using hmode, hanalogue, fun k hk => ?_⟩
    rw [hdiscrete k hk]
    exact voteD3_majority _ _ _
  · refine does_saddleDecision fun L done x y z a b hxyz ha hb hz hres ha4 hb4 ga4 gb4 hagree => ?_
    have hcells := Lane.countedCells_two hxyz ha hb hz
    have hr : L.voteResult.1 = some (refs2 a.refs b.refs) := by simp [Lane.voteResult, hcells, voteOver, hagree]
    obtain ⟨⟨-, hvoted, -⟩, hagreed, hmode⟩ := Lane.saddle_stands done (by simp [hcells]) hres hr
    exact ⟨_, hvoted, hagreed, by simpa [Lane.voteMode, hcells] using hmode, refs2_votes ha4 hb4 ga4 gb4⟩

end Sys2Proof.Machine
end

section
/-!
SUPPORT. Cross-inhibit (R82 to R84): the lines between the lanes and the registers that show them.
-/

namespace Sys2Proof.Machine

theorem xinh_stopCause : stopCause F.GD_LSTOP_XINH := ⟨rfl, by decide, rfl⟩

/-! ### The incoming lines -/

/-- An incoming line seen changes its own bit of SDL_XINH. -/
theorem Lane.setIn_only (L : Lane) (fromNext level : Bool) : L.only [R.SDL_XINH.addr 0 0] (L.setIn fromNext level) := by
  cases fromNext
  · exact L.only_put _ F.SDL_XINH_IN_PV (b2n level) 0 0 (by decide)
  · exact L.only_put _ F.SDL_XINH_IN_NX (b2n level) 0 0 (by decide)

theorem Lane.setIn_get (L : Lane) (fromNext level : Bool) :
    (L.setIn fromNext level).get (if fromNext then F.SDL_XINH_IN_NX else F.SDL_XINH_IN_PV) = b2n level := by
  have hlevel : b2n level % 2 = b2n level := by cases level <;> rfl
  cases fromNext
  · exact (L.get_put_same F.SDL_XINH_IN_PV (b2n level) 0 0 (by decide)).trans hlevel
  · exact (L.get_put_same F.SDL_XINH_IN_NX (b2n level) 0 0 (by decide)).trans hlevel

/-- The input at which lane `peer` sees lane `l`. -/
theorem State.seeXinh_lane (s : State) (l peer : LaneId) :
    (s.seeXinh l peer).lane peer = (s.lane peer).setIn (decide (peer ≠ l.next)) (s.xinhLine l peer) := s.lane_upd _ _

theorem State.seeXinh_lane_ne (s : State) {l peer x : LaneId} (h : x ≠ peer) : (s.seeXinh l peer).lane x = s.lane x := s.lane_upd_ne _ h

theorem State.seeXinh_pending (s : State) (l peer : LaneId) : (s.seeXinh l peer).pending = s.pending := s.upd_pending _ _

theorem State.seeXinh_get (s : State) (l peer : LaneId) :
    ((s.seeXinh l peer).lane peer).get (if peer = l.next then F.SDL_XINH_IN_PV else F.SDL_XINH_IN_NX) = b2n (s.xinhLine l peer) := by
  have h := (s.lane peer).setIn_get (decide (peer ≠ l.next)) (s.xinhLine l peer)
  rw [s.seeXinh_lane]
  by_cases hp : peer = l.next <;> simpa [hp] using h

theorem State.seeXinh_only (s : State) (l peer : LaneId) : (s.lane peer).only [R.SDL_XINH.addr 0 0] ((s.seeXinh l peer).lane peer) := by
  rw [s.seeXinh_lane]
  exact Lane.setIn_only _ _ _

/-! ### The line driven (R82) -/

/-- The output field toward a peer. -/
def xinhOutFld (l peer : LaneId) : Fld := if peer = l.next then F.SDL_XINH_OUT_NX else F.SDL_XINH_OUT_PV

theorem xinhOutFld_spec (l peer : LaneId) : (xinhOutFld l peer).reg = R.SDL_XINH ∧ (xinhOutFld l peer).lo + (xinhOutFld l peer).w ≤ 32 ∧
    (xinhOutFld l peer).w = 1 := by
  unfold xinhOutFld
  split <;> decide

/-- The output toward a peer reads as driven. -/
theorem Lane.get_putB_xinhOut (L : Lane) (l peer : LaneId) (level : Bool) :
    (L.putB (xinhOutFld l peer) level).get (xinhOutFld l peer) = b2n level := by
  obtain ⟨-, hle, hw⟩ := xinhOutFld_spec l peer
  rw [Lane.putB, L.get_put_same _ _ _ _ hle, hw]
  cases level <;> rfl

theorem Lane.xinhOut_eq {L : Lane} {l : LaneId} (peer : LaneId) (h : L.strap = l) : L.xinhOut peer = L.is (xinhOutFld l peer) := by
  rw [Lane.xinhOut, h, xinhOutFld]

theorem Lane.xinhOut_putB {L : Lane} {l : LaneId} (peer : LaneId) (level : Bool) (h : L.strap = l) :
    (L.putB (xinhOutFld l peer) level).xinhOut peer = level := by
  rw [Lane.xinhOut_eq peer (show (L.putB (xinhOutFld l peer) level).strap = l from h), Lane.is, Lane.get_putB_xinhOut]
  cases level <;> rfl

/-- A line that is not stuck carries what a running Hedge drives (R84). -/
theorem State.xinhLine_sound {s : State} {l peer : LaneId} (hup : (s.lane l).hedgeUp = true)
    (hstuck : (s.lane l).sdl.lineStuck.getD (peerIdx l peer) none = none) : s.xinhLine l peer = (s.lane l).xinhOut peer := by
  rw [State.xinhLine, hstuck, hup]
  rfl

theorem State.driveXinh_lane_self (s : State) {l peer : LaneId} (level : Bool) (h : peer ≠ l) :
    (s.driveXinh l peer level).lane l = (s.lane l).putB (xinhOutFld l peer) level := by
  rw [State.driveXinh, State.seeXinh_lane_ne _ (Ne.symm h), State.lane_upd, xinhOutFld]

theorem State.driveXinh_lane_ne (s : State) {l peer x : LaneId} (level : Bool) (hl : x ≠ l) (hp : x ≠ peer) :
    (s.driveXinh l peer level).lane x = s.lane x := by
  rw [State.driveXinh, State.seeXinh_lane_ne _ hp, State.lane_upd_ne _ _ hl]

theorem State.driveXinh_pending (s : State) (l peer : LaneId) (level : Bool) : (s.driveXinh l peer level).pending = s.pending :=
  (State.seeXinh_pending _ _ _).trans (s.upd_pending _ _)

theorem State.driveXinh_only_peer (s : State) {l peer : LaneId} (level : Bool) (h : peer ≠ l) :
    (s.lane peer).only [R.SDL_XINH.addr 0 0] ((s.driveXinh l peer level).lane peer) := by
  have hsee := (s.upd l fun L => L.putB (if peer = l.next then F.SDL_XINH_OUT_NX else F.SDL_XINH_OUT_PV) level).seeXinh_only l peer
  rwa [s.lane_upd_ne _ h] at hsee

/-- The peer's input follows a driven line that is not stuck. -/
theorem State.driveXinh_get_peer {s : State} {l peer : LaneId} (level : Bool) (hs : (s.lane l).strap = l)
    (hup : (s.lane l).hedgeUp = true) (hstuck : (s.lane l).sdl.lineStuck.getD (peerIdx l peer) none = none) :
    ((s.driveXinh l peer level).lane peer).get (if peer = l.next then F.SDL_XINH_IN_PV else F.SDL_XINH_IN_NX) = b2n level := by
  have hlane := s.lane_upd l fun L => L.putB (xinhOutFld l peer) level
  refine (State.seeXinh_get _ l peer).trans (congrArg b2n ?_)
  rw [State.xinhLine_sound (by rw [← xinhOutFld, hlane]; exact hup) (by rw [← xinhOutFld, hlane]; exact hstuck), ← xinhOutFld, hlane]
  exact Lane.xinhOut_putB peer level hs

/-! ### XINH_ASSERT (R82) -/

/-- The decision to stop a peer spent. -/
def Lane.spendDecision (L : Lane) (i : Nat) : Lane := L.onSdl fun d => { d with xDecide := d.xDecide.set i none }

/-- The line toward the peer driven by a spent decision, and recorded (R82). -/
def State.xinhAsserted (s : State) (l peer : LaneId) : State :=
  ((s.upd l (·.spendDecision (peerIdx l peer))).driveXinh l peer true).upd l (·.note Ev.SDL_XINH_ASSERT)

/-- A ready assertion spends the decision and, unless the peer reported HSTOP, drives the line and records it. -/
theorem exec_xinhAssert {s : State} {l peer : LaneId} (hr : Instr.ready (.xinhAssert l peer) (s.lane l) = true) :
    (s.lane l).hedgeUp = true ∧ (s.lane l).strap = l ∧ peer ≠ l ∧ exec (.xinhAssert l peer) s = .next
      (if nthB (s.lane l).sdl.hstopSeen (peerIdx l peer) then s.upd l (·.spendDecision (peerIdx l peer))
        else s.xinhAsserted l peer) := by
  change ((s.lane l).hedgeUp && decide ((s.lane l).strap = l) && decide (peer ≠ l) &&
    (match (s.lane l).sdl.xDecide.getD (peerIdx l peer) none with
      | some t => (s.lane l).since t (us 10)
      | none => false)) = true at hr
  simp only [Bool.and_eq_true, decide_eq_true_eq] at hr
  obtain ⟨⟨⟨hup, hs⟩, hp⟩, hdue⟩ := hr
  refine ⟨hup, hs, hp, ?_⟩
  change execXinhAssert l peer s = _
  unfold execXinhAssert
  dsimp only
  cases hd : (s.lane l).sdl.xDecide.getD (peerIdx l peer) none with
  | none => rw [hd] at hdue; exact absurd hdue Bool.false_ne_true
  | some t =>
    rw [hd] at hdue
    simp only [hup, hdue, hp, ne_eq, not_false_eq_true, decide_true, Bool.and_self, if_true]
    split <;> rfl

/-- What asserting leaves in the asserting lane. -/
theorem Lane.assert_spec (L : Lane) (l peer : LaneId) :
    ((L.putB (xinhOutFld l peer) true).note Ev.SDL_XINH_ASSERT).get (xinhOutFld l peer) = 1 ∧
      ((L.putB (xinhOutFld l peer) true).note Ev.SDL_XINH_ASSERT).shows Ev.SDL_XINH_ASSERT ∧
      L.only (R.SDL_XINH.addr 0 0 :: evRegs .sdl 0) ((L.putB (xinhOutFld l peer) true).note Ev.SDL_XINH_ASSERT) := by
  obtain ⟨hreg, -, -⟩ := xinhOutFld_spec l peer
  have hnote := (L.putB (xinhOutFld l peer) true).note_only Ev.SDL_XINH_ASSERT 0
  refine ⟨?_, Lane.note_shows _ 0 rfl (by decide), ?_⟩
  · rw [Lane.get_of_rd (hnote.2.2 _ (by rw [hreg]; decide)), Lane.get_putB_xinhOut]
    rfl
  · exact Lane.only_trans (L.only_put _ _ _ 0 0 (by rw [hreg]; exact List.mem_cons_self ..))
      (Lane.only_mono hnote fun _ ha => List.mem_cons_of_mem _ ha)

theorem State.xinhAsserted_lane_self (s : State) {l peer : LaneId} (h : peer ≠ l) : (s.xinhAsserted l peer).lane l =
    (((s.lane l).spendDecision (peerIdx l peer)).putB (xinhOutFld l peer) true).note Ev.SDL_XINH_ASSERT := by
  rw [State.xinhAsserted, State.lane_upd, State.driveXinh_lane_self _ true h, State.lane_upd]

theorem State.xinhAsserted_lane_ne (s : State) {l peer x : LaneId} (hl : x ≠ l) (hp : x ≠ peer) :
    (s.xinhAsserted l peer).lane x = s.lane x := by
  rw [State.xinhAsserted, State.lane_upd_ne _ _ hl, State.driveXinh_lane_ne _ true hl hp, State.lane_upd_ne _ _ hl]

theorem State.xinhAsserted_pending (s : State) (l peer : LaneId) : (s.xinhAsserted l peer).pending = s.pending := by
  rw [State.xinhAsserted, State.upd_pending, State.driveXinh_pending, State.upd_pending]

theorem State.xinhAsserted_only_peer (s : State) {l peer : LaneId} (h : peer ≠ l) :
    (s.lane peer).only [R.SDL_XINH.addr 0 0] ((s.xinhAsserted l peer).lane peer) := by
  have hdrive := (s.upd l (·.spendDecision (peerIdx l peer))).driveXinh_only_peer true h
  rw [s.lane_upd_ne _ h] at hdrive
  rwa [State.xinhAsserted, State.lane_upd_ne _ _ h]

/-- The peer sees the line asserted unless the line is stuck. -/
theorem State.xinhAsserted_get_peer {s : State} {l peer : LaneId} (h : peer ≠ l) (hs : (s.lane l).strap = l)
    (hup : (s.lane l).hedgeUp = true) (hstuck : (s.lane l).sdl.lineStuck.getD (peerIdx l peer) none = none) :
    ((s.xinhAsserted l peer).lane peer).get (if peer = l.next then F.SDL_XINH_IN_PV else F.SDL_XINH_IN_NX) = 1 := by
  have hself := s.lane_upd l (·.spendDecision (peerIdx l peer))
  rw [State.xinhAsserted, State.lane_upd_ne _ _ h]
  exact State.driveXinh_get_peer true (by rw [hself]; exact hs) (by rw [hself]; exact hup) (by rw [hself]; exact hstuck)

/-! ### XINH_READBACK (R84) -/

theorem getD_set_none {α : Type} (xs : List (Option α)) (i : Nat) : (xs.set i none).getD i none = none := by
  rw [List.getD_eq_getElem?_getD, List.getElem?_set_self']
  cases xs[i]? <;> rfl

/-- The lane after a readback that differs: the line stuck at the level read, the mismatch recorded. -/
def Lane.readbackBad (L : Lane) (i : Nat) (level : Bool) : Lane :=
  ((L.onSdl fun d => { d with lineStuck := d.lineStuck.set i (some level) }).put F.SDL_XINH_RB_ERR 1).note Ev.SDL_XINH_READBACK

/-- The lane after a readback as driven: the line is sound. -/
def Lane.readbackGood (L : Lane) (i : Nat) : Lane := L.onSdl fun d => { d with lineStuck := d.lineStuck.set i none }

theorem exec_xinhReadback {s : State} {l peer : LaneId} {level : Bool}
    (hr : Instr.ready (.xinhReadback l peer level) (s.lane l) = true) :
    (s.lane l).hedgeUp = true ∧ peer ≠ l ∧ exec (.xinhReadback l peer level) s = .next ((s.upd l fun K =>
      if (s.lane l).xinhOut peer = level then K.readbackGood (peerIdx l peer) else K.readbackBad (peerIdx l peer) level).seeXinh l peer) := by
  change ((s.lane l).hedgeUp && decide ((s.lane l).strap = l) && decide (peer ≠ l)) = true at hr
  simp only [Bool.and_eq_true, decide_eq_true_eq] at hr
  obtain ⟨⟨hup, -⟩, hp⟩ := hr
  refine ⟨hup, hp, ?_⟩
  change execXinhReadback l peer level s = _
  unfold execXinhReadback
  by_cases h : (s.lane l).xinhOut peer = level
  · simp only [hup, hp, h, ne_eq, not_false_eq_true, decide_true, Bool.and_self, if_true, bne_self_eq_false, Bool.false_eq_true, if_false]
    rfl
  · simp only [hup, hp, h, ne_eq, not_false_eq_true, decide_true, Bool.and_self, if_true, bne_iff_ne.2 h, if_false]
    rfl

theorem Lane.readbackBad_spec (L : Lane) (i : Nat) (level : Bool) :
    (L.readbackBad i level).get F.SDL_XINH_RB_ERR = 1 ∧ (L.readbackBad i level).shows Ev.SDL_XINH_READBACK ∧
      (L.readbackBad i level).gate = L.gate ∧ L.only (R.SDL_XINH.addr 0 0 :: evRegs .sdl 0) (L.readbackBad i level) := by
  unfold Lane.readbackBad
  generalize hK : (L.onSdl fun d => { d with lineStuck := d.lineStuck.set i (some level) }) = K
  have hgate : K.gate = L.gate := by rw [← hK, Lane.onSdl_gate]
  have hsame : L.only (R.SDL_XINH.addr 0 0 :: evRegs .sdl 0) K := by rw [← hK]; exact L.only_refl _
  have hnote := (K.put F.SDL_XINH_RB_ERR 1).note_only Ev.SDL_XINH_READBACK 0
  refine ⟨?_, Lane.note_shows _ 0 rfl (by decide), ?_, ?_⟩
  · rw [Lane.get_of_rd (hnote.2.2 _ (by decide)), Lane.get_put_same _ _ _ _ _ (by decide)]
    rfl
  · rw [Lane.note_gate, Lane.put_gate, hgate]
  · exact Lane.only_trans hsame (Lane.only_trans (K.only_put _ F.SDL_XINH_RB_ERR 1 0 0 (List.mem_cons_self ..))
      (Lane.only_mono hnote fun _ ha => List.mem_cons_of_mem _ ha))

/-- A readback other than driven is recorded, and the peer sees the level read. -/
theorem xinhReadback_differs (l peer : LaneId) (level : Bool) :
    DoesIn l (.xinhReadback l peer level) (fun s => (s.lane l).xinhOut peer ≠ level) fun s t =>
      (t.lane l).get F.SDL_XINH_RB_ERR = 1 ∧ (t.lane l).shows Ev.SDL_XINH_READBACK ∧ (t.lane l).gate = (s.lane l).gate ∧
      (s.lane l).only (R.SDL_XINH.addr 0 0 :: evRegs .sdl 0) (t.lane l) ∧ (s.lane peer).only [R.SDL_XINH.addr 0 0] (t.lane peer) := by
  intro s hr hbad
  obtain ⟨-, hp, hexec⟩ := exec_xinhReadback hr
  obtain ⟨hget, hshows, hgate, honly⟩ := (s.lane l).readbackBad_spec (peerIdx l peer) level
  have hseen := State.seeXinh_only (s.upd l fun K => K.readbackBad (peerIdx l peer) level) l peer
  rw [s.lane_upd_ne _ hp] at hseen
  simp only [if_neg hbad] at hexec
  refine ⟨_, hexec, (State.seeXinh_pending _ _ _).trans (s.upd_pending _ _), ?_⟩
  have hself : ((s.upd l fun K => K.readbackBad (peerIdx l peer) level).seeXinh l peer).lane l =
      (s.lane l).readbackBad (peerIdx l peer) level := by rw [State.seeXinh_lane_ne _ (Ne.symm hp), State.lane_upd]
  beta_reduce
  rw [hself]
  exact ⟨hget, hshows, hgate, honly, hseen⟩

/-- A readback as driven shows the line sound, and the peer sees it. -/
theorem xinhReadback_agrees (l peer : LaneId) (level : Bool) :
    DoesIn l (.xinhReadback l peer level) (fun s => (s.lane l).xinhOut peer = level) fun s t =>
      (t.lane l).sdl.lineStuck = (s.lane l).sdl.lineStuck.set (peerIdx l peer) none ∧ (s.lane l).only [] (t.lane l) ∧
      (s.lane peer).only [R.SDL_XINH.addr 0 0] (t.lane peer) ∧
      (t.lane peer).get (if peer = l.next then F.SDL_XINH_IN_PV else F.SDL_XINH_IN_NX) = b2n level := by
  intro s hr hgood
  obtain ⟨hup, hp, hexec⟩ := exec_xinhReadback hr
  simp only [if_pos hgood] at hexec
  have hmid := s.lane_upd l fun K => K.readbackGood (peerIdx l peer)
  have hseen := State.seeXinh_only (s.upd l fun K => K.readbackGood (peerIdx l peer)) l peer
  rw [s.lane_upd_ne _ hp] at hseen
  have hsound : ((s.lane l).readbackGood (peerIdx l peer)).sdl.lineStuck.getD (peerIdx l peer) none = none :=
    getD_set_none _ _
  have hline : (s.upd l fun K => K.readbackGood (peerIdx l peer)).xinhLine l peer = level := by
    rw [State.xinhLine_sound (by rw [hmid]; exact hup) (by rw [hmid]; exact hsound), hmid]
    exact hgood
  refine ⟨_, hexec, (State.seeXinh_pending _ _ _).trans (s.upd_pending _ _), ?_⟩
  have hself : ((s.upd l fun K => K.readbackGood (peerIdx l peer)).seeXinh l peer).lane l = (s.lane l).readbackGood (peerIdx l peer) := by
    rw [State.seeXinh_lane_ne _ (Ne.symm hp), hmid]
  beta_reduce
  rw [hself]
  exact ⟨rfl, Lane.only_refl _ _, hseen, (State.seeXinh_get _ l peer).trans (congrArg b2n hline)⟩

/-! ### The lane stopped (R83) -/

/-- Stopped by both incoming lines: XINH_STOPPED shown and recorded, lane stop XINH set, every gate off. -/
def Lane.xinhStop (L : Lane) : Lane := ((L.put F.SDL_XINH_STOPPED 1).note Ev.SDL_XINH_STOPPED).laneStop F.GD_LSTOP_XINH

/-- What stands in a lane that both its peers have stopped (R83). -/
def Lane.xinhHeld (M : Lane) : Prop :=
  M.get F.SDL_XINH_STOPPED = 1 ∧ M.flagged Ev.SDL_XINH_STOPPED = true ∧ M.get F.GD_LSTOP_XINH = 1 ∧ M.allOff

theorem Lane.xinhStop_held {L : Lane} (h : L.is F.GD_LSTOP_XINH = false) : L.xinhStop.xinhHeld := by
  have hnote := (L.put F.SDL_XINH_STOPPED 1).note_only Ev.SDL_XINH_STOPPED 0
  have hflag := (L.put F.SDL_XINH_STOPPED 1).note_flagged (e := Ev.SDL_XINH_STOPPED) 0 rfl
  have hstopped : ((L.put F.SDL_XINH_STOPPED 1).note Ev.SDL_XINH_STOPPED).get F.SDL_XINH_STOPPED = 1 :=
    (Lane.get_of_rd (hnote.2.2 _ (by decide))).trans (L.get_put_same _ _ _ _ (by decide))
  have hclear : ((L.put F.SDL_XINH_STOPPED 1).note Ev.SDL_XINH_STOPPED).is F.GD_LSTOP_XINH = false := by
    rw [Lane.is, Lane.get_of_rd (hnote.2.2 _ (by decide)), L.get_put_ne _ _ _ _ _ _ _ (by decide)]
    exact h
  unfold Lane.xinhStop
  generalize (L.put F.SDL_XINH_STOPPED 1).note Ev.SDL_XINH_STOPPED = K at hflag hstopped hclear ⊢
  have honly := K.laneStop_only xinh_stopCause
  refine ⟨?_, ?_, ?_, K.laneStop_allOff xinh_stopCause (.inl hclear)⟩
  · rw [Lane.get_of_rd (honly.2.2 _ (by decide)), hstopped]
  · rw [Lane.flagged_of_rd (honly.2.2 _ (by decide)), hflag]
  · rw [K.laneStop_get_cause xinh_stopCause xinh_stopCause, if_pos rfl]

theorem Lane.xinhStop_own (L : Lane) : L.xinhStop.own = L.own := by
  unfold Lane.xinhStop
  rw [Lane.own_of_only (Lane.laneStop_only _ xinh_stopCause) (by decide), Lane.own_of_only (Lane.note_only _ _ _) (by decide),
    Lane.own_of_only (L.only_put [R.SDL_XINH.addr 0 0] _ _ _ _ (by decide)) (by decide)]

/-- Leaving the vote keeps a stopped lane stopped (R83). -/
theorem Lane.xinhHeld.leaves {L : Lane} (h : L.xinhHeld) : L.outOfVote.exclude.xinhHeld := by
  obtain ⟨hstopped, hflag, hcause, hoff⟩ := h
  have hvote := L.outOfVote_hedgeKept
  have hleave := Lane.hedgeOnly_trans (hvote.hedgeOnly leaveRegs) (L.outOfVote.exclude_hedgeOnly false)
  refine ⟨?_, ?_, ?_, L.outOfVote.exclude_allOff false (by rw [Lane.allOff, hvote.2]; exact hoff)⟩
  · rw [Lane.get_of_rd (hleave.2.2 _ (by decide) (by decide)), hstopped]
  · rw [Lane.flagged_of_rd (hleave.2.2 _ (by decide) (by decide)), hflag]
  · rw [L.outOfVote.exclude_get_cause false xinh_stopCause (by decide), Lane.get_of_rd (hvote.1.2.2 _ (by decide) List.not_mem_nil), hcause]

theorem does_xinhStopped {l : LaneId} {p : Lane → Lane → Prop} (hp : ∀ L, L.is F.GD_LSTOP_XINH = false →
    p L (if L.xinhStop.own == 1 then L.xinhStop.outOfVote.exclude else L.xinhStop)) : Does l (.xinhStopped l) p := by
  refine does_of_on (f := fun _ L => if L.xinhStop.own == 1 then L.xinhStop.outOfVote.exclude else L.xinhStop) (fun _ => rfl)
    (fun _ h => h) fun s hr => hp _ ?_
  change ((s.lane l).hedgeUp && !(s.lane l).is F.GD_LSTOP_XINH && _) = true at hr
  simp only [Bool.and_eq_true, Bool.not_eq_true'] at hr
  exact hr.1.2

/-- XINH_SINGLE (R84): recorded, and neither gates nor lines change. -/
theorem Lane.xinhSingle_spec (L : Lane) :
    ((L.note Ev.SDL_XINH_SINGLE).onSdl fun d => { d with singleDone := true }).shows Ev.SDL_XINH_SINGLE = true ∧
    ((L.note Ev.SDL_XINH_SINGLE).onSdl fun d => { d with singleDone := true }).sdl = { L.sdl with singleDone := true } ∧
    ((L.note Ev.SDL_XINH_SINGLE).onSdl fun d => { d with singleDone := true }).gate = L.gate ∧
    L.only (evRegs .sdl 0) ((L.note Ev.SDL_XINH_SINGLE).onSdl fun d => { d with singleDone := true }) := by
  have hshows := L.note_shows (e := Ev.SDL_XINH_SINGLE) 0 rfl (by decide)
  have hsdl := L.note_sdl Ev.SDL_XINH_SINGLE 0
  refine ⟨(Lane.shows_of_rd fun _ => rfl).trans hshows, ?_, ?_, L.note_only Ev.SDL_XINH_SINGLE 0⟩
  · rw [← hsdl]
    rfl
  · rw [Lane.onSdl_gate, Lane.note_gate]

/-- Settles O17: the lines by `driveXinh` and `seeXinh`, the stop by the lane stop XINH, which exclusion keeps. -/
theorem crossInhibit : Obligations.CrossInhibit := by
  unfold Obligations.CrossInhibit
  refine ⟨fun l peer s hr => ?_, fun l => ?_, fun l => ?_, fun l => ?_, xinhReadback_differs, xinhReadback_agrees, fun l => ?_⟩
  · obtain ⟨hup, hs, hp, hexec⟩ := exec_xinhAssert hr
    refine ⟨_, hexec, ?_⟩
    cases hstop : nthB (s.lane l).sdl.hstopSeen (peerIdx l peer) with
    | true =>
      rw [if_pos rfl, State.lane_upd, State.lane_upd_ne _ _ hp]
      exact ⟨s.upd_pending _ _, rfl, fun x hx _ => s.lane_upd_ne _ hx, fun _ => ⟨rfl, Lane.only_refl _ _⟩, fun h => absurd h (by decide)⟩
    | false =>
      obtain ⟨hget, hshows, honly⟩ := ((s.lane l).spendDecision (peerIdx l peer)).assert_spec l peer
      rw [if_neg (by decide), s.xinhAsserted_lane_self hp]
      refine ⟨s.xinhAsserted_pending l peer, ?_, fun x hl hx => s.xinhAsserted_lane_ne hl hx, fun h => absurd h (by decide), fun _ =>
        ⟨hget, hshows, State.xinhAsserted_get_peer hp hs hup, honly, s.xinhAsserted_only_peer hp⟩⟩
      rw [Lane.note_sdl, Lane.putB, Lane.put_sdl]
      rfl
  · refine does_xinhStopped fun L hclear => ?_
    have hheld := Lane.xinhStop_held hclear
    split
    · obtain ⟨hstopped, hflag, hcause, hoff⟩ := hheld.leaves
      exact ⟨hstopped, hflag, hcause, hoff, fun _ => Lane.exclude_own _ _⟩
    · rename_i hown
      obtain ⟨hstopped, hflag, hcause, hoff⟩ := hheld
      exact ⟨hstopped, hflag, hcause, hoff, fun h => absurd (by rw [L.xinhStop_own, h]; rfl) hown⟩
  · exact does_of_on (f := fun _ L => L.laneStopEnd F.GD_LSTOP_XINH) (fun _ => rfl) (fun _ h => h) fun s _ =>
      (s.lane l).laneStopEnd_spec xinh_stopCause
  · exact does_of_on (f := fun _ L => (L.note Ev.SDL_XINH_SINGLE).onSdl fun d => { d with singleDone := true }) (fun _ => rfl)
      (fun _ h => h) fun s _ => (s.lane l).xinhSingle_spec
  · exact does_of_on (f := fun _ L => L.put F.SDL_XINH_STOPPED 0) (fun _ => rfl) (fun _ h => h) fun s _ =>
      ⟨(s.lane l).reg_put_same _ _ _ _ (by decide), (s.lane l).only_put _ _ _ _ _ (by decide)⟩

end Sys2Proof.Machine
end

section
/-!
SUPPORT. What a recorded event shows whatever its block (R55), and what posting into the completion ring and freeing a tag do
(R155, R156): each operation's reads and its frame.
-/

namespace Sys2Proof.Machine

/-! ### What an event shows in its queue -/

/-- The Almanac takes an event without changing any register but ALM_STAT (R518, R521). -/
theorem Lane.almSee_rd (L : Lane) (e : Event) (n : Nat) {a : Nat} (h : a ≠ R.ALM_STAT.addr 0 0) : (L.almSee e n).rd a = L.rd a := by
  simp only [Lane.almSee]
  split
  · rfl
  · split
    · rfl
    · obtain ⟨s, w, ht | ht⟩ := L.almTake_eq { blk := almIdx e.blk, inst := n, code := e.code, cls := e.cls.num, t := L.stamp e.blk } <;>
        rw [ht]
      · rfl
      · exact Lane.rd_wr_ne _ _ h

/-- Outside ALM_STAT the registers stand as the queue's entry and ESTAT's class leave them. -/
theorem Lane.note_rd_entered (L : Lane) (e : Event) (n : Nat) {a : Nat} (h : a ≠ R.ALM_STAT.addr 0 0) :
    (L.note e n).rd a = ((L.evqEnter e.blk n e.code e.cls.num).estat e.blk n (2 ^ e.cls.num)).rd a :=
  Lane.almSee_rd _ e n h

/-- A recorded event stands in entry 0 of its queue and flags its class, in the Hedge and in the logic die. -/
theorem Lane.note_shows_of_apart (L : Lane) {e : Event} (n : Nat) (hcode : e.code < 256)
    (hstat : (H.ESTAT e.blk).addr n 0 ≠ R.ALM_STAT.addr 0 0) (hqueue : (H.EVQ e.blk).addr n 0 ≠ R.ALM_STAT.addr 0 0) :
    (L.note e n).shows e n = true := by
  obtain ⟨rep, hrep, hreg⟩ := L.evqEnter_reg e.blk n e.code e.cls.num
  obtain ⟨hlt, hvalid, hread, hclass⟩ := evqWord_reads hcode (Cls.num_lt e.cls) hrep
  have hentry : (L.note e n).reg (H.EVQ e.blk) n = evqWord e.code e.cls.num rep := by
    have apart : (H.EVQ e.blk).addr n 0 ≠ (H.ESTAT e.blk).addr n 0 := by simp [Reg.addr, H.EVQ, H.ESTAT]
    rw [Lane.reg, L.note_rd_entered e n hqueue, Lane.estat_rd _ _ apart]
    exact hreg.trans (Nat.mod_eq_of_lt hlt)
  have hflag : bit ((L.note e n).reg (H.ESTAT e.blk) n) e.cls.num = true := by
    have hwidth : e.cls.num < 32 := (Cls.num_lt e.cls).trans (by decide)
    rw [Lane.reg, L.note_rd_entered e n hstat, ← Lane.reg, Lane.estat_reg, bit, Nat.testBit_mod_two_pow, Nat.testBit_lor,
      Nat.testBit_two_pow_self]
    simp [hwidth]
  simp [Lane.shows, hentry, hflag, hvalid, hread, hclass]

/-- An event of the command queue shows. -/
theorem Lane.note_shows_cmdq (L : Lane) {e : Event} (hblk : e.blk = .cmdq) (hcode : e.code < 256) : (L.note e).shows e = true :=
  L.note_shows_of_apart 0 hcode (by rw [hblk]; decide) (by rw [hblk]; decide)

/-! ### Bytes of a reply (Table 4.2) -/

@[simp] theorem length_bytesLE : ∀ n x, (bytesLE n x).length = n
  | 0, _ => rfl
  | n + 1, x => congrArg (· + 1) (length_bytesLE n (x / 256))

/-- A reply is its 16 header bytes and its result (Table 4.2). -/
theorem length_replyBytes (c : TCmd) (status : Nat) (res : List Byte) (t : Nat) : (replyBytes c status res t).length = 16 + res.length := by
  simp only [replyBytes, List.length_append, length_bytesLE]

/-! ### Memory written -/

@[simp] theorem Lane.setMemBytes_strap (bs : List Byte) : ∀ (L : Lane) (a : Nat), (L.setMemBytes a bs).strap = L.strap := by
  induction bs with
  | nil => exact fun _ _ => rfl
  | cons b t ih => exact fun L a => ih (L.setByte a b) (a + 1)

@[simp] theorem Lane.setMemBytes_rd (bs : List Byte) : ∀ (L : Lane) (a x : Nat), (L.setMemBytes a bs).rd x = L.rd x := by
  induction bs with
  | nil => exact fun _ _ _ => rfl
  | cons b t ih => exact fun L a => ih (L.setByte a b) (a + 1)

@[simp] theorem Lane.setMemBytes_cmdq (bs : List Byte) : ∀ (L : Lane) (a : Nat), (L.setMemBytes a bs).cmdq = L.cmdq := by
  induction bs with
  | nil => exact fun _ _ => rfl
  | cons b t ih => exact fun L a => ih (L.setByte a b) (a + 1)

/-- A frame on registers keeps every range of memory. -/
theorem Lane.memBytes_of_only {L M : Lane} {K : List Nat} (h : L.only K M) : ∀ n a, M.memBytes a n = L.memBytes a n
  | 0, _ => rfl
  | n + 1, a => congrArg₂ List.cons (h.2.1 a) (Lane.memBytes_of_only h n (a + 1))

theorem Lane.get_of_only {L M : Lane} {K : List Nat} (h : L.only K M) {f : Fld} {n i : Nat} (hf : f.reg.addr n i ∉ K) :
    M.get f n i = L.get f n i :=
  Lane.get_of_rd (h.2.2 _ hf)

/-! ### Frames of a reply (R156, R157) -/

theorem Lane.onlyReply_trans {L M N : Lane} {K : List Nat} (h : L.onlyReply K M) (g : M.onlyReply K N) : L.onlyReply K N := by
  obtain ⟨hs, hr, hb⟩ := h
  obtain ⟨gs, gr, gb⟩ := g
  exact ⟨gs.trans hs, fun a ha => (gr a ha).trans (hr a ha), fun a ha => (gb a ha).trans (hb a ha)⟩

theorem Lane.onlyReply_of_only {L M : Lane} {K J : List Nat} (h : L.only J M) (hs : ∀ a, a ∈ J → a ∈ K ++ replyRegs) : L.onlyReply K M :=
  ⟨h.1, fun a ha => h.2.2 a fun hj => ha (hs a hj), fun a _ => h.2.1 a⟩

/-- Hidden state of the command queue is no register and no memory. -/
theorem Lane.only_onCmdq (L : Lane) (K : List Nat) (f : CmdqSt → CmdqSt) : L.only K (L.onCmdq f) := L.only_refl K

/-! ### A reply posted at TAIL (R156) -/

/-- TAIL advances by one, modulo the ring's 256 slots. -/
theorem Lane.cplPut_get_tail (L : Lane) (bs : List Byte) :
    (L.cplPut bs).get F.CMDQ_CPL_TAIL_TAIL = (L.get F.CMDQ_CPL_TAIL_TAIL + 1) % 256 := by
  have hread : (L.setMemBytes (cplSlot (L.get F.CMDQ_CPL_TAIL_TAIL)) bs).get F.CMDQ_CPL_TAIL_TAIL = L.get F.CMDQ_CPL_TAIL_TAIL :=
    Lane.get_of_rd (Lane.setMemBytes_rd _ _ _ _)
  rw [Lane.cplPut, Lane.incMod, Lane.get_put_same _ _ _ _ _ (by decide), hread]
  rfl

@[simp] theorem Lane.cplPut_cmdq (L : Lane) (bs : List Byte) : (L.cplPut bs).cmdq = L.cmdq := Lane.setMemBytes_cmdq bs L _

/-- The bytes stand in the slot that TAIL named. -/
theorem Lane.cplPut_memBytes (L : Lane) (bs : List Byte) : (L.cplPut bs).memBytes (cplSlot (L.get F.CMDQ_CPL_TAIL_TAIL)) bs.length = bs := by
  have hmem : (L.setMemBytes (cplSlot (L.get F.CMDQ_CPL_TAIL_TAIL)) bs).only [R.CMDQ_CPL_TAIL.addr 0 0] (L.cplPut bs) :=
    Lane.only_put _ _ F.CMDQ_CPL_TAIL_TAIL _ 0 0 (List.mem_singleton_self _)
  rw [Lane.memBytes_of_only hmem, Lane.memBytes_setMemBytes]

/-- A reply that fits its slot changes the completion ring and TAIL alone. -/
theorem Lane.cplPut_onlyReply (L : Lane) {bs : List Byte} (h : bs.length ≤ 64) : L.onlyReply [] (L.cplPut bs) := by
  have htail : L.get F.CMDQ_CPL_TAIL_TAIL < 256 := L.get_lt F.CMDQ_CPL_TAIL_TAIL 0 0
  refine ⟨Lane.setMemBytes_strap bs L _, fun a ha => ?_, fun a ha => ?_⟩
  · have hne : a ≠ R.CMDQ_CPL_TAIL.addr 0 0 := fun e => ha (by rw [e]; decide)
    exact (Lane.rd_put_ne _ F.CMDQ_CPL_TAIL_TAIL _ 0 0 hne).trans (Lane.setMemBytes_rd bs L _ a)
  · refine Lane.byte_setMemBytes_ne bs L ?_
    unfold cplSlot
    omega

/-! ### A tag freed (R155) -/

/-- Bringing CMDQ_OUTST up to date changes that register alone. -/
theorem Lane.outst_only (L : Lane) : L.only [R.CMDQ_OUTST.addr 0 0] L.outst :=
  Lane.only_trans (L.only_put _ F.CMDQ_OUTST_ALL _ 0 0 (List.mem_singleton_self _))
    (Lane.only_put _ _ F.CMDQ_OUTST_NET _ 0 0 (List.mem_singleton_self _))

theorem Lane.dropCmd_only (L : Lane) (c : TCmd) : L.only [R.CMDQ_OUTST.addr 0 0] (L.dropCmd c) :=
  Lane.only_trans (L.only_onCmdq _ _) (Lane.outst_only _)

@[simp] theorem Lane.dropCmd_cmdq (L : Lane) (c : TCmd) :
    (L.dropCmd c).cmdq = { L.cmdq with queue := L.cmdq.queue.filter (fun d => !(d.tag == c.tag && d.net == c.net)) } := rfl

/-- A tag whose command is dropped names none. -/
theorem Lane.dropCmd_cmd (L : Lane) (c : TCmd) : (L.dropCmd c).cmd c.tag c.net = none := by
  rw [Lane.cmd, Lane.dropCmd_cmdq, List.find?_eq_none]
  intro d hd
  simpa only [Bool.not_eq_true, Bool.not_eq_true'] using (List.mem_filter.1 hd).2

end Sys2Proof.Machine
end

section
/-!
SUPPORT. The command rings (R152 to R157, R178): what each command of the submission and completion rings makes of its lane.
-/

namespace Sys2Proof.Machine

/-! ### Reservation (R152) -/

/-- The lane after a read of an exhausted ring: the bus returns 0xFFFF, and the ring is marked starved. -/
def Lane.allocNone (L : Lane) (ring : Nat) : Lane :=
  L.onCmdq fun q => { q with starved := q.starved.set ring true, busData := 0xFFFF }

/-- The lane after a read that reserves slot `i` of a ring. -/
def Lane.allocSlot (L : Lane) (ring i : Nat) : Lane :=
  (L.onCmdq fun q => { q with
    slots := q.slots ++ [⟨ring, i, false, false, L.now⟩], starved := q.starved.set ring false, busData := BitVec.ofNat 32 i }).freeShow ring

/-- CMDQ_RING_n_FREE brought up to date changes that register alone. -/
theorem Lane.freeShow_only (L : Lane) (ring : Nat) : L.only [F.CMDQ_RING_FREE_FREE.reg.addr 0 ring] (L.freeShow ring) :=
  L.only_put _ F.CMDQ_RING_FREE_FREE _ 0 ring (List.mem_singleton_self _)

@[simp] theorem Lane.freeShow_cmdq (L : Lane) (ring : Nat) : (L.freeShow ring).cmdq = L.cmdq := rfl

/-- An access that its master makes and that neither PMP nor firewall refuses reaches its target (R145, R146). -/
theorem State.gate_of_mayRead {s : State} {l : LaneId} {m : Master} {a : Nat} (f : State → Out) (h : (s.lane l).mayRead m a = true) :
    s.gate l m false a f = f s := by
  simp only [Lane.mayRead, Bool.and_eq_true] at h
  obtain ⟨⟨hruns, hpmp⟩, hpermits⟩ := h
  simp [State.gate, hruns, hpmp, hpermits]

/-- A reservation from a ring without a free slot. -/
theorem exec_alloc_none {s : State} {l : LaneId} {m : Master} {ring : Fin 4} (hr : Instr.ready (.alloc l m ring) (s.lane l) = true)
    (hfree : (s.lane l).freeSlots ring.val = []) : exec (.alloc l m ring) s = .next (s.upd l (·.allocNone ring.val)) := by
  obtain ⟨hup, hread⟩ := Bool.and_eq_true_iff.1 (show ((s.lane l).up && (s.lane l).mayRead m _) = true from hr)
  change execAlloc l m ring s = _
  rw [execAlloc, State.gate_of_mayRead _ hread]
  simp only [hup, if_true, hfree]
  rfl

/-- A reservation from a ring with free slots takes one of them; only the draw of which one changes the rest of the state. -/
theorem exec_alloc_some {s : State} {l : LaneId} {m : Master} {ring : Fin 4} (hr : Instr.ready (.alloc l m ring) (s.lane l) = true)
    (hfree : (s.lane l).freeSlots ring.val ≠ []) : ∃ i, i ∈ (s.lane l).freeSlots ring.val ∧
      exec (.alloc l m ring) s = .next (s.draw.2.upd l (·.allocSlot ring.val i)) := by
  obtain ⟨hup, hread⟩ := Bool.and_eq_true_iff.1 (show ((s.lane l).up && (s.lane l).mayRead m _) = true from hr)
  obtain ⟨f, fs, hcons⟩ := List.exists_cons_of_ne_nil hfree
  have hlt : Config.freeNat s.free % (f :: fs).length < (f :: fs).length := Nat.mod_lt _ (Nat.succ_pos _)
  refine ⟨(f :: fs).getD (Config.freeNat s.free % (f :: fs).length) f, ?_, ?_⟩
  · rw [hcons, List.getD_eq_getElem _ _ hlt]
    exact List.getElem_mem hlt
  · change execAlloc l m ring s = _
    rw [execAlloc, State.gate_of_mayRead _ hread]
    simp only [hup, if_true, hcons]
    rfl

@[simp] theorem State.draw_lane (s : State) (l : LaneId) : s.draw.2.lane l = s.lane l := by cases l <;> rfl

/-- A read of CMDQ_ALLOC reserves a free slot, or returns 0xFFFF (R152). -/
theorem alloc_reserves (l : LaneId) (m : Master) (ring : Fin 4) : DoesAny l (.alloc l m ring) fun L M =>
    L.only [F.CMDQ_RING_FREE_FREE.reg.addr 0 ring.val] M ∧
    (L.freeSlots ring.val = [] → M.cmdq.busData = 0xFFFF ∧ M.cmdq.slots = L.cmdq.slots) ∧
    (L.freeSlots ring.val ≠ [] → ∃ i, i ∈ L.freeSlots ring.val ∧ M.cmdq.busData = BitVec.ofNat 32 i ∧
      M.cmdq.slots = L.cmdq.slots ++ [⟨ring.val, i, false, false, L.now⟩]) := by
  intro s hr
  by_cases hfree : (s.lane l).freeSlots ring.val = []
  · refine ⟨_, exec_alloc_none hr hfree, s.upd_pending _ _, ?_⟩
    rw [State.lane_upd]
    exact ⟨Lane.only_onCmdq _ _ _, fun _ => ⟨rfl, rfl⟩, fun h => absurd hfree h⟩
  · obtain ⟨i, hi, hexec⟩ := exec_alloc_some hr hfree
    refine ⟨_, hexec, State.upd_pending _ _ _, ?_⟩
    rw [State.lane_upd, State.draw_lane]
    exact ⟨Lane.only_trans (Lane.only_onCmdq _ _ _) (Lane.freeShow_only _ _), fun h => absurd h hfree, fun _ => ⟨i, hi, rfl, rfl⟩⟩

/-! ### Posting and lapse (R152, R153) -/

/-- Whether a slot that is not free is slot `i` of a ring. -/
def RingSlot.isAt (r : RingSlot) (ring i : Nat) : Bool := r.ring == ring && r.slot == i

theorem RingSlot.isAt_iff (r : RingSlot) (ring i : Nat) : r.isAt ring i = true ↔ r.ring = ring ∧ r.slot = i := by
  simp only [RingSlot.isAt, Bool.and_eq_true, beq_iff_eq]

/-- Slot `i` of a ring is reserved and not posted. -/
def Lane.reserved (L : Lane) (ring i : Nat) : Bool := L.cmdq.slots.any fun r => r.isAt ring i && !r.posted

theorem Lane.reserved_iff (L : Lane) (ring i : Nat) :
    L.reserved ring i = true ↔ ∃ r, r ∈ L.cmdq.slots ∧ r.ring = ring ∧ r.slot = i ∧ r.posted = false := by
  simp only [Lane.reserved, List.any_eq_true, Bool.and_eq_true, RingSlot.isAt_iff, Bool.not_eq_true', and_assoc]

/-- The lane after a post of a reserved slot: the slot stands last in its ring's order. -/
def Lane.postSlot (L : Lane) (m : Master) (ring i : Nat) : Lane :=
  L.onCmdq fun q => { q with slots := q.slots.filter (fun r => !r.isAt ring i) ++ [⟨ring, i, true, decide (m = .svc), L.now⟩] }

theorem does_post {l : LaneId} {m : Master} {ring : Fin 4} {slot : Nat} {p : Lane → Lane → Prop}
    (hp : ∀ L, p L (if L.reserved ring.val (slot % 64) then L.postSlot m ring.val (slot % 64) else L.note Ev.CMDQ_POST_ERR)) :
    Does l (.post l m ring slot) p :=
  does_of_on (f := fun _ L => if L.reserved ring.val (slot % 64) then L.postSlot m ring.val (slot % 64) else L.note Ev.CMDQ_POST_ERR)
    (fun _ => rfl) (fun _ h => h) fun _ _ => hp _

/-- A reservation of slot `i` of a ring that has stood for 1 ms (R153). -/
def Lane.lapsed (L : Lane) (ring i : Nat) (r : RingSlot) : Bool := r.isAt ring i && !r.posted && L.since r.since (ms 1)

/-- The lane after a reservation has lapsed: the slot freed, and recorded. -/
def Lane.lapse (L : Lane) (ring i : Nat) : Lane :=
  ((L.onCmdq fun q => { q with slots := q.slots.filter (fun r => !L.lapsed ring i r) }).freeShow ring).note Ev.CMDQ_ALLOC_LAPSE

theorem Lane.lapse_cmdq (L : Lane) (ring i : Nat) :
    (L.lapse ring i).cmdq = { L.cmdq with slots := L.cmdq.slots.filter (fun r => !L.lapsed ring i r) } := by
  rw [Lane.lapse, Lane.note_cmdq, Lane.freeShow_cmdq]
  rfl

theorem Lane.mem_lapse_slots (L : Lane) (ring i : Nat) (r : RingSlot) : r ∈ (L.lapse ring i).cmdq.slots ↔
    r ∈ L.cmdq.slots ∧ ¬ (r.ring = ring ∧ r.slot = i ∧ r.posted = false ∧ L.since r.since (ms 1) = true) := by
  rw [Lane.lapse_cmdq, List.mem_filter, Bool.not_eq_true', ← Bool.not_eq_true]
  simp only [Lane.lapsed, Bool.and_eq_true, RingSlot.isAt_iff, Bool.not_eq_true', and_assoc]

theorem Lane.lapse_only (L : Lane) (ring i : Nat) :
    L.only (F.CMDQ_RING_FREE_FREE.reg.addr 0 ring :: evRegs .cmdq 0) (L.lapse ring i) :=
  Lane.only_trans (L.only_onCmdq _ _) (Lane.only_trans (Lane.only_put _ _ F.CMDQ_RING_FREE_FREE _ 0 ring (List.mem_cons_self ..))
    (Lane.only_mono (Lane.note_only _ Ev.CMDQ_ALLOC_LAPSE 0) fun _ ha => List.mem_cons_of_mem _ ha))

theorem does_allocLapse {l : LaneId} {ring : Fin 4} {slot : Nat} {p : Lane → Lane → Prop} (hp : ∀ L, p L (L.lapse ring.val slot)) :
    Does l (.allocLapse l ring slot) p :=
  does_of_on (f := fun _ L => L.lapse ring.val slot) (fun _ => rfl) (fun _ h => h) fun _ _ => hp _

/-! ### The completion ring (R157, R178) -/

/-- How far slot `x` of the completion ring lies behind HEAD. -/
def Lane.pastHead (L : Lane) (x : Nat) : Nat := (x + 256 - L.get F.CMDQ_CPL_HEAD_HEAD) % 256

theorem does_cplHeadWrite {l : LaneId} {head : Byte} {p : Lane → Lane → Prop}
    (hp : ∀ L, p L (if L.pastHead (L.get F.CMDQ_CPL_TAIL_TAIL) < L.pastHead head.toNat then L.note Ev.CMDQ_POST_ERR
      else L.put F.CMDQ_CPL_HEAD_HEAD head.toNat)) : Does l (.cplHeadWrite l head) p :=
  does_of_on (f := fun _ L => if L.pastHead (L.get F.CMDQ_CPL_TAIL_TAIL) < L.pastHead head.toNat then L.note Ev.CMDQ_POST_ERR
    else L.put F.CMDQ_CPL_HEAD_HEAD head.toNat) (fun _ => rfl) (fun _ h => h) fun _ _ => hp _

/-- The lane after a waiting reply has gone out, `rest` left waiting. -/
def Lane.replySent (L : Lane) (c : TCmd) (st : Nat) (res : List Byte) (rest : List (TCmd × Nat × List Byte × Bool)) : Lane :=
  (L.onCmdq fun q => { q with waiting := rest }).cplPut (replyBytes c st res L.mtUs)

/-- The same, the tag freed by a final reply. -/
def Lane.sendWaiting (L : Lane) (c : TCmd) (st : Nat) (res : List Byte) (final : Bool)
    (rest : List (TCmd × Nat × List Byte × Bool)) : Lane :=
  if final then (L.replySent c st res rest).dropCmd c else L.replySent c st res rest

/-- REPLY_POST sends the reply that has waited longest. -/
theorem does_replyPost {l : LaneId} {p : Lane → Lane → Prop}
    (hp : ∀ L c st res final rest, L.cmdq.waiting = (c, st, res, final) :: rest → p L (L.sendWaiting c st res final rest)) :
    Does l (.replyPost l) p := by
  intro s hr
  obtain ⟨hfree, hsome⟩ := Bool.and_eq_true_iff.1 (show
    ((s.lane l).up && !(s.lane l).cplFull && !(s.lane l).cmdq.waiting.isEmpty) = true from hr)
  cases hw : (s.lane l).cmdq.waiting with
  | nil => simp [hw] at hsome
  | cons w rest =>
    obtain ⟨c, st, res, final⟩ := w
    refine ⟨(s.lane l).sendWaiting c st res final rest, ?_, hp _ c st res final rest hw⟩
    change execReplyPost l s = _
    rw [execReplyPost, State.on_runs _ _ _ hfree]
    simp only [hw]
    rfl

section
variable (L : Lane) (c : TCmd) (st : Nat) (res : List Byte) (final : Bool) (rest : List (TCmd × Nat × List Byte × Bool))

theorem Lane.replySent_cmdq : (L.replySent c st res rest).cmdq = { L.cmdq with waiting := rest } := Lane.cplPut_cmdq _ _

/-- Freeing the tag or not, CMDQ_OUTST alone can differ. -/
theorem Lane.sendWaiting_only : (L.replySent c st res rest).only [R.CMDQ_OUTST.addr 0 0] (L.sendWaiting c st res final rest) := by
  unfold Lane.sendWaiting
  split
  · exact Lane.dropCmd_only _ c
  · exact Lane.only_refl _ _

theorem Lane.sendWaiting_waiting : (L.sendWaiting c st res final rest).cmdq.waiting = rest := by
  unfold Lane.sendWaiting
  split
  · rw [Lane.dropCmd_cmdq, L.replySent_cmdq]
  · rw [L.replySent_cmdq]

/-- A reply sent takes one slot of the completion ring. -/
theorem Lane.sendWaiting_get_tail :
    (L.sendWaiting c st res final rest).get F.CMDQ_CPL_TAIL_TAIL = (L.get F.CMDQ_CPL_TAIL_TAIL + 1) % 256 :=
  (Lane.get_of_only (L.sendWaiting_only c st res final rest) (by decide)).trans (Lane.cplPut_get_tail _ _)

/-- The reply sent stands in the slot that TAIL named. -/
theorem Lane.sendWaiting_memBytes :
    (L.sendWaiting c st res final rest).memBytes (cplSlot (L.get F.CMDQ_CPL_TAIL_TAIL)) (16 + res.length) =
      replyBytes c st res L.mtUs := by
  rw [Lane.memBytes_of_only (L.sendWaiting_only c st res final rest), ← length_replyBytes c st res L.mtUs]
  exact Lane.cplPut_memBytes _ _

/-- A final reply frees its tag. -/
theorem Lane.sendWaiting_cmd_final : (L.sendWaiting c st res true rest).cmd c.tag c.net = none := Lane.dropCmd_cmd _ c

/-- An interim reply leaves its command outstanding. -/
theorem Lane.sendWaiting_queue_interim : (L.sendWaiting c st res false rest).cmdq.queue = L.cmdq.queue := by
  change (L.replySent c st res rest).cmdq.queue = _
  rw [L.replySent_cmdq]

theorem Lane.sendWaiting_onlyReply (h : res.length ≤ 48) : L.onlyReply [] (L.sendWaiting c st res final rest) :=
  Lane.onlyReply_trans (Lane.cplPut_onlyReply (L.onCmdq fun q => { q with waiting := rest }) (by rw [length_replyBytes]; omega))
    (Lane.onlyReply_of_only (L.sendWaiting_only c st res final rest) (by decide))

end

/-- Settles O23: each ring command by what it makes of its lane, which meets R152, R153, R157 and R178. -/
theorem ringCommands : Obligations.RingCommands := by
  unfold Obligations.RingCommands
  refine ⟨alloc_reserves, fun l m ring slot => ?post, fun l ring slot => ?lapse, fun l head => ?head, fun l => ?reply⟩
  case post =>
    refine does_post fun L => ?_
    rw [← L.reserved_iff]
    split
    · rename_i hres
      exact ⟨fun _ => ⟨L.only_onCmdq _ _, rfl, rfl⟩, fun h => absurd hres h⟩
    · rename_i hres
      exact ⟨fun h => absurd h hres, fun _ => ⟨L.note_shows_cmdq rfl (by decide), L.note_cmdq _ 0, L.note_only Ev.CMDQ_POST_ERR 0⟩⟩
  case lapse =>
    refine does_allocLapse fun L => ⟨Lane.note_shows_cmdq _ rfl (by decide), ?_, L.mem_lapse_slots ring.val slot, L.lapse_only ring.val slot⟩
    rw [L.lapse_cmdq]
  case head =>
    refine does_cplHeadWrite fun L => ?_
    split
    · rename_i hpast
      exact ⟨fun h => absurd hpast (Nat.not_lt.2 h), fun _ => ⟨L.note_shows_cmdq rfl (by decide), L.note_only Ev.CMDQ_POST_ERR 0⟩⟩
    · rename_i hpast
      exact ⟨fun _ => ⟨L.reg_put_same _ _ _ _ (by decide), L.only_put _ _ _ _ _ (List.mem_singleton_self _)⟩, fun h => absurd h hpast⟩
  case reply =>
    refine does_replyPost fun L c st res final rest hw d st' res' fin rest' hw' => ?_
    cases hw.symm.trans hw'
    refine ⟨L.sendWaiting_waiting .., L.sendWaiting_get_tail .., fun hlen =>
      ⟨L.sendWaiting_memBytes .., L.sendWaiting_onlyReply _ _ _ _ _ hlen⟩, fun hfin => ?_, fun hfin => ?_⟩ <;> subst hfin
    · exact L.sendWaiting_cmd_final c st res rest
    · exact L.sendWaiting_queue_interim c st res rest

end Sys2Proof.Machine
end
